-- ==== Sys2Proof/Word.lean ====
section
/-! DEFINITION. The word types of the Ecqueron BXE-9616 and their plainest arithmetic (R1: registers are 32 bits
wide; byte order is little-endian unless a structure states otherwise, 00_scope.md). -/

namespace Sys2Proof

/-- One byte. -/
abbrev Byte := BitVec 8

/-- A 32-bit register value (R1). -/
abbrev Word := BitVec 32

end Sys2Proof
end

