-- ==== Sys2Proof/Syntax.lean ====
section
/-! DEFINITION. The commands of the BXE-9616: one constructor of `Instr` per row of spec/opcode_table.json, with the
operands the row's rule gives it. What comes from outside the device (values written, bytes that arrive, readings of
sensors, results of training or of a transfer) is an operand; everything the device itself holds is in `State`. -/

namespace Sys2Proof

/-- How a read of host memory or of a peer ends when it fails (R79). -/
inductive DmaFail where
  | unsupportedRequest | completerAbort | poisoned | timeout
  deriving DecidableEq, Repr

/-- What one fetch of the buffer walk of R81 brings: bytes, or a failure. -/
inductive Fetched where
  | data (bytes : List Byte)
  | failed (why : DmaFail)
  deriving DecidableEq, Repr

/-- The causes an engine reports (R102), as LAST_CAUSE of R120 codes them; DEADLINE has its own command. -/
inductive EngineError where
  | checkLane | scratchParity | coreMismatch | knownAnswer
  deriving DecidableEq, Repr

/-- The detectors of R171. -/
inductive Detector where
  | volt | clock | temp | mesh
  deriving DecidableEq, Repr

/-- The three Paired queues of R244. -/
inductive PairedQueue where
  | faultRecords | mailbox | keyRequests
  deriving DecidableEq, Repr

/-- The two SPDM transports of R154. -/
inductive Transport where
  | doe | mctp
  deriving DecidableEq, Repr

/-- What a signature was made for (R156). -/
inductive Signed where
  | batch (func : Nat)
  | spdm
  deriving DecidableEq, Repr

/-- The data object types of the DOE mailbox (R207). -/
inductive DoeType where
  | discovery | cmaSpdm | securedCmaSpdm | other
  deriving DecidableEq, Repr

/-- The core PLLs of R23, numbered as CLK_PLL_UNLOCK's ARG (R320). -/
inductive Pll where
  | core | lake | stack
  deriving DecidableEq, Repr

/-- An SPDM request (R154): those with rows of their own, and any other, by its request code. -/
inductive SpdmReq where
  | getVersion
  | getCapabilities (version : Nat)
  | negotiateAlgorithms (suiteOffered : Bool)
  | getDigests
  | getCertificate (slot offset length : Nat)
  | challenge (slot : Nat) (nonce : List Byte)
  | getMeasurements (index : Nat) (signed : Bool) (nonce : List Byte)
  | keyExchange (slot reqSession : Nat) (exchangeData : List Byte)
  | finish (session : Nat) (verifyData : List Byte)
  | keyUpdate (session : Nat)
  | endSession (session : Nat)
  | chunkSend (bytes : List Byte)
  | chunkGet (seq : Nat)
  | vendorDefined (session : Option Nat) (ideKm : Bool)
  | keyProg (session : Option Nat) (stream keySet subStream : Nat) (key : List Byte)
  | kSetGo (session : Option Nat) (stream keySet : Nat)
  | kSetStop (session : Option Nat) (stream keySet : Nat)
  | ideKmQuery (session : Option Nat)
  | unsupported (code : Nat)
  deriving DecidableEq, Repr

/-- Where a host access goes: a function's BAR0, its BAR4 (doorbells and plan slots, R193), its configuration space. -/
inductive Space where
  | bar0 | bar4 | config
  deriving DecidableEq, Repr

/-- What the checks of a received TLP find (R158, R205): the IDE errors name the stream; `plain`: the TLP came without IDE
from a requester ID. -/
inductive Tlp where
  | good | poisoned | ecrc
  | ideCheck (stream : Nat)
  | misroutedIde (stream : Nat)
  | pcrc (stream : Nat)
  | plain (requester : Nat)
  deriving DecidableEq, Repr

/-- A host write as it arrives. `hwSet`: the bits that hardware sets in the same cycle, those of the first register written
from bit 0, of the second from bit 32 (R6). -/
structure WriteIn where
  tlp : Tlp
  hwSet : Nat
  deriving DecidableEq, Repr

/-- A host read of `len` bytes of a space. `add` and `add2`: what hardware presents in the same cycle to the first register
read and to the second (R6); in BAR4, `add` is the read's duration in 10 ns units (R65). -/
structure ReadIn where
  space : Space
  len : Nat
  add : Nat
  add2 : Nat
  tlp : Tlp
  deriving DecidableEq, Repr

/-- A read of BAR2 as it arrives, with its duration in 10 ns units (R226). -/
structure TimedTlp where
  latency : Nat
  tlp : Tlp
  deriving DecidableEq, Repr

/-- The task a result answers: ring pair, slot, job generation, unit and kind of its token (R107). -/
structure TaskId where
  q : Nat
  slot : Nat
  jgen : Nat
  unit : Nat
  kind : Nat
  deriving DecidableEq, Repr

/-- A function's receipt log, and whether the slot write of a held batch record that may now go out succeeds (R138). -/
structure LogOf where
  func : Nat
  slotWriteOk : Bool
  deriving DecidableEq, Repr

/-- What a request at a Lake slice asks (R229). -/
inductive LakeAccess where
  | read
  | write (bytes : List Byte) (poison : Bool)
  deriving DecidableEq, Repr

/-- The classes of R318. -/
inductive FaultClass where
  | c | u | f
  deriving DecidableEq, Repr

/-- One report at the collector's pair of wires (R319, R322): what its record carries. `invalid`: the pair reads
(0,0) or (1,1). -/
structure Report where
  source  : Nat
  cls     : FaultClass
  cause   : Nat
  func    : Nat
  arg     : Nat
  loc     : Nat
  detail  : Nat
  invalid : Bool
  deriving DecidableEq, Repr

/-- What a device read's completion brings (R198, R79). -/
inductive Completion where
  | data (bytes : List Byte)
  | failed (why : DmaFail)
  deriving DecidableEq, Repr

/-- Errors of the link below the transaction layer (R205): the correctable ones, then the fatal ones. -/
inductive LinkError where
  | receiver | badTlp | badDllp | replayTimeout | replayRollover
  | dlProtocol | fcProtocol | overflow | malformed
  deriving DecidableEq, Repr

/-- What training of the link found (R179 to R183): which physical lanes work, whether the partner's lane 0 came on
physical lane 15, the inverted lanes, the highest rate that trained, Flit mode, the precoding requested of the device's
transmitters, by logical lane, and how often the training passed through Recovery (R179, stage 5). With it comes what the link
has met since its last training: flits corrected, replays (R208), errors in order (R205). -/
structure TrainResult where
  working   : Nat
  reversed  : Bool
  inverted  : Nat
  rate      : Nat
  flit      : Bool
  precodeTx : Nat
  recoveries : Nat
  fecCorr   : Nat := 0
  replays   : Nat := 0
  errors    : List LinkError := []
  deriving DecidableEq, Repr

/-- One self-test's outcome as a run or a start reports it (R373): the fail entry's fields. -/
structure BistFailure where
  test     : Nat
  array    : Nat
  inst     : Nat
  address  : Nat
  bit      : Nat
  count    : Nat
  repair   : Nat
  way      : Option Nat := none   -- LAKE: the way that the failure is confined to (R370)
  deriving DecidableEq, Repr

/-- What a self-test run reports (R371 to R373): the tests that have finished, as a mask, and their failures in order of
detection. -/
structure BistReport where
  tests : Nat
  fails : List BistFailure
  deriving DecidableEq, Repr

/-- What a start finds on the board and in the silicon (R330, R339, R340, R344, R370): everything of a start that is
neither in the fuses nor in the flash. Lists name what failed. -/
structure StartEnv where
  coreRails    : Bool             -- VDD_CORE and VDD_LAKE in range
  stackRails   : Bool             -- VDD_STK and VPP_STK in range
  crystalOk    : Bool
  pllOk        : Bool
  sfdpValid    : Bool
  spiMode      : Nat              -- 0 1-1-1, 1 1-1-4, 2 1-4-4 (R352)
  strap        : Nat              -- SB_SEL, SB_ADDR1, SB_ADDR0 as bits 2..0 (R397)
  train        : TrainResult
  badTsvs      : List (Nat × Nat) -- (PC, physical TSV) failing training (R281)
  badCaTsvs    : List (Nat × Nat) -- (channel, physical CA TSV)
  failedClocks : List Nat         -- channels whose forwarded clock fails training (R14)
  bistFails    : List BistFailure
  bistUs       : Nat
  trims        : List Nat         -- trims the calibrations of kinds 1 to 6 give (R314), in the record's order
  govs         : List Nat         -- GOV of L0 to L17 at the start, 0.125 °C, 16-bit two's complement
  verifyMs     : Nat              -- duration of owner-profile verification (R42)
  elapsedMs    : Nat              -- ELAPSED of R349
  margins      : List Nat         -- physical OTP bits that read differently under the two references (R355)
  bistCorrected : List (Nat × Nat × Nat) -- lines the DRAM test decodes CORRECTED (R370): PC, PC-local address, symbol
  logOk        : Bool             -- the boot-log write succeeds (R349)
  coreVolt     : Bool := false    -- VDD_CORE alone is within 0.72 V to 0.78 V (R369), where coreRails does not hold
  perst        : Bool := false    -- PERST# is asserted as AON comes up (R392)
  linkFirst    : Bool := false    -- the link reaches DL_Up before step 7 has ended (R195)
  late         : Option Nat := none -- the step that exceeds twice its maximum (R340, R346)
  deriving DecidableEq, Repr

/-- What an OTP command finds (R362, R364): VDD_AUX at 1.71 V or above, the logical bit whose verification fails, and the
physical bits that read differently under the two references. -/
structure OtpEnv where
  auxOk   : Bool
  failBit : Option Nat
  margins : List Nat
  deriving DecidableEq, Repr

/-- One sampled sensor (R295): its reading in 0.125 °C as a signed 16-bit value, or no conversion within the period. -/
structure Reading where
  sensor : Nat
  value  : Option Nat
  deriving DecidableEq, Repr

/-- The commands, in the order of spec/opcode_table.json. Every operand that names a function is 0 for PF0 and 1 to 63
for a VF; `q` is a ring PAIR number; `p` a PC or a pond, as the row says. -/
inductive Instr where
  /-- Write `bytes` at byte offset `off` of a space of `func` (R2, R5, R6, R9, R60, R68). -/
  | registerWrite (space : Space) (func off : Nat) (bytes : List Byte) (arrives : WriteIn)
  /-- Read at `off` of a space of `func` (R2, R6, R65). -/
  | rcRead (func off : Nat) (read : ReadIn)
  /-- The boundary of the class-B fields of the 32-bit register at PF0 offset `off` passes (R7, R8). -/
  | boundaryApply (off : Nat)
  | forwardedClockFail (channel : Nat)
  | lakeQuadWakeDone (quad : Nat)
  | pondDomainOff (pond : Nat)
  | stackRailLow
  | vddAuxLoss
  | clkXtalFail
  | clkPllUnlock (pll : Pll)
  | pciePhyPllUnlock
  | doorbellSqTail (func ring : Nat) (value : Word)
  | doorbellCqHead (func ring : Nat) (value : Word)
  | descriptorFetch (q : Nat)
  | descriptorFetchFail (q : Nat) (why : DmaFail)
  | descriptorTypeUndefined (q : Nat) (desc : List Byte)
  | copy (q : Nat) (desc : List Byte) (fetched : List Fetched)
  | hash (q : Nat) (desc : List Byte) (fetched : List Fetched)
  | encode (q : Nat) (desc : List Byte) (fetched : List Fetched)
  | decode (q : Nat) (desc : List Byte) (fetched : List Fetched)
  | repair (q : Nat) (desc : List Byte) (fetched : List Fetched)
  | verify (q : Nat) (desc : List Byte) (fetched : List Fetched)
  | plan (q : Nat) (desc : List Byte) (fetched : List Fetched)
  | seal (q : Nat) (desc : List Byte) (fetched : List Fetched)
  | query (q : Nat) (desc : List Byte) (fetched : List Fetched)
  | fence (q : Nat) (desc : List Byte) (fetched : List Fetched)
  | scrub (q : Nat) (desc : List Byte) (fetched : List Fetched)
  | sealStart (q slot : Nat)
  | fencePass (q slot : Nat)
  /-- The job unit serves pond `p`'s deque: the next job in rotation pushes one token (R106). -/
  | taskPush (p : Nat)
  /-- `checkOk`: the CHECK of the token (of every token) taken, as read (R107). -/
  | taskPop (engine : Nat) (checkOk : Bool)
  | stealVisit (pond : Nat) (checkOk : Bool)
  /-- The result of a task of `engine`'s coding slot (`digest` false) or digest slot reaches the job unit. `task`
  and `tokgen` are those of the token it answers; `ext` holds, in reading order, what the task read from
  host memory and from peers. -/
  | taskResult (engine : Nat) (digest : Bool) (task : TaskId) (tokgen : Nat) (ext : List Fetched)
  /-- The durability point of a unit's outputs is reached, or a flushing read of it failed: at the host (`some false`) or
  at a peer (`some true`). -/
  | unitDurable (q slot unit : Nat) (flushFail : Option Bool)
  | receiptEntryAdd (q slot : Nat) (slotWriteOk : Bool)
  | jobComplete (q slot : Nat)
  | coalTimerExpire (q : Nat)
  | cancel (func q : Nat) (value : Word)
  | ringEn (func q : Nat) (en : Bool)
  | reset (func q : Nat)
  | dropInt (func q : Nat)
  | flr (func : Nat)
  | taskDeadline (engine : Nat) (digest : Bool)
  | engineInternalError (engine : Nat) (why : EngineError)
  | fenceRequeue (engine : Nat)
  | engineSelftestStart (engine : Nat)
  | engineSelftestDone (engine : Nat) (pass : Bool)
  | offlineReq (engine : Nat) (value : Bool)
  | selftest (engine : Nat)
  | sealEpochLoWrite (func : Nat) (value : Word)
  | epochCommit (func : Nat) (value : Word)
  | sealEpochLoRead (func : Nat)
  | signatureDone (what : Signed) (slotWriteOk : Bool)
  | logHeadWrite (log : LogOf) (value : Word)
  | logEnEffect (log : LogOf)
  | keyUnloadComplete (func slot : Nat)
  /-- Mailbox commands: `input` is what host software wrote from buffer byte 4 on, IN_LEN its length (R165). -/
  | getNonce (input : List Byte)
  | getWrapKey (input : List Byte)
  | keyLoad (input : List Byte)
  | keyUnload (input : List Byte)
  | lcAdvance (input : List Byte) (env : OtpEnv)
  | ownerChange (input : List Byte) (env : OtpEnv)
  | arbAdvance (input : List Byte) (env : OtpEnv)
  | udsGenerate (input : List Byte) (env : OtpEnv)
  | otpProgram (input : List Byte) (env : OtpEnv)
  | otpLock (input : List Byte) (env : OtpEnv)
  | bistRun (input : List Byte)
  | mboxUnknownCmd (cmd : Nat) (input : List Byte)
  | mboxDone
  | lcsTamper (detector : Detector)
  | stackZeroingDone
  | keyRequestReissue
  | pairedQueueMismatch (queue : PairedQueue)
  /-- Ports A and B reach the Tarn word at `addr` in one cycle; `none` is a read, `some d` a write of `d` (R169). -/
  | tarnCollision (addr : Nat) (a b : Option (BitVec 64))
  | getVersion (t : Transport)
  | getCapabilities (t : Transport) (version : Nat)
  | negotiateAlgorithms (t : Transport) (suiteOffered : Bool)
  | getDigests (t : Transport)
  | getCertificate (t : Transport) (slot offset length : Nat)
  | challenge (t : Transport) (slot : Nat) (nonce : List Byte)
  | getMeasurements (t : Transport) (index : Nat) (signed : Bool) (nonce : List Byte)
  | keyExchange (t : Transport) (slot reqSession : Nat) (exchangeData : List Byte)
  | finish (t : Transport) (session : Nat) (verifyData : List Byte)
  | keyUpdate (t : Transport) (session : Nat)
  | endSession (t : Transport) (session : Nat)
  /-- A chunk of a large request; `whole`: the request that the last chunk completes. -/
  | chunkSend (t : Transport) (whole : Option SpdmReq) (bytes : List Byte)
  | chunkGet (t : Transport) (seq : Nat)
  | vendorDefinedRequest (t : Transport) (session : Option Nat) (ideKm : Bool)
  | keyProg (t : Transport) (session : Option Nat) (stream keySet subStream : Nat) (key : List Byte)
  | kSetGo (t : Transport) (session : Option Nat) (stream keySet : Nat)
  | kSetStop (t : Transport) (session : Option Nat) (stream keySet : Nat)
  | ideKmQuery (t : Transport) (session : Option Nat)
  | perstAssert
  | warmStart (env : StartEnv)
  | linkUp (train : TrainResult)
  | linkDown (env : StartEnv)
  | linkRecovery (train : TrainResult)
  | l0pIdleExpire (accepted : Bool)
  | l0pWidthRequest (width : Nat)
  | l0pFullWidthRequest (accepted : Bool)
  | l1Entry
  | l1Exit
  | d3hotEntry
  | d0Return
  | vfEnable (en : Bool)
  | busMasterEnable (func : Nat) (en : Bool)
  | memorySpaceEnable (func : Nat) (en : Bool)
  | tagEnableEffect
  | tagQuarantineEnd (tag : Nat)
  | completionReceived (tag : Nat) (c : Completion) (tlp : Tlp)
  | cplTimeout (tag : Nat)
  | msixUnmask (func vector : Nat)
  | atomicop (func bar : Nat)
  | doeObject (type : DoeType) (dwords : Nat) (bytes : List Byte)
  | doeAbort
  | marginCommand (lane command : Nat)
  | basinEnWrite (basin : Nat) (en : Bool)
  | basinEnableEffect (basin : Nat)
  | basinFillDone (basin : Nat)
  /-- A bank of PC `p` (0 to 31: bank group × 8 + bank, after the swizzle) is free to take a command (R215). -/
  | controllerArbitrate (p bank : Nat)
  | refreshDue (p bank : Nat)
  | trefwEnd (p : Nat)
  | srIdleExpire (channel : Nat)
  | srEntryDone (channel : Nat)
  | srResidencyEnd (channel : Nat)
  | srExitDone (channel : Nat)
  /-- BAR2 accesses; `poisoned`: the write's data is marked poisoned, which counts where the TLP passes the other checks. -/
  | bar2Read (func off len : Nat) (arrives : TimedTlp)
  | bar2Write (func off : Nat) (bytes : List Byte) (poisoned : Bool) (tlp : Tlp)
  /-- A request of fabric port `port` in share group `group` for PC-local address `a` of PC `p` (R229). -/
  | lakeRequest (port group p a : Nat) (access : LakeAccess)
  | durableWriteAck (p a : Nat)
  | flush
  | lakeFlushDone
  /-- The line at PC-local line address `a` of PC `p` is read for a request of function `func` (255: of none); `err1` and
  `err2` are the 72 symbols that the channel adds to the stored codeword at the first read and at the one re-read
  (R277). -/
  | lineDecode (func p a : Nat) (err1 err2 : List Byte)
  | laneShift (p : Nat)
  | laneShiftDone (p : Nat)
  | vlkShiftReq (value : Word)
  | caParityError (channel lane row : Nat)
  /-- The engine sets BASE and LEN of a window and writes its EN (R236). -/
  | eddyEnable (engine window base len : Nat) (en : Bool)
  | eddyAccess (engine window : Nat) (offset len : Nat) (write : Option (List Byte)) (parityOk : Bool)
  | consume (engine window n : Nat)
  | commit (engine window n : Nat)
  | clear (engine window : Nat)
  | packFlushRequest (queue : Nat)
  | packFlushDone (queue : Nat)
  | evtPop0Read (ring : Nat)
  | weirTick
  | weirRelease (port : Nat)
  | weirWindowBoundary
  | latencySample (group sample : Nat)
  | agePromote (p index : Nat)
  | dredgePiece
  | dredgeLine (err1 err2 : List Byte)
  | dredgeGo
  | stop
  | integDredgeDone
  | dredgeRoundDone
  | rowRetire (value : Word) (flashOk : Bool)
  | rowCopy
  | pcRetire (value : Word) (flashOk : Bool)
  | sensorSample (layer : Nat) (readings : List Reading)
  /-- `counts l` in order: the activity counters of each layer 1 to 17 since the last update (R305). -/
  | modelUpdate (intervalUs : Nat) (counts : List (List Nat))
  | graceExpire
  | resume
  | powerPeriodEnd (deciWatts : Nat)
  | offReq (domain : Nat) (value : Bool)
  | domainWakeDone (domain : Nat)
  | force
  | calRunStart (kind index : Nat)
  | calRunEnd (kind index trim : Nat)
  | faultReport (reports : List Report)
  | containmentEnd (ok : Bool)
  | containmentTimeout
  | quietTimerExpire
  | fActionsEnd
  | fltRelease (value : Word)
  | fltInject (value : Word)
  | coldStart (env : StartEnv)
  | railInRange (stack : Bool)
  | startWatchdog
  | read
  | program
  | erase
  | flashOpDone (ok : Bool)
  | flashOpTimeout
  | regRead (off : Nat)
  | flashRead (addr len : Nat)
  | clearBad
  | bistDone (report : BistReport) (us : Nat)
  | abort
  /-- CLEAR of counter `n` of PF0 (`func` 0) or of a VF's page, with `add` arriving in the same cycle (R379). -/
  | pmcClear (func n add : Nat)
  | clearAll (adds : List (Nat × Nat))
  | freeze (value : Bool)
  | pmcCntLoRead (func n add : Nat)
  | bwWindowEnd
  | devTimerLoRead
  /-- A read of `len` bytes at offset `off` of a plan slot; `latency` is the read's duration in 10 ns units where it covers
  PLAN_RESULT and is answered at once. -/
  | planResultRead (func slot off len latency : Nat)
  | planLatch (func slot latency : Nat)
  | planLaneTimeout (func slot latency : Nat)
  | vddCoreLoss
  | crystalReturn
  | sidebandReset
  | dynamicAddressAssign (addr : Nat)
  | sidebandFrameError
  | planSlotWrite (func slot off : Nat) (bytes : List Byte) (poisoned : Bool)
  | stackRailWaitExpire
  | calRecordWriteEnd (ok : Bool)
  | loopbackEntry
  deriving DecidableEq, Repr

end Sys2Proof
end

