-- ==== Sys2Proof/Decode.lean ====
section
/-! DEFINITION. The BXE-9616 is a block: no row of spec/opcode_table.json gives its command any bits, so no word spells a
command. -/

namespace Sys2Proof

/-- The command that a word spells by the table's bits: the table gives none. -/
def decodeTableWord (_nbits _w : Nat) : Option Instr := none

end Sys2Proof
end

