-- ==== Sys2Proof/Machine/Bytes.lean ====
section
/-! DEFINITION. Bit-field, byte-order and list helpers used by every block. Multi-byte fields are little-endian unless a
structure states otherwise (00_scope.md). -/

namespace Sys2Proof.Machine

/-- Bits [msb:lsb] of `w`. -/
def bits (w msb lsb : Nat) : Nat := (w >>> lsb) % 2 ^ (msb + 1 - lsb)

/-- Bit `n` of `w`. -/
def bitAt (w n : Nat) : Bool := (w >>> n) % 2 == 1

/-- 1 or 0. -/
def b2n (b : Bool) : Nat := if b then 1 else 0

/-- The little-endian value of a byte string. -/
def leNat : List Byte → Nat
  | [] => 0
  | b :: bs => b.toNat + 256 * leNat bs

/-- The `n` low bytes of `v`, little-endian. -/
def leBytes : Nat → Nat → List Byte
  | 0, _ => []
  | n + 1, v => BitVec.ofNat 8 v :: leBytes n (v / 256)

/-- The `n` low bytes of `v`, big-endian (as the hash standards write lengths). -/
def beBytes (n v : Nat) : List Byte := (leBytes n v).reverse

/-- The big-endian value of a byte string. -/
def beNat (bs : List Byte) : Nat := leNat bs.reverse

/-- `n` bytes of 0x00. -/
def zeros (n : Nat) : List Byte := List.replicate n 0

/-- `bs` cut or padded with 0x00 to exactly `n` bytes. -/
def fitBytes (n : Nat) (bs : List Byte) : List Byte := bs.take n ++ zeros (n - bs.length)

/-- `n` bytes of `bs` from byte `o`, absent bytes read 0x00. -/
def sliceBytes (bs : List Byte) (o n : Nat) : List Byte := fitBytes n (bs.drop o)

/-- The little-endian field of `n` bytes at byte `o`. -/
def fieldAt (bs : List Byte) (o n : Nat) : Nat := leNat (sliceBytes bs o n)

/-- ceil(a / b). -/
def ceilDiv (a b : Nat) : Nat := (a + b - 1) / b

/-- `v` raised to the next multiple of `b`. -/
def roundUp (v b : Nat) : Nat := ceilDiv v b * b

/-- Numbers `0 … n - 1` with `p`. -/
def rangeWith (n : Nat) (p : Nat → Bool) : List Nat := (List.range n).filter p

/-- A bit mask from a predicate over `0 … n - 1`. -/
def maskOf (n : Nat) (p : Nat → Bool) : Nat :=
  (List.range n).foldl (fun m i => if p i then m + 2 ^ i else m) 0

/-- How many of the low `n` bits of `w` are set. -/
def popCount (n w : Nat) : Nat := ((List.range n).filter (bitAt w)).length

/-- The lowest set bit of the low `n` bits. -/
def lowestSet (n w : Nat) : Option Nat := (List.range n).find? (bitAt w)

/-- A 16-bit two's complement value as an integer. -/
def sint16 (v : Nat) : Int := if v % 65536 < 32768 then (v % 65536 : Int) else (v % 65536 : Int) - 65536

/-- An integer as a 16-bit two's complement value. -/
def ofSint16 (i : Int) : Nat := (i % 65536).toNat

/-- Saturating add: the sum, held at `max`. -/
def satAdd (max a b : Nat) : Nat := min max (a + b)

/-- Cut a list in chunks of `n` (the last may be shorter); `fuel` bounds the number of chunks. -/
def chunksGo (n : Nat) : Nat → List Byte → List (List Byte)
  | 0, _ => []
  | _, [] => []
  | fuel + 1, bs => bs.take n :: chunksGo n fuel (bs.drop n)

/-- `bs` in chunks of `n` bytes. -/
def chunks (n : Nat) (bs : List Byte) : List (List Byte) := chunksGo n bs.length bs

/-- Byte-wise exclusive OR; the shorter ends the result. -/
def xorBytes (a b : List Byte) : List Byte := List.zipWith (· ^^^ ·) a b

/-- The sparse map's lookup: keys strictly rise. -/
def sparseGet (m : List (Nat × Nat)) (k : Nat) : Option Nat :=
  match m with
  | [] => none
  | (k', v) :: rest => if k' = k then some v else sparseGet rest k

/-- The sparse map with `k` bound to `v`, keys still rising. -/
def sparsePut (m : List (Nat × Nat)) (k v : Nat) : List (Nat × Nat) :=
  match m with
  | [] => [(k, v)]
  | (k', v') :: rest =>
    if k' = k then (k, v) :: rest
    else if k < k' then (k, v) :: (k', v') :: rest
    else (k', v') :: sparsePut rest k v

/-- The sparse map without `k`. -/
def sparseDel (m : List (Nat × Nat)) (k : Nat) : List (Nat × Nat) := m.filter (fun x => x.1 != k)

/-- A list keyed by a number: the first entry with key `k`. -/
def assoc {α : Type} (m : List (Nat × α)) (k : Nat) : Option α := (m.find? (·.1 == k)).map (·.2)

/-- A list keyed by a number, with `k` bound to `v` (its entry replaced in place, else added at the end). -/
def assocPut {α : Type} (m : List (Nat × α)) (k : Nat) (v : α) : List (Nat × α) :=
  if m.any (·.1 == k) then m.map (fun e => if e.1 == k then (k, v) else e) else m ++ [(k, v)]

/-- A list keyed by a number, without `k`. -/
def assocDel {α : Type} (m : List (Nat × α)) (k : Nat) : List (Nat × α) := m.filter (·.1 != k)

end Sys2Proof.Machine
end

