-- ==== Sys2Proof/Machine/BootParts.lean ====
section
/-! DEFINITION. The parts of the state of trust, fuses, self-test, heat and power, starts and the sideband (07_trust.md,
13_thermal_power.md, 15_start.md, 16_fuses_selftest.md, 18_electrical.md) that are no register fields. -/

namespace Sys2Proof.Machine

/-! ### Mailbox, SPDM, IDE (R154 to R166) -/

/-- OTP programming in progress (R362, R365): the logical bits still to be programmed, in order, the one whose
verification will fail, and what the command writes into the shadows when it ends (R363). -/
structure OtpRun where
  todo   : List Nat
  failAt : Option Nat
  deriving DecidableEq, Repr

/-- A mailbox command that runs (R165): the result and the output it will end with. -/
structure MboxRun where
  cmd    : Nat
  result : Nat
  output : List Byte
  otp    : Option OtpRun := none
  /-- It ended while no start had run since PERST# or a loss of VDD_CORE: its result is written after the start (R365). -/
  late   : Bool := false
  deriving DecidableEq, Repr

/-- A secure session (R154). -/
structure SpdmSession where
  id          : Nat
  transport   : Transport
  established : Bool
  /-- The exchange's transcript secret: the shared point's x coordinate. -/
  secret      : List Byte
  updates     : Nat
  deriving DecidableEq, Repr

/-- What a transport has negotiated (R156), and the chunked request and response in progress. -/
structure SpdmConn where
  version  : Option Nat := none
  caps     : Bool := false
  algs     : Bool := false
  chunkIn  : List Byte := []
  large    : List Byte := []
  deriving DecidableEq, Repr

/-- The private keys in the Tarn (R152, R168): the CDI of the running firmware, and the wrap key's seed. -/
structure HeldKeys where
  cdi  : List Byte
  wrap : List Byte
  deriving DecidableEq, Repr

/-- An SPDM response that waits for its signature (R156): its transport, response code and content. -/
structure SignReq where
  transport : Transport
  code      : Nat
  content   : List Byte
  deriving DecidableEq, Repr

/-- A selective IDE stream (R157): key sets with their sub-stream keys, the set in use, and Secure or Insecure. -/
structure IdeStream where
  keys   : List (Nat × List Byte) := []   -- keySet · 16 + subStream
  active : Option Nat := none
  secure : Bool := false
  deriving DecidableEq, Repr

structure Trust where
  mbox     : Option MboxRun := none
  /-- The unconsumed nonce (R166). -/
  nonce    : Option (List Byte) := none
  conns    : List (Nat × SpdmConn) := []   -- 0 DOE, 1 MCTP
  sessions : List SpdmSession := []
  /-- Session numbers given so far. -/
  nextId   : Nat := 1
  /-- The SPDM response that waits for its signature, the requests that arrived after it, oldest first, and whether the last
  signature made was SPDM's while a batch waited (R156). -/
  signer   : List SignReq := []
  requests : List (Transport × SpdmReq) := []
  streams  : List (Nat × IdeStream) := []
  /-- The UDS as sensed; none where key derivation refuses every request (R151, R359). -/
  uds      : Option (List Byte) := none
  /-- The private keys that the Tarn holds (R152, R168); none before their derivation and after a clear. -/
  held     : Option HeldKeys := none
  /-- FW_MEAS and SVN that the keys are derived for (R152), and measurement block 4 (R155). -/
  fwMeas   : List Byte := []
  fwSvn    : Nat := 0
  cfgMeas  : List Byte := []
  /-- The DeviceID certificate read from flash (R153). -/
  cert     : List Byte := []
  /-- Words of the Tarn at its ports, by address div 8; an unlisted word is 0 (R168, R169). -/
  tarn     : List (Nat × Nat) := []
  /-- Key requests lost in a queue reset wait to be issued again (R170). -/
  reissue  : Bool := false
  /-- A wipe, an owner change, a life-cycle change or recovery mode since the last start (R343). -/
  wiped    : Bool := false
  deriving DecidableEq, Repr

/-! ### Fuses and self-test (R353 to R373) -/

structure Fuses where
  /-- Blown physical bits as bytes: bank A at 0, bank B at 4,096 (R353); an unlisted byte is 0 (log entry 7). -/
  cells    : List Host.Cell := []
  /-- Repair entries in force: the entry words, one for each spare (R366). -/
  repairs  : List Nat := []
  deriving DecidableEq, Repr

/-- A BIST run (R371, R372): its tests, form and instance mask. -/
structure BistRun where
  tests : Nat
  full  : Bool
  inst  : Nat
  /-- The tests that have finished, and the fail entries they gave (R372, R373). -/
  finished : Nat := 0
  fails : Nat := 0
  deriving DecidableEq, Repr

/-! ### Heat and power (R295 to R309) -/

structure Thermal where
  /-- Consecutive updates by layer: MODEL above MEAS + 4 °C, and at or below MEAS + 2 °C (R306). -/
  hot      : List (Nat × Nat) := []
  cool     : List (Nat × Nat) := []
  /-- Consecutive periods below 95 % of LIMIT while capped (R307). -/
  below    : Nat := 0
  /-- WARN, THROTTLE, SHUTDOWN and HYST still in force for layers not sampled since a threshold write was accepted (R298). -/
  levels   : List (Nat × (Nat × Nat × Nat × Nat)) := []
  /-- An image value was rejected: TH_REJECT is owed to READY (R298). -/
  reject   : Bool := false
  deriving DecidableEq, Repr

/-! ### Starts (R340 to R350) -/

/-- What a start waits for. -/
inductive StartWait where
  /-- VDD_CORE and VDD_LAKE (step 4, R340). -/
  | coreRails
  /-- The operating limits of BIST (step 4, R369). -/
  | bistLimits
  /-- The end of step 7, the link being up already (R195). -/
  | image
  /-- A link (step 6 and W3, R340, R344), every other step done. -/
  | link
  /-- VDD_STK and VPP_STK (step 8, R391). -/
  | stackRails
  deriving DecidableEq, Repr

/-- A start in progress that waits: what for, what it found, whether it is warm, and what the steps so far decided. -/
structure StartRun where
  wait     : StartWait
  env      : StartEnv
  warm     : Bool
  /-- Warm: was the image loaded again, and is the stack kept (R343, R344)? -/
  reload   : Bool := true
  keep     : Bool := false
  deriving DecidableEq, Repr

/-- A flash-port operation in progress (R350). -/
structure FlashOp where
  op   : Nat
  addr : Nat
  data : List Byte
  /-- It waits behind a write of the calibration record that was in progress at its GO (R350). -/
  behind : Bool := false
  deriving DecidableEq, Repr

/-- The sideband bus (R397). -/
structure Sideband where
  i3c     : Bool := false
  address : Nat := 0x64
  dynamic : Option Nat := none
  /-- Does the device acknowledge its address: has step 5 ended? -/
  up      : Bool := false
  deriving DecidableEq, Repr

structure Boot where
  /-- VDD_AUX in range, the crystal running (R23), PERST# asserted. -/
  aux      : Bool := false
  crystal  : Bool := true
  perst    : Bool := true
  /-- VDD_CORE within 0.72 V to 0.78 V (R369); it and VDD_LAKE in range (R389); the stack rails in range (R20); the stack PLL
  locked (R23); the PLLs have locked at the latest start (R340). -/
  coreVolt : Bool := false
  coreOk   : Bool := false
  stackOk  : Bool := false
  stackPll : Bool := false
  plls     : Bool := false
  /-- PERST# has been asserted since before the cold start (R392): its release ends no warm start's assertion. -/
  ramp     : Bool := false
  /-- Mode and clock that SFDP table and header allow once the PLLs have locked (R330). -/
  spi      : Nat × Nat := (0, 16)
  run      : Option StartRun := none
  /-- STACK_RETAIN as read at PERST# assertion (R342). -/
  retain   : Bool := false
  /-- The next start is a cold one (R325). -/
  coldNext : Bool := false
  /-- A PERST# ended CONTAIN_F or LATCHED_F: FAULT_N stays asserted until READY (R327). -/
  faultHeld : Bool := false
  /-- The slot in force, once an image has been loaded. -/
  slot     : Option Nat := none
  /-- Slots whose bad mark is held (R345): BOOT_BAD_A and BOOT_BAD_B hold its IMG_SEQ, 0 for an unreadable header. -/
  marked   : List Nat := []
  flashOp  : Option FlashOp := none
  sideband : Sideband := {}
  /-- The next start follows a loss of the link (R188): PCX_LINK_DOWN is owed. -/
  linkDown : Bool := false
  deriving DecidableEq, Repr

end Sys2Proof.Machine
end

