-- ==== Sys2Proof/Config.lean ====
section
/-! DEFINITION. What an implementation fixes and the spec does not give, and the free values: constants without a body.
Nothing in Lean can evaluate them. -/

namespace Sys2Proof

/-- The free value of draw number `n` and part `i`: what the true random number generator gives (R132, R140, R142, R165,
R361), and the undefined data of an aborted flash program (R350). DESIGN CHOICE, log entry 1: the step reads the counter
`State.freeCtr` and advances it. -/
opaque Config.freeValue : Nat → Nat → BitVec 8

/-- The byte that a read of unreachable stack memory delivers, by its place in the arrays: a FAILED or RETIRED PC's data is not
reachable (R14) and its line is poisoned. Log entry 1. -/
opaque Config.lostByte : Nat → BitVec 8

/-- DEV_ID.STEPPING (R386: "fixed", not given; log entry 3). -/
opaque Config.stepping : BitVec 8

/-- BOOT_SB_IANA (R352: "fixed", not given; log entry 3). -/
opaque Config.sbIana : BitVec 32

/-- Certificate chain bytes of SPDM slots 0 and 1, from the DeviceID chain's hash and the alias key (R153). Log entry 10. -/
opaque Config.certificate : Nat → List (BitVec 8) → List (BitVec 8)

/-- The bytes of an SPDM message body that the base specification (DSP0274) lays out and the spec does not, from its code
and its content (R154). Log entry 10. -/
opaque Config.spdmBody : Nat → List (BitVec 8) → List (BitVec 8)

/-- Mask ROM's public-key hashes, 48 bytes each: the Milkeir manufacturing key and the Milkeir firmware key (R161). Log
entry 10. -/
opaque Config.mfgKeyHash : List (BitVec 8)
opaque Config.fwKeyHash : List (BitVec 8)

/-- SHA-384 of mask ROM, measurement block 1 (R155). Log entry 10. -/
opaque Config.romDigest : List (BitVec 8)

/-- Vendor ID and Device ID from mask ROM, 4 bytes (R348). Log entry 3. -/
opaque Config.romIdentity : List (BitVec 8)

/-- Energy of one event of kind `n` in layer `l`, as the thermal model weighs it (R305: "fixed for the BXE-9616", not
given). Log entry 13. -/
opaque Config.eventEnergy : Nat → Nat → Int

/-- The coefficient k_theta that a trim code of kind 7 stands for (R305, R367: its scale is not given). Log entry 13. -/
opaque Config.kTheta : Nat → Int

end Sys2Proof
end

