-- ==== Sys2Proof/Machine/Crypto.lean ====
section
/-! DEFINITION. The standard functions that the spec names and does not restate: CRC-32C (R123) and CRC-32 (R313), SHA-256
and SHA-384 (FIPS 180-4), HMAC (FIPS 198-1), HKDF (RFC 5869), AES-256 and GCM (FIPS 197, NIST SP 800-38D), the Merkle Tree
Hash of RFC 6962 with SHA-384 (R141). PRESUMED: their definitions come from the named standards (log entry 12). -/

namespace Sys2Proof.Machine

/-! ### CRCs: reflected, initial value and final exclusive OR 0xFFFF_FFFF -/

/-- `n` shifts of the reflected CRC register with polynomial `poly`. -/
def crcShift (poly : Nat) : Nat → Nat → Nat
  | 0, c => c
  | n + 1, c => crcShift poly n (if c % 2 == 1 then (c >>> 1) ^^^ poly else c >>> 1)

def crcOf (poly : Nat) (bs : List Byte) : Nat :=
  bs.foldl (fun c b => crcShift poly 8 (c ^^^ b.toNat)) 0xFFFFFFFF ^^^ 0xFFFFFFFF

/-- CRC-32C, polynomial 0x1EDC_6F41 reflected (R123). -/
def crc32c (bs : List Byte) : Nat := crcOf 0x82F63B78 bs

/-- CRC-32, polynomial 0x04C1_1DB7 reflected (R313). -/
def crc32 (bs : List Byte) : Nat := crcOf 0xEDB88320 bs

/-! ### SHA-2 -/

/-- The largest `r` below 2^n with r^e ≤ v, above the bits already found. -/
def irootGo (e v : Nat) : Nat → Nat → Nat
  | 0, r => r
  | n + 1, r => irootGo e v n (if (r + 2 ^ n) ^ e ≤ v then r + 2 ^ n else r)

/-- The first 64 fractional bits of the e-th root of `p`. -/
def rootFrac (e p : Nat) : Nat := irootGo e (p * 2 ^ (64 * e)) 72 0 % 2 ^ 64

/-- The first 80 primes. -/
def sha2Primes : List Nat :=
  [2, 3, 5, 7, 11, 13, 17, 19, 23, 29, 31, 37, 41, 43, 47, 53, 59, 61, 67, 71, 73, 79, 83, 89, 97, 101, 103, 107, 109,
   113, 127, 131, 137, 139, 149, 151, 157, 163, 167, 173, 179, 181, 191, 193, 197, 199, 211, 223, 227, 229, 233, 239,
   241, 251, 257, 263, 269, 271, 277, 281, 283, 293, 307, 311, 313, 317, 331, 337, 347, 349, 353, 359, 367, 373, 379,
   383, 389, 397, 401, 409]

/-- SHA-512's round constants (SHA-384's too): fractions of cube roots. -/
def sha512K : List Nat := sha2Primes.map (rootFrac 3)

/-- SHA-256's round constants. -/
def sha256K : List Nat := (sha512K.take 64).map (· >>> 32)

/-- SHA-256's initial value: fractions of square roots of the first eight primes. -/
def sha256Iv : List Nat := (sha2Primes.take 8).map (fun p => rootFrac 2 p >>> 32)

/-- SHA-384's initial value: fractions of square roots of the ninth to sixteenth primes. -/
def sha384Iv : List Nat := ((sha2Primes.drop 8).take 8).map (rootFrac 2)

/-- The two SHA-2 word sizes differ in these numbers. -/
structure Sha2 where
  bits   : Nat                     -- word width
  k      : List Nat
  bigA   : Nat × Nat × Nat         -- rotations of Σ0
  bigE   : Nat × Nat × Nat         -- rotations of Σ1
  small0 : Nat × Nat × Nat         -- σ0: two rotations and a shift
  small1 : Nat × Nat × Nat
  deriving DecidableEq, Repr

def sha256Params : Sha2 :=
  { bits := 32, k := sha256K, bigA := (2, 13, 22), bigE := (6, 11, 25), small0 := (7, 18, 3), small1 := (17, 19, 10) }

def sha512Params : Sha2 :=
  { bits := 64, k := sha512K, bigA := (28, 34, 39), bigE := (14, 18, 41), small0 := (1, 8, 7), small1 := (19, 61, 6) }

/-- Rotation right in `w` bits. -/
def rotrW (w x n : Nat) : Nat := (x >>> n) ||| ((x <<< (w - n)) % 2 ^ w)

def Sha2.rot3 (p : Sha2) (r : Nat × Nat × Nat) (x : Nat) : Nat :=
  rotrW p.bits x r.1 ^^^ rotrW p.bits x r.2.1 ^^^ rotrW p.bits x r.2.2

def Sha2.sig (p : Sha2) (r : Nat × Nat × Nat) (x : Nat) : Nat :=
  rotrW p.bits x r.1 ^^^ rotrW p.bits x r.2.1 ^^^ (x >>> r.2.2)

/-- One round on the eight working words, with the schedule's next 16 words as a window. -/
def Sha2.round (p : Sha2) (st : List Nat × List Nat) (k : Nat) : List Nat × List Nat :=
  match st with
  | ([a, b, c, d, e, f, g, h], w) =>
    let m := 2 ^ p.bits
    let w0 := w.getD 0 0
    let ch := (e &&& f) ^^^ ((m - 1 - e) &&& g)
    let maj := (a &&& b) ^^^ (a &&& c) ^^^ (b &&& c)
    let t1 := h + p.rot3 p.bigE e + ch + k + w0
    let t2 := p.rot3 p.bigA a + maj
    let w16 := (p.sig p.small1 (w.getD 14 0) + w.getD 9 0 + p.sig p.small0 (w.getD 1 0) + w0) % m
    ([(t1 + t2) % m, a, b, c, (d + t1) % m, e, f, g], w.drop 1 ++ [w16])
  | other => other

/-- One block's compression. -/
def Sha2.block (p : Sha2) (h : List Nat) (blk : List Byte) : List Nat :=
  let w := (chunks (p.bits / 8) blk).map beNat
  let out := (p.k.foldl p.round (h, w)).1
  List.zipWith (fun a b => (a + b) % 2 ^ p.bits) h out

/-- The padded message: 0x80, zeros, the length in bits in two words. -/
def Sha2.pad (p : Sha2) (bs : List Byte) : List Byte :=
  let blk := p.bits * 2
  let lenBytes := p.bits / 4
  let z := roundUp (bs.length + 1 + lenBytes) blk - (bs.length + 1 + lenBytes)
  bs ++ 0x80#8 :: zeros z ++ beBytes lenBytes (8 * bs.length)

def Sha2.hash (p : Sha2) (iv : List Nat) (bs : List Byte) : List Byte :=
  ((chunks (p.bits * 2) (p.pad bs)).foldl p.block iv).flatMap (beBytes (p.bits / 8))

/-- SHA-256: 32 bytes. -/
def sha256 (bs : List Byte) : List Byte := sha256Params.hash sha256Iv bs

/-- SHA-384: 48 bytes. -/
def sha384 (bs : List Byte) : List Byte := (sha512Params.hash sha384Iv bs).take 48

/-! ### HMAC and HKDF -/

/-- HMAC with hash `h` of block size `blk`. -/
def hmac (h : List Byte → List Byte) (blk : Nat) (key msg : List Byte) : List Byte :=
  let k := fitBytes blk (if blk < key.length then h key else key)
  h (k.map (· ^^^ 0x5C#8) ++ h (k.map (· ^^^ 0x36#8) ++ msg))

def hmacSha256 (key msg : List Byte) : List Byte := hmac sha256 64 key msg

def hmacSha384 (key msg : List Byte) : List Byte := hmac sha384 128 key msg

/-- HKDF's expansion, block by block. -/
def hkdfExpandGo (prk info : List Byte) : Nat → Nat → List Byte → List Byte
  | 0, _, _ => []
  | n + 1, i, prev =>
    let t := hmacSha384 prk (prev ++ info ++ [BitVec.ofNat 8 i])
    t ++ hkdfExpandGo prk info n (i + 1) t

/-- HKDF-SHA-384: extract with `salt`, expand to `len` bytes. -/
def hkdfSha384 (ikm salt info : List Byte) (len : Nat) : List Byte :=
  (hkdfExpandGo (hmacSha384 salt ikm) info (ceilDiv len 48) 1 []).take len

/-! ### AES-256 and GCM -/

/-- Multiplication in AES's field (polynomial 0x11B). -/
def aesMulGo (a b : Nat) : Nat → Nat
  | 0 => 0
  | n + 1 => (if bitAt b 0 then a else 0) ^^^ aesMulGo (if a < 128 then 2 * a else (2 * a) ^^^ 0x11B) (b >>> 1) n

def aesMul (a b : Nat) : Nat := aesMulGo a b 8

def aesPow (a : Nat) : Nat → Nat
  | 0 => 1
  | n + 1 => aesMul a (aesPow a n)

/-- The S-box: the inverse (a^254), then the affine map. -/
def aesSbox (a : Nat) : Nat :=
  let i := aesPow a 254
  let rotl (n : Nat) := (i <<< n ||| i >>> (8 - n)) % 256
  i ^^^ rotl 1 ^^^ rotl 2 ^^^ rotl 3 ^^^ rotl 4 ^^^ 0x63

def aesSboxTable : List Nat := (List.range 256).map aesSbox

def subByte (a : Nat) : Nat := aesSboxTable.getD a 0

/-- The key schedule of AES-256: words of four bytes; `w` holds the last eight, oldest first. -/
def aesExpandGo : Nat → Nat → List (List Nat) → List (List Nat)
  | 0, _, _ => []
  | n + 1, i, w =>
    let last := w.getD 7 []
    let t := if i % 8 == 0 then
        match last with
        | [a, b, c, d] => [subByte b ^^^ aesPow 2 (i / 8 - 1), subByte c, subByte d, subByte a]
        | other => other
      else if i % 8 == 4 then last.map subByte else last
    let new := List.zipWith (· ^^^ ·) (w.getD 0 []) t
    new :: aesExpandGo n (i + 1) (w.drop 1 ++ [new])

/-- The 60 round-key words. -/
def aesExpand (key : List Byte) : List (List Nat) :=
  let w := (chunks 4 (fitBytes 32 key)).map (·.map BitVec.toNat)
  w ++ aesExpandGo 52 8 w

/-- ShiftRows on 16 bytes in column order. -/
def aesShiftRows (s : List Nat) : List Nat :=
  [0, 5, 10, 15, 4, 9, 14, 3, 8, 13, 2, 7, 12, 1, 6, 11].map (fun i => s.getD i 0)

def aesMixColumn (c : List Nat) : List Nat :=
  match c with
  | [a, b, c, d] =>
    [aesMul a 2 ^^^ aesMul b 3 ^^^ c ^^^ d, a ^^^ aesMul b 2 ^^^ aesMul c 3 ^^^ d,
     a ^^^ b ^^^ aesMul c 2 ^^^ aesMul d 3, aesMul a 3 ^^^ b ^^^ c ^^^ aesMul d 2]
  | other => other

def aesMix (s : List Nat) : List Nat :=
  aesMixColumn (s.take 4) ++ aesMixColumn ((s.drop 4).take 4) ++ aesMixColumn ((s.drop 8).take 4) ++
    aesMixColumn (s.drop 12)

/-- One 16-byte block under an expanded key. -/
def aesEncrypt (rk : List (List Nat)) (blk : List Byte) : List Byte :=
  let roundKey (r : Nat) := ((rk.drop (4 * r)).take 4).flatten
  let addKey (s : List Nat) (r : Nat) := List.zipWith (· ^^^ ·) s (roundKey r)
  let s0 := addKey ((fitBytes 16 blk).map BitVec.toNat) 0
  let s13 := (List.range 13).foldl (fun s r => addKey (aesMix (aesShiftRows (s.map subByte))) (r + 1)) s0
  (addKey (aesShiftRows (s13.map subByte)) 14).map (BitVec.ofNat 8)

/-- Multiplication in GCM's field: `x` and `y` are 128-bit values, the first bit the most significant. -/
def gcmMulGo (x : Nat) : Nat → Nat → Nat → Nat
  | 0, z, _ => z
  | n + 1, z, v =>
    gcmMulGo x n (if bitAt x n then z ^^^ v else z)
      (if v % 2 == 1 then (v >>> 1) ^^^ (0xE1 <<< 120) else v >>> 1)

def gcmMul (x y : Nat) : Nat := gcmMulGo x 128 0 y

def gcmHash (h : Nat) (blocks : List (List Byte)) : Nat :=
  blocks.foldl (fun y b => gcmMul (y ^^^ beNat (fitBytes 16 b)) h) 0

/-- The keystream's blocks from counter `c` on, with the 96-bit `iv`. -/
def gcmStream (rk : List (List Nat)) (iv : List Byte) : Nat → Nat → List Byte
  | 0, _ => []
  | n + 1, c => aesEncrypt rk (fitBytes 12 iv ++ beBytes 4 c) ++ gcmStream rk iv n (c + 1)

/-- The 128-bit tag over additional data `aad` and ciphertext `ct`. -/
def gcmTag (rk : List (List Nat)) (iv aad ct : List Byte) : List Byte :=
  let h := beNat (aesEncrypt rk (zeros 16))
  let len := beBytes 8 (8 * aad.length) ++ beBytes 8 (8 * ct.length)
  let s := gcmHash h (chunks 16 aad ++ chunks 16 ct ++ [len])
  xorBytes (beBytes 16 s) (gcmStream rk iv 1 1)

/-- AES-256-GCM: the ciphertext of `pt` (also the plaintext of a ciphertext). -/
def gcmCrypt (key iv pt : List Byte) : List Byte :=
  let rk := aesExpand key
  xorBytes pt (gcmStream rk iv (ceilDiv pt.length 16) 2)

/-- AES-256-GCM's tag over additional data and ciphertext. -/
def gcmAuth (key iv aad ct : List Byte) : List Byte := gcmTag (aesExpand key) iv aad ct

/-! ### The Merkle Tree Hash (R141) -/

/-- A frontier: the roots of the perfect subtrees of the entries so far, largest first, with their sizes. -/
abbrev Frontier := List (Nat × List Byte)

/-- Merge equal-sized subtrees at the end of the frontier, newest first in `rev`. -/
def frontierMerge : List (Nat × List Byte) → Nat × List Byte → List (Nat × List Byte)
  | [], t => [t]
  | (n, h) :: rest, (m, t) =>
    if n == m then frontierMerge rest (n + m, sha384 (0x01#8 :: h ++ t)) else (m, t) :: (n, h) :: rest

/-- One more entry: its leaf hash joins the frontier (kept smallest first). -/
def frontierAdd (f : Frontier) (entry : List Byte) : Frontier := frontierMerge f (1, sha384 (0x00#8 :: entry))

/-- The root: the smallest subtrees are folded into the larger ones on their left; the empty batch hashes nothing. -/
def frontierRoot : Frontier → List Byte
  | [] => sha384 []
  | (_, h) :: rest => rest.foldl (fun acc e => sha384 (0x01#8 :: e.2 ++ acc)) h

/-! ### Key seeds (R152) -/

/-- The bytes of an ASCII label, without a terminator. -/
def asciiBytes (t : String) : List Byte := t.toList.map (fun c => BitVec.ofNat 8 c.toNat)

/-- Seeds of R152 from the UDS. -/
def deviceSeed (uds : List Byte) : List Byte := hmacSha384 uds (asciiBytes "BXDEVID1")

def cdiOf (uds fwMeas : List Byte) (svn : Nat) : List Byte := hmacSha384 uds (fwMeas ++ leBytes 1 svn)

def attestSeed (cdi : List Byte) : List Byte := hmacSha384 cdi (asciiBytes "BXATTEST")

def receiptSeed (cdi : List Byte) : List Byte := hmacSha384 cdi (asciiBytes "BXRECPT1")

def wrapSeed (uds ownerHash : List Byte) : List Byte := hmacSha384 uds (asciiBytes "BXWRAP01" ++ ownerHash)

end Sys2Proof.Machine
end

