-- ==== Sys2Proof/Machine/Curve.lean ====
section
/-! DEFINITION. ECDSA and ECDH on P-384 (FIPS 186-5, NIST SP 800-56A), as 06_sealing.md and 07_trust.md name them. PRESUMED:
the curve's numbers and the formulas come from the named standards (log entry 12). -/

namespace Sys2Proof.Machine

/-! ### Numbers of the curve -/

/-- The field's prime. -/
def p384 : Nat := 2 ^ 384 - 2 ^ 128 - 2 ^ 96 + 2 ^ 32 - 1

/-- The order of the base point. -/
def n384 : Nat :=
  0xFFFFFFFFFFFFFFFFFFFFFFFFFFFFFFFFFFFFFFFFFFFFFFFFC7634D81F4372DDF581A0DB248B0A77AECEC196ACCC52973

/-- The constant of y² = x³ - 3x + b. -/
def b384 : Nat :=
  0xB3312FA7E23EE7E4988E056BE3F82D19181D9C6EFE8141120314088F5013875AC656398D8A2ED19D2A85C8EDD3EC2AEF

/-! ### Arithmetic -/

/-- base ^ e modulo m, over the low `k` bits of e. -/
def powMod (m : Nat) : Nat → Nat → Nat → Nat
  | 0, _, _ => 1
  | k + 1, base, e =>
    let rest := powMod m k (base * base % m) (e / 2)
    if e % 2 = 1 then base * rest % m else rest

/-- The inverse modulo a prime. -/
def invMod (m a : Nat) : Nat := powMod m 384 a (m - 2)

/-- A difference modulo the field's prime. -/
def sub384 (a b : Nat) : Nat := (a + (p384 - b % p384)) % p384

/-- A point in Jacobian coordinates: (x / z², y / z³), and the point at infinity where z is 0. -/
structure Point where
  x : Nat
  y : Nat
  z : Nat
  deriving DecidableEq, Repr

def Point.infinity : Point := { x := 1, y := 1, z := 0 }

def base384 : Point := {
  x := 0xAA87CA22BE8B05378EB1C71EF320AD746E1D3B628BA79B9859F741E082542A385502F25DBF55296C3A545E3872760AB7
  y := 0x3617DE4A96262C6F5D9E98BF9292DC29F8F41DBD289A147CE9DA3113B5F0B8C00A60B1CE1D7E819D7A431D7C90EA0E5F
  z := 1 }

def Point.double (a : Point) : Point :=
  let yy := a.y * a.y % p384
  let zz := a.z * a.z % p384
  let t := 4 * a.x * yy % p384
  let m := 3 * sub384 a.x zz * (a.x + zz) % p384
  let x := sub384 (m * m) (2 * t)
  { x, y := sub384 (m * sub384 t x) (8 * yy * yy), z := 2 * a.y * a.z % p384 }

def Point.add (a b : Point) : Point :=
  if a.z = 0 then b
  else if b.z = 0 then a
  else
    let za := a.z * a.z % p384
    let zb := b.z * b.z % p384
    let u := a.x * zb % p384
    let h := sub384 (b.x * za) u
    let v := a.y * zb * b.z % p384
    let r := sub384 (b.y * za * a.z) v
    if h = 0 then (if r = 0 then a.double else .infinity)
    else
      let hh := h * h % p384
      let w := u * hh % p384
      let x := sub384 (r * r) (h * hh + 2 * w)
      { x, y := sub384 (r * sub384 w x) (v * h * hh), z := h * a.z * b.z % p384 }

/-- k · a, over the low `n` bits of k. -/
def Point.times : Nat → Nat → Point → Point
  | 0, _, _ => .infinity
  | n + 1, k, a =>
    let rest := Point.times n (k / 2) a.double
    if k % 2 = 1 then a.add rest else rest

def Point.mul (k : Nat) (a : Point) : Point := a.times 384 k

/-- The affine coordinates; none of the point at infinity. -/
def Point.affine (a : Point) : Option (Nat × Nat) :=
  if a.z = 0 then none
  else
    let i := invMod p384 a.z
    let ii := i * i % p384
    some (a.x * ii % p384, a.y * ii * i % p384)

def Point.affineX (a : Point) : Nat := (a.affine.map (·.1)).getD 0

/-- x³ - 3x + b. -/
def curveRhs (x : Nat) : Nat := (sub384 (x * x * x) (3 * x) + b384) % p384

/-! ### Encodings -/

/-- The 97-byte uncompressed SEC1 encoding (R160). -/
def Point.bytes (a : Point) : List Byte :=
  match a.affine with
  | some (x, y) => 0x04 :: (beBytes 48 x ++ beBytes 48 y)
  | none => zeros 97

/-- The point of an encoding; none where it is no point of the curve. -/
def pointOf (bs : List Byte) : Option Point :=
  let x := beNat (sliceBytes bs 1 48)
  let y := beNat (sliceBytes bs 49 48)
  if bs.length = 97 ∧ bs.head? = some 0x04 ∧ x < p384 ∧ y < p384 ∧ y * y % p384 = curveRhs x then some { x, y, z := 1 }
  else none

/-! ### Keys and signatures -/

/-- The private scalar of a 48-byte seed, which stands in for the random bits of FIPS 186-5 Appendix A.2.1 (R152). -/
def scalarOf (seed : List Byte) : Nat := beNat (fitBytes 48 seed) % (n384 - 1) + 1

/-- The public key of a seed, in its 97-byte encoding (R152, R160). -/
def publicKey97 (seed : List Byte) : List Byte := (base384.mul (scalarOf seed)).bytes

/-- SHA-384 of a message, as a number modulo the order. -/
def digest384 (message : List Byte) : Nat := beNat (sha384 message) % n384

/-- The signature of a message under a seed's key, r ‖ s (R142, R163); `nonce`: the random bits drawn for it. A draw that gives
an r or an s of 0 is not made again. -/
def signature (seed message nonce : List Byte) : List Byte :=
  let k := scalarOf nonce
  let r := (base384.mul k).affineX % n384
  let s := invMod n384 k * (digest384 message + r * scalarOf seed) % n384
  beBytes 48 r ++ beBytes 48 s

/-- r and s of a signature, within their range. -/
def sigParts (sig : List Byte) : Option (Nat × Nat) :=
  let r := beNat (sliceBytes sig 0 48)
  let s := beNat (sliceBytes sig 48 48)
  if 1 ≤ r ∧ r < n384 ∧ 1 ≤ s ∧ s < n384 then some (r, s) else none

/-- Does a signature verify under a public key in its encoding (R163)? -/
def verifies (key message sig : List Byte) : Bool :=
  match pointOf key, sigParts sig with
  | some q, some (r, s) =>
    let w := invMod n384 s
    let a := (base384.mul (digest384 message * w % n384)).add (q.mul (r * w % n384))
    a.z ≠ 0 && a.affineX % n384 == r
  | _, _ => false

/-- The points whose x coordinate is `x`. -/
def pointsAt (x : Nat) : List Point :=
  let y := powMod p384 384 (curveRhs x) ((p384 + 1) / 4)
  if p384 ≤ x ∨ y * y % p384 ≠ curveRhs x then [] else [{ x, y, z := 1 }, { x, y := sub384 0 y, z := 1 }]

/-- The public keys under which a signature verifies. -/
def signers (message sig : List Byte) : List (List Byte) :=
  match sigParts sig with
  | none => []
  | some (r, s) =>
    let i := invMod n384 r
    let e := n384 - digest384 message
    (pointsAt r ++ pointsAt (r + n384)).map (fun a =>
      ((a.mul (s * i % n384)).add (base384.mul (e * i % n384))).bytes)

/-- Does a signature verify under a public key that hashes to `hash` (R160 to R162, R166)? A command carries no key: the keys
under which its signature verifies are those the signature itself fixes (DEDUCED, log entry 10). -/
def verifiesHash (hash message sig : List Byte) : Bool :=
  (signers message sig).any (fun k => decide (sha384 k = hash) && verifies k message sig)

/-- The x coordinate of the shared point of a seed's scalar and a public key (R167); none where that is no point. -/
def sharedX (seed key : List Byte) : Option (List Byte) :=
  ((pointOf key).bind (fun q => (q.mul (scalarOf seed)).affine)).map (fun a => beBytes 48 a.1)

end Sys2Proof.Machine
end

