-- ==== Sys2Proof/Machine/Galois.lean ====
section
/-! DEFINITION. Arithmetic in GF(2^8) with the field polynomial 0x11D (R29), and Gaussian elimination over it (the ranks,
spans and solutions of R48, R49, R54 and R276). Field elements are Nats below 256. -/

namespace Sys2Proof.Machine

/-- Multiplication by α = 0x02, reduced by 0x11D (R29). -/
def gfDouble (v : Nat) : Nat := if v < 128 then 2 * v else (2 * v) ^^^ 0x11D

/-- The eight products `a · α^7 … a · α^0` that `b` selects, added (R29). -/
def gfMulGo (a b : Nat) : Nat → Nat
  | 0 => 0
  | n + 1 => (if bitAt b 0 then a else 0) ^^^ gfMulGo (gfDouble a) (b >>> 1) n

/-- Field multiplication (R29). -/
def gfMul (a b : Nat) : Nat := gfMulGo a b 8

/-- α^e, the exponent taken modulo 255 (R29). -/
def gfExpGo : Nat → Nat
  | 0 => 1
  | n + 1 => gfDouble (gfExpGo n)

def gfExp (e : Nat) : Nat := gfExpGo (e % 255)

/-- `a^n`. -/
def gfPow (a : Nat) : Nat → Nat
  | 0 => 1
  | n + 1 => gfMul a (gfPow a n)

/-- The inverse of `a`: a^254, since a^255 = 1 for every non-zero element. -/
def gfInv (a : Nat) : Nat :=
  let a2 := gfMul a a
  let a4 := gfMul a2 a2
  let a8 := gfMul a4 a4
  let a16 := gfMul a8 a8
  let a32 := gfMul a16 a16
  let a64 := gfMul a32 a32
  let a128 := gfMul a64 a64
  gfMul a128 (gfMul a64 (gfMul a32 (gfMul a16 (gfMul a8 (gfMul a4 a2)))))

/-- The exponent of a non-zero element. -/
def gfLog (v : Nat) : Nat := ((List.range 255).find? (fun e => gfExp e == v)).getD 0

/-- A row of coefficients. -/
abbrev GfRow := List Nat

/-- `r + c · s`, entry by entry. -/
def rowAddScaled (r : GfRow) (c : Nat) (s : GfRow) : GfRow := List.zipWith (fun a b => a ^^^ gfMul c b) r s

def rowScale (c : Nat) (r : GfRow) : GfRow := r.map (gfMul c)

/-- The position of a row's first non-zero entry. -/
def leadOf (r : GfRow) : Option Nat := r.findIdx? (· != 0)

/-- `r` reduced by each row of an echelon basis (every basis row has entry 1 at its lead). -/
def rowReduce (basis : List GfRow) (r : GfRow) : GfRow :=
  basis.foldl (fun r b => match leadOf b with
    | none => r
    | some l => rowAddScaled r (r.getD l 0) b) r

/-- A basis with `r` added: unchanged where `r` depends on it; every row reduced at the new lead. -/
def basisAdd (basis : List GfRow) (r : GfRow) : List GfRow :=
  let r := rowReduce basis r
  match leadOf r with
  | none => basis
  | some l =>
    let r := rowScale (gfInv (r.getD l 0)) r
    basis.map (fun b => rowAddScaled b (b.getD l 0) r) ++ [r]

/-- The rank of a list of rows. -/
def gfRank (rows : List GfRow) : Nat := (rows.foldl basisAdd []).length

/-- Is `r` in the span of the basis? -/
def inSpan (basis : List GfRow) (r : GfRow) : Bool := (leadOf (rowReduce basis r)).isNone

/-- The unit vector of length `n` with 1 at `i`. -/
def unitRow (n i : Nat) : GfRow := (List.range n).map (fun c => if c = i then 1 else 0)

/-- The combination `m` of the rows `a` (each `w` entries wide) that gives `target`, where the rows are independent:
each row carries beside it how it was made of the given rows. -/
def solveRow (a : List GfRow) (w : Nat) (target : GfRow) : Option GfRow :=
  let e := a.length
  let basis := (List.range e).foldl (fun bs i => basisAdd bs (a.getD i [] ++ unitRow e i)) []
  let r := (basis.filter (fun b => match leadOf b with | none => false | some l => l < w)).foldl
    (fun r b => match leadOf b with
      | none => r
      | some l => rowAddScaled r (r.getD l 0) b) (target ++ List.replicate e 0)
  if (r.take w).all (· == 0) then some (r.drop w) else none

end Sys2Proof.Machine
end

