-- ==== Sys2Proof/Machine/RippleCode.lean ====
section
/-! DEFINITION. The Ripple code (02_ripple_code.md) and its planning, schedules and their checks (03_ripple_decode.md), as
pure functions: profiles, generator rows, stripes and padding, parities, plans, schedules, and running a schedule. -/

namespace Sys2Proof.Machine

/-- A profile: k.r.g, the offset s_p and its number (R30, R38). -/
structure Profile where
  num : Nat
  k   : Nat
  r   : Nat
  g   : Nat
  ofs : Nat
  deriving DecidableEq, Repr

/-- L = ceil(k / r) (R30). -/
def Profile.l (p : Profile) : Nat := ceilDiv p.k p.r

/-- n = k + L + g (R30). -/
def Profile.n (p : Profile) : Nat := p.k + p.l + p.g

/-- The profile word (R38). -/
def Profile.word (p : Profile) : Nat :=
  p.k + p.r * 2 ^ 8 + p.g * 2 ^ 13 + p.ofs * 2 ^ 18 + p.num * 2 ^ 26

/-- The profile a profile word spells (R38). -/
def Profile.ofWord (w : Nat) : Profile :=
  { num := bits w 30 26, k := bits w 7 0, r := bits w 12 8, g := bits w 17 13, ofs := bits w 25 18 }

/-- The built-in profiles 0 to 5 (R39, R40). -/
def builtinProfiles : List Profile :=
  [ { num := 0, k := 12, r := 6, g := 2, ofs := 1 },
    { num := 1, k := 24, r := 8, g := 3, ofs := 5 },
    { num := 2, k := 48, r := 12, g := 4, ofs := 9 },
    { num := 3, k := 96, r := 12, g := 6, ofs := 17 },
    { num := 4, k := 160, r := 16, g := 8, ofs := 43 },
    { num := 5, k := 224, r := 16, g := 12, ofs := 13 } ]

/-- The first condition of R41 that an owner record meets; `taken` are the numbers already loaded from this image. -/
def ownerRecordReason (taken : List Nat) (rec : List Byte) : Option Nat :=
  let num := fieldAt rec 0 1
  let k := fieldAt rec 1 1
  let r := fieldAt rec 2 1
  let g := fieldAt rec 3 1
  let ofs := fieldAt rec 4 1
  let p : Profile := { num, k, r, g, ofs }
  if num < 6 || 31 < num then some 1
  else if taken.contains num then some 2
  else if k < 2 || 224 < k then some 3
  else if r < 4 || 24 < r then some 4
  else if 16 < g then some 5
  else if 255 < p.n then some 6
  else if 255 - k < ofs then some 7
  else if fieldAt rec 5 3 ≠ 0 then some 8
  else none

/-- The profile of an owner record (R41). -/
def ownerRecordProfile (rec : List Byte) : Profile :=
  { num := fieldAt rec 0 1, k := fieldAt rec 1 1, r := fieldAt rec 2 1, g := fieldAt rec 3 1, ofs := fieldAt rec 4 1 }

/-- The local group of data shard `i` (R31). -/
def Profile.groupOf (p : Profile) (i : Nat) : Nat := i / p.r

/-- The data shards of group `j`: r·j to min(r·(j + 1), k) − 1 (R31). -/
def Profile.groupData (p : Profile) (j : Nat) : List Nat :=
  rangeWith p.k (fun i => i / p.r == j)

/-- The coefficient of data shard `i` in the row of shard `c` (the generator matrix of R33). -/
def Profile.coef (p : Profile) (c i : Nat) : Nat :=
  if c < p.k then b2n (i == c)
  else if c < p.k + p.l then b2n (i / p.r == c - p.k)
  else gfExp ((c - p.k - p.l + 1) * (p.ofs + i))

/-- The row of shard `c` over the columns `cols`. -/
def Profile.rowOver (p : Profile) (cols : List Nat) (c : Nat) : GfRow := cols.map (p.coef c)

/-- Do the surviving shards' rows have rank k (R33)? The present data shards give their unit vectors, so what is left is
the rank of the present parity rows over the absent data columns. -/
def Profile.rankOk (p : Profile) (present : Nat → Bool) : Bool :=
  let cols := rangeWith p.k (fun i => !present i)
  let rows := (rangeWith p.n (fun c => p.k ≤ c && present c)).map (p.rowOver cols)
  gfRank rows == cols.length

/-- Is every pattern of exactly `t` lost shards, drawn from the shards `lo …`, decodable beside the lost `lost`? -/
def Profile.allDecodable (p : Profile) : Nat → List Nat → Nat → Bool
  | 0, lost, _ => p.rankOk (fun c => !lost.contains c)
  | t + 1, lost, lo =>
    ((List.range p.n).filter (lo ≤ ·)).all (fun c => p.allDecodable t (c :: lost) (c + 1))

/-- The verified tolerance of an owner profile (R42): the largest t ≤ 3 for which every pattern of t or fewer shards is
decodable. -/
def Profile.verifiedTol (p : Profile) : Nat :=
  if !p.allDecodable 1 [] 0 then 0
  else if !p.allDecodable 2 [] 0 then 1
  else if !p.allDecodable 3 [] 0 then 2
  else 3

/-- The listed tolerance of a built-in profile, g + 1 (R40). -/
def Profile.builtinTol (p : Profile) : Nat := p.g + 1

/-! ### Objects, stripes and padding (R35 to R37) -/

/-- N = ceil(B / (k·S)) (R35). -/
def Profile.stripes (p : Profile) (objLen s : Nat) : Nat := ceilDiv objLen (p.k * s)

/-- Shard size S: a multiple of 4,096 from 4,096 to 1,048,576 (R35). -/
def shardSizeOk (s : Nat) : Bool := 4096 ≤ s && s ≤ 1048576 && s % 4096 == 0

/-- The shard size of stripe `j` (R36). -/
def Profile.stripeSize (p : Profile) (objLen s j : Nat) : Nat :=
  let rem := objLen - j * (p.k * s)
  if p.k * s ≤ rem then s else 4096 * ceilDiv rem (4096 * p.k)

/-- The first object byte of data shard `i` of stripe `j`. -/
def Profile.shardStart (p : Profile) (objLen s j i : Nat) : Nat :=
  j * (p.k * s) + i * p.stripeSize objLen s j

/-- The payload of data shard `i` of stripe `j`: its object bytes, then 0x00 (R35, R36). -/
def Profile.dataShard (p : Profile) (obj : List Byte) (s j i : Nat) : List Byte :=
  sliceBytes obj (p.shardStart obj.length s j i) (p.stripeSize obj.length s j)

/-! ### Parities (R32, R33) -/

/-- A payload's bytes scaled by `c` in the field. -/
def scaleBytes (c : Nat) (bs : List Byte) : List Byte := bs.map (fun b => BitVec.ofNat 8 (gfMul c b.toNat))

/-- The exclusive OR of payloads of `len` bytes. -/
def xorAll (len : Nat) (ps : List (List Byte)) : List Byte := ps.foldl xorBytes (zeros len)

/-- The payload of shard `c` from the stripe's data payloads, each `len` bytes (R32, R33). -/
def Profile.shardOf (p : Profile) (len : Nat) (data : Nat → List Byte) (c : Nat) : List Byte :=
  if c < p.k then fitBytes len (data c)
  else xorAll len ((List.range p.k).map (fun i => scaleBytes (p.coef c i) (fitBytes len (data i))))

/-! ### Plans (R46 to R54) -/

/-- Why a plan holds no schedule; the REASON codes of PLAN_RESULT (R60). -/
inductive PlanReason where
  | ok | patternInvalid | profileUnknown | notDecodable | solverLimit | busy | notReady
  deriving DecidableEq, Repr

def PlanReason.code : PlanReason → Nat
  | .ok => 0 | .patternInvalid => 1 | .profileUnknown => 2 | .notDecodable => 3
  | .solverLimit => 4 | .busy => 5 | .notReady => 6

/-- One step of a schedule (R53). -/
inductive PlanStep where
  | peel (target group : Nat)
  | solve (unknowns eqs outs : List Nat) (m : List GfRow)
  | global (target row : Nat)
  deriving DecidableEq, Repr

/-- A plan: what PLAN_RESULT, PLAN_INFO, PLAN_READ and the schedule report (R60). -/
structure Plan where
  reason  : PlanReason
  rankOk  : Bool
  reads   : List Nat
  missing : Nat
  u       : Nat
  e       : Nat
  steps   : List PlanStep
  deriving DecidableEq, Repr

def Plan.decodable (p : Plan) : Bool := p.reason == .ok

/-- A plan that only says why there is none (reasons 1, 2, 5 and 6 of R61). -/
def Plan.none (why : PlanReason) : Plan :=
  { reason := why, rankOk := false, reads := [], missing := 0, u := 0, e := 0, steps := [] }

/-- The members of group `j`, its local parity last. -/
def Profile.groupMembers (p : Profile) (j : Nat) : List Nat := p.groupData j ++ [p.k + j]

/-- Group `j` rebuilds its own single absent data shard (R48, step 1). -/
def Profile.peelable (p : Profile) (present : Nat → Bool) (j : Nat) : Bool :=
  present (p.k + j) && ((p.groupData j).filter (fun i => !present i)).length == 1

/-- The absent data shards of groups that do not peel (R48, step 1). -/
def Profile.unknowns (p : Profile) (present : Nat → Bool) : List Nat :=
  rangeWith p.k (fun i => !present i && !p.peelable present (i / p.r))

/-- The unknowns the wanted shards depend on (R48, step 2). -/
def Profile.needs (p : Profile) (present wanted : Nat → Bool) : List Nat :=
  let globalWanted := ((List.range p.g).any (fun m => wanted (p.k + p.l + m)))
  (p.unknowns present).filter (fun i => wanted i || wanted (p.k + i / p.r) || globalWanted)

/-- The candidate rows, in order (R48, step 3). -/
def Profile.candidates (p : Profile) (present : Nat → Bool) : List Nat :=
  let unk := p.unknowns present
  rangeWith (p.k + p.l) (fun c => p.k ≤ c && present c && unk.any (fun i => i / p.r == c - p.k)) ++
  rangeWith p.n (fun c => p.k + p.l ≤ c && present c)

/-- Choosing rows: take each candidate that raises the rank, until every needed unit vector lies in the span (R48, step 3).
Answers the chosen rows and their basis. -/
def Profile.chooseRows (p : Profile) (unk need : List Nat) : List Nat → List Nat → List GfRow → List Nat × List GfRow
  | [], rows, basis => (rows, basis)
  | c :: cs, rows, basis =>
    let b' := basisAdd basis (p.rowOver unk c)
    let rows' := if basis.length < b'.length then rows ++ [c] else rows
    if need.all (fun i => inSpan b' (unk.map (fun c => b2n (c == i)))) then (rows', b')
    else p.chooseRows unk need cs rows' b'

/-- Is data shard `i` producible: peeled, or its unit vector in the span of every usable equation (R47)? -/
def Profile.dataProducible (p : Profile) (present : Nat → Bool) (i : Nat) : Bool :=
  let unk := p.unknowns present
  let full := ((p.candidates present).map (p.rowOver unk)).foldl basisAdd []
  !unk.contains i || inSpan full (unk.map (fun c => b2n (c == i)))

/-- Is shard `c`, absent and wanted, producible (R47)? -/
def Profile.producible (p : Profile) (present : Nat → Bool) (c : Nat) : Bool :=
  if c < p.k then p.dataProducible present c
  else if c < p.k + p.l then (p.groupData (c - p.k)).all (fun i => present i || p.dataProducible present i)
  else (List.range p.k).all (fun i => present i || p.dataProducible present i)

/-- The device's plan of a valid pattern (R48 to R51, R54). -/
def Profile.planSets (p : Profile) (present wanted : Nat → Bool) : Plan :=
  let rank := p.rankOk present
  let unk := p.unknowns present
  let need := p.needs present wanted
  let chosen := if need.isEmpty then ([], []) else p.chooseRows unk need (p.candidates present) [] []
  let rows := chosen.1
  let solved := need.all (fun i => inSpan chosen.2 (unk.map (fun c => b2n (c == i))))
  let wantedList := rangeWith p.n wanted
  let fail (why : PlanReason) (missing : Nat) : Plan :=
    { reason := why, rankOk := rank, reads := [], missing, u := unk.length, e := rows.length, steps := [] }
  if !solved then fail .notDecodable (wantedList.filter (fun c => !p.producible present c)).length
  else if !need.isEmpty && (30 < unk.length || 14 < (rows.filter (· < p.k + p.l)).length) then fail .solverLimit 0
  else
    let globals := wantedList.filter (p.k + p.l ≤ ·)
    let wide := !need.isEmpty || !globals.isEmpty
    let peelData := rangeWith p.k (fun i => !present i && p.peelable present (i / p.r) && (wide || wanted i))
    let peelLocal := wantedList.filter (fun c => p.k ≤ c && c < p.k + p.l)
    let a := rows.map (p.rowOver unk)
    let m := need.map (fun i => (solveRow a unk.length (unk.map (fun c => b2n (c == i)))).getD [])
    let steps :=
      peelData.map (fun i => .peel i (i / p.r)) ++
      (if need.isEmpty then [] else [.solve unk rows need m]) ++
      peelLocal.map (fun c => .peel c (c - p.k)) ++
      globals.map (fun c => .global c (c - p.k - p.l + 1))
    let reads :=
      if wide then rangeWith p.n (fun c => present c &&
        (c < p.k || rows.contains c || (c < p.k + p.l && p.peelable present (c - p.k))))
      else rangeWith p.n (fun c => present c &&
        ((peelData.any (fun i => (p.groupMembers (i / p.r)).contains c)) ||
         (peelLocal.any (fun t => (p.groupData (t - p.k)).contains c))))
    { reason := .ok, rankOk := rank, reads, missing := 0, u := unk.length, e := rows.length, steps }

/-- The pattern rules of R46 over two 256-bit maps, then R48. -/
def Profile.planMaps (p : Profile) (present wanted : Nat) : Plan :=
  let pr := bitAt present
  let wa : Nat → Bool := if wanted % 2 ^ 256 == 0 then fun c => c < p.n && !pr c else bitAt wanted
  if (present % 2 ^ 256) >>> p.n ≠ 0 || (wanted % 2 ^ 256) >>> p.n ≠ 0
      || (present &&& wanted) % 2 ^ 256 ≠ 0 then Plan.none .patternInvalid
  else p.planSets pr wa

/-! ### Schedules as bytes (R52, R53) -/

def byteOf (n : Nat) : Byte := BitVec.ofNat 8 n

/-- Padded with 0x00 to a multiple of 4 bytes. -/
def pad4 (bs : List Byte) : List Byte := bs ++ zeros (roundUp bs.length 4 - bs.length)

/-- A step's bytes (R53). -/
def PlanStep.bytes : PlanStep → List Byte
  | .peel t j => [1, byteOf t, byteOf j, 0]
  | .global t m => [3, byteOf t, byteOf m, 0]
  | .solve unk eqs outs m =>
    pad4 ([2, byteOf unk.length, byteOf eqs.length, byteOf outs.length] ++ (unk ++ eqs ++ outs).map byteOf
      ++ (m.map (·.map byteOf)).flatten)

/-- A schedule's bytes: the header of R52, then the steps. -/
def scheduleBytes (p : Profile) (steps : List PlanStep) : List Byte :=
  let body := (steps.map PlanStep.bytes).flatten
  leBytes 4 p.word ++ leBytes 2 (8 + body.length) ++ [byteOf steps.length, 1] ++ body

/-- A plan's schedule: empty unless DECODABLE. -/
def Plan.sched (pl : Plan) (p : Profile) : List Byte := if pl.decodable then scheduleBytes p pl.steps else []

/-- PLAN_RESULT (R60). -/
def Plan.result (pl : Plan) (seq : Nat) : Nat :=
  b2n pl.decodable + 2 * b2n pl.rankOk + 16 * pl.reason.code + 2 ^ 8 * pl.reads.length + 2 ^ 16 * pl.missing
    + 2 ^ 24 * (seq % 256)

/-- PLAN_INFO (R60). -/
def Plan.info (pl : Plan) (p : Profile) : Nat := pl.u + 2 ^ 8 * pl.e + 2 ^ 16 * (pl.sched p).length

/-- One step read from schedule bytes, with its padded length; `none` where the bytes spell no step (R53). -/
def parseStep (bs : List Byte) : Option (PlanStep × Nat) :=
  let b (i : Nat) := fieldAt bs i 1
  if bs.length < 4 then none
  else match b 0 with
  | 1 => if b 3 == 0 then some (.peel (b 1) (b 2), 4) else none
  | 3 => if b 3 == 0 then some (.global (b 1) (b 2), 4) else none
  | 2 =>
    let u := b 1
    let e := b 2
    let o := b 3
    let len := 4 + u + e + o + o * e
    if u == 0 || 30 < u || e == 0 || 30 < e || o == 0 || u < o || bs.length < roundUp len 4
        || fieldAt bs len (roundUp len 4 - len) ≠ 0 then none
    else
      let ns := (bs.drop 4).map BitVec.toNat
      let m := (List.range o).map (fun a => (ns.drop (u + e + o + a * e)).take e)
      some (.solve (ns.take u) ((ns.drop u).take e) ((ns.drop (u + e)).take o) m, roundUp len 4)
  | _ => none

/-- `n` steps that fill the bytes exactly (R55). -/
def parseSteps : Nat → List Byte → Option (List PlanStep)
  | 0, [] => some []
  | 0, _ => none
  | n + 1, bs =>
    match parseStep bs with
    | none => none
    | some (st, len) => (parseSteps n (bs.drop len)).map (st :: ·)

/-- The targets a step writes. -/
def PlanStep.targets : PlanStep → List Nat
  | .peel t _ => [t]
  | .global t _ => [t]
  | .solve _ _ outs _ => outs

/-- The shards a step reads (R53): the other members of the group; all data shards; the equation shards and every data
shard of an equation row that is no unknown. -/
def Profile.stepSources (p : Profile) : PlanStep → List Nat
  | .peel t j => (p.groupMembers j).filter (· ≠ t)
  | .global _ _ => List.range p.k
  | .solve unk eqs _ _ =>
    eqs ++ rangeWith p.k (fun i => !unk.contains i && eqs.any (fun c => p.coef c i ≠ 0))

/-- Is the step sound where the shards `av` are available (R55)? -/
def Profile.stepOk (p : Profile) (av : List Nat) (st : PlanStep) : Bool :=
  (p.stepSources st).all av.contains && st.targets.all (fun t => !av.contains t) &&
  match st with
  | .peel t j => j < p.l && (p.groupMembers j).contains t
  | .global t m => 1 ≤ m && m ≤ p.g && t == p.k + p.l + m - 1
  | .solve unk eqs outs m =>
    decide unk.Nodup && decide outs.Nodup && unk.all (fun i => i < p.k && !av.contains i) &&
    eqs.all (fun c => p.k ≤ c && c < p.n) && outs.all unk.contains &&
    (List.range outs.length).all (fun a => unk.all (fun c =>
      (List.zipWith (fun mb e => gfMul mb (p.coef e c)) (m.getD a []) eqs).foldl (· ^^^ ·) 0
        == b2n (c == outs.getD a 256)))

/-- Every step sound in order, each target available afterwards (R55). -/
def Profile.stepsOk (p : Profile) : List Nat → List PlanStep → Bool
  | _, [] => true
  | av, st :: rest => p.stepOk av st && p.stepsOk (av ++ st.targets) rest

/-- The checks of R55 on a schedule that a job carries: `given` the job's shards, `wanted` those it is asked to produce. R55's
checks do not name the form of R53, so more than one SOLVE and lists that are not ascending pass (DEDUCED, log entry 63). -/
def Profile.checkSchedule (p : Profile) (given wanted : List Nat) (bs : List Byte) : Option (List PlanStep) :=
  if fieldAt bs 7 1 ≠ 1 || fieldAt bs 0 4 ≠ p.word || fieldAt bs 4 2 ≠ bs.length || bs.length < 8 then none
  else match parseSteps (fieldAt bs 6 1) (bs.drop 8) with
  | none => none
  | some steps =>
    if p.stepsOk given steps && wanted.all ((steps.map PlanStep.targets).flatten.contains) then some steps else none

/-! ### Running a schedule (R53) -/

/-- The payloads at hand, by shard index. -/
abbrev Shards := List (Nat × List Byte)

def shardAt (m : Shards) (c : Nat) : List Byte := (assoc m c).getD []

/-- One step on payloads of `len` bytes (R53). -/
def Profile.runStep (p : Profile) (len : Nat) (m : Shards) : PlanStep → Shards
  | .peel t j => m ++ [(t, xorAll len (((p.groupMembers j).filter (· ≠ t)).map (shardAt m)))]
  | .global t r => m ++ [(t, p.shardOf len (shardAt m) (p.k + p.l + r - 1))]
  | .solve unk eqs outs mm =>
    let synd := eqs.map (fun c => xorAll len (shardAt m c ::
      (rangeWith p.k (fun i => !unk.contains i)).map (fun i => scaleBytes (p.coef c i) (fitBytes len (shardAt m i)))))
    m ++ List.zipWith (fun t row => (t, xorAll len (List.zipWith scaleBytes row synd))) outs mm

/-- The whole schedule: payloads of the shards read, then of every target. -/
def Profile.runSchedule (p : Profile) (len : Nat) (m : Shards) (steps : List PlanStep) : Shards :=
  steps.foldl (p.runStep len) m

end Sys2Proof.Machine
end

