-- ==== Sys2Proof/Machine/JobParts.lean ====
section
/-! DEFINITION. The parts of the state that hold jobs, tasks, engines, deques (04_jobs.md, 05_engines.md) and sealing
(06_sealing.md). -/

namespace Sys2Proof.Machine

/-! ### Buffers (R78) -/

/-- A data entry: SPACE is 0 host memory, 1 basin, 2 peer. -/
structure BufEntry where
  addr  : Nat
  len   : Nat
  space : Nat
  basin : Nat
  attr  : Nat
  deriving DecidableEq, Repr

/-- A buffer: its data entries in order. -/
abbrev Buffer := List BufEntry

/-! ### Tokens and engines (R107, R101) -/

/-- A task token (R107); EXCL and EXCL2 are 0x3F for none. KIND: 1 stripe, 2 verify, 3 digest segment, 4 copy unit,
5 plan batch. -/
structure Token where
  ring    : Nat
  slot    : Nat
  jgen    : Nat
  kind    : Nat
  unit    : Nat
  tokgen  : Nat := 0
  excl    : Nat := 0x3F
  attempt : Nat := 0
  excl2   : Nat := 0x3F
  /-- CHECK: CRC-32C of bits [95:0]. -/
  check   : Nat := 0
  deriving DecidableEq, Repr

/-- Bits [95:0] of a token, as its first 12 bytes. -/
def Token.body (t : Token) : List Byte :=
  leBytes 4 (t.ring % 2 ^ 8 + 2 ^ 8 * (t.slot % 2 ^ 16) + 2 ^ 24 * (t.jgen % 2 ^ 4) + 2 ^ 28 * (t.kind % 2 ^ 4))
    ++ leBytes 4 t.unit
    ++ leBytes 4 (t.tokgen % 2 ^ 8 + 2 ^ 8 * (t.excl % 2 ^ 6) + 2 ^ 14 * (t.attempt % 2 ^ 2) + 2 ^ 16 * (t.excl2 % 2 ^ 6))

/-- The token's 16 bytes as the deque holds them. -/
def Token.bytes (t : Token) : List Byte := t.body ++ leBytes 4 t.check

/-- The token with the CHECK of its other bits. -/
def Token.marked (t : Token) : Token := { t with check := crc32c t.body }

/-- Does CHECK hold? -/
def Token.good (t : Token) : Bool := t.check == crc32c t.body

/-- A task in an engine's slot: its token, the deque it came from, and whether it was popped into the digest slot. -/
structure Running where
  tok    : Token
  pond   : Nat
  digest : Bool
  deriving DecidableEq, Repr

/-- An engine (R101, R111, R113). -/
structure Engine where
  tasks   : List Running := []
  /-- Tasks of a fence that wait for the engine's issued requests to drain (R111). -/
  fenced  : List Running := []
  /-- Tasks taken from the engine, whose results are stale: by a fence, or by a cancel. -/
  stale   : List (Running × Bool) := []
  /-- Times of its fences, newest first, at most 15. -/
  fences  : List Nat := []
  /-- OFFLINE by a failed test or too many fences (R113). -/
  failed  : Bool := false
  /-- Named by an ENGINE_OFF repair entry (R113). -/
  repairOff : Bool := false
  /-- A self-test that is due and held by the operating limits or by a BIST run (R113, R372). -/
  testDue : Bool := false
  deriving DecidableEq, Repr

/-! ### Jobs -/

/-- A condition (R12, R97): unit, status code, shard. -/
structure Cond where
  unit   : Nat
  status : Nat
  shard  : Nat
  deriving DecidableEq, Repr

/-- The snapshot of an ENCODE (R133). -/
structure Snapshot where
  epoch : Nat
  slot  : Nat
  ver   : Nat
  salt  : Nat
  enc   : Bool
  deriving DecidableEq, Repr

/-- A unit whose task has ended and that is not done: the basin ranges its outputs wait in, the requests for flushing
reads, and for an ENCODE stripe under verify-after-encode the tags and the encoding engine (R84, R114, R115). -/
structure UnitRun where
  unit      : Nat
  ranges    : List (Nat × Nat × Nat) := []   -- basin, offset, length
  flushes   : List (Bool × Nat × Nat × Nat) := []  -- peer, address, length, shard
  written   : Bool := false
  durable   : Bool := false
  /-- Verify-after-encode: 0 none, 1 its task is to be pushed, 2 pushed, 3 the tags match. -/
  verify    : Nat := 0
  tags      : List (List Byte) := []
  engine    : Nat := 0x3F                    -- the engine that encoded it
  firstEnc  : Nat := 0x3F                    -- the fenced encoding engine of an earlier attempt
  misses    : Nat := 0
  /-- TOKGEN of the encoding's token. -/
  tokgen    : Nat := 0
  deriving DecidableEq, Repr

/-- Where a job stands. -/
inductive Stage where
  /-- Fetched, held behind a FENCE of its ring (R91). -/
  | held
  | started
  /-- A SEAL whose batch is being signed; a QUERY that runs. -/
  | signing
  /-- Everything has ended; its receipt entry and its completion remain. -/
  | closing
  deriving DecidableEq, Repr

/-- A fetched, incomplete job. -/
structure Job where
  ring     : Nat
  slot     : Nat
  gen      : Nat
  func     : Nat
  type     : Nat
  desc     : List Byte
  fetchSeq : Nat
  stage    : Stage := .started
  units    : Nat := 1
  /-- Buffers by descriptor byte: 64, 80, 96, 112. -/
  bufs     : List (Nat × Buffer) := []
  /-- Shard tables by descriptor byte: one buffer for each shard. -/
  tables   : List (Nat × List Buffer) := []
  sched    : List PlanStep := []
  snap     : Option Snapshot := none
  /-- Units below it are done (R85); done units at or above it; units issued (R118). -/
  progress : Nat := 0
  doneSet  : List Nat := []
  doneCnt  : Nat := 0
  issued   : Nat := 0
  /-- The first condition, or the stop (PARTIAL, CANCELLED, THERMAL_ABORT), in the job's processing (R12). -/
  status   : Option Cond := none
  ncond    : Nat := 0
  cause    : Nat := 0
  corrected : Bool := false
  /-- No further unit starts (R89, R93, R112). -/
  stopped  : Bool := false
  /-- A stop of R88 or a cancel of R93 has reached the job: its tasks are not requeued (R112). -/
  halted   : Bool := false
  /-- Status codes of the stops that have reached it (R12): each is noted once. -/
  stops    : List Nat := []
  runs     : List UnitRun := []
  /-- Digest chain: next segment, whether one is pushed, bytes hashed, chaining state, the digest. -/
  dseg     : Nat := 0
  dpushed  : Bool := false
  dbytes   : Nat := 0
  dstate   : List Nat := []
  digest   : Option (List Byte) := none
  /-- Data key slots held (R131). -/
  keys     : List Nat := []
  /-- Tags of the stripes encoded, by stripe: SHARD_HASH is over them (R135). -/
  tags     : List (Nat × List Byte) := []
  /-- PLAN records: the next entry to be placed and its offset in RECORDS, and records of later batches that wait for
  it, with the mark of those whose entry could not be read (R64, R77). -/
  planNext : Nat := 0
  planOff  : Nat := 0
  planHeld : List (Nat × List (List Byte × Bool)) := []
  /-- Has its receipt entry been added (R137)? -/
  receipt  : Bool := false
  /-- A record at OUT, or a digest at DST, that waits for its durability point. -/
  outRun   : Option UnitRun := none
  /-- A SEAL's record at OUT has reached its durability point. -/
  outDone  : Bool := false
  deriving DecidableEq, Repr

/-- A descriptor fetched and not yet arrived, or rejected and not yet completed (R81). -/
structure Fetch where
  slot : Nat
  gen  : Nat
  seq  : Nat
  deriving DecidableEq, Repr

/-- The job unit's bookkeeping of a ring pair. -/
structure Ring where
  fetches : List Fetch := []
  /-- Completions written since the last message (R72). -/
  unsig   : Nat := 0
  /-- A message of the ring is due and pends while its vector is masked (R72, R203). -/
  pended  : Bool := false
  /-- Slots of jobs held INTERRUPTED, in order of fetch (R100). -/
  interrupted : List Nat := []
  /-- Data key slots that those jobs hold (R131). -/
  keys    : List Nat := []
  deriving DecidableEq, Repr

structure JobUnit where
  jobs     : List Job := []
  rings    : List (Nat × Ring) := []
  /-- Next FETCH_SEQ (R117). -/
  nextSeq  : Nat := 0
  /-- Each pond's job served last (R106, rotation), by FETCH_SEQ. -/
  served   : List (Nat × Nat) := []
  deriving DecidableEq, Repr

structure Pond where
  deque : List Token := []
  rot   : Nat := 0
  deriving DecidableEq, Repr

structure Ponds where
  ponds   : List (Nat × Pond) := []
  engines : List (Nat × Engine) := []
  deriving DecidableEq, Repr

/-! ### Sealing -/

/-- A data key slot's secret part (R129, R132). -/
structure KeySlot where
  key  : List Byte
  salt : Nat
  deriving DecidableEq, Repr

/-- A closed batch waiting for its signature (R139). -/
structure Batch where
  seq     : Nat
  epoch   : Nat
  entries : Nat
  root    : List Byte
  chainId : List Byte
  start   : Bool
  auto    : Bool
  /-- Ring, slot and generation of the SEAL that closed it. -/
  job     : Option (Nat × Nat × Nat)
  /-- An SPDM signature has been made while it waited (R156). -/
  waited  : Bool := false
  deriving DecidableEq, Repr

/-- Sealing state of a function (R149), beside its registers. -/
structure SealFn where
  /-- Data keys by slot. -/
  keys     : List (Nat × KeySlot) := []
  frontier : Frontier := []
  started  : Bool := false
  /-- CHAIN_START of the open batch. -/
  first    : Bool := false
  /-- SHA-384 of the last record. -/
  prev     : List Byte := []
  /-- Closed batches not yet signed, oldest first (R139). -/
  closing  : List Batch := []
  /-- Signed records that wait for a log slot, oldest first, with the SEAL they belong to (R138). -/
  records  : List (List Byte × Option (Nat × Nat × Nat)) := []
  /-- Entries written since the last message sent on the log's vector (R150). -/
  awaiting : Nat := 0
  /-- Log slots written and not released by LOG_HEAD (R136). -/
  used     : Nat := 0
  staged   : Nat := 0
  /-- High word latched by a read of SEAL_EPOCH_LO (R144). -/
  latched  : Option Nat := none
  deriving DecidableEq, Repr

end Sys2Proof.Machine
end

