-- ==== Sys2Proof/Machine/LineCode.lean ====
section
/-! DEFINITION. The line code of 12_integrity.md: check symbols (R274), the poison pattern (R276), and the controller's
decode with erasures and the one re-read (R277). -/

namespace Sys2Proof.Machine

/-- g(x) below its leading term, coefficients of x^7 to x^0 (R274). -/
def rsGenerator : List Nat := [0xFF, 0x0B, 0x51, 0x36, 0xEF, 0xAD, 0xC8, 0x18]

/-- One data symbol enters the remainder of d(x)·x^8 mod g(x). -/
def rsFeed (rem : List Nat) (d : Nat) : List Nat :=
  let f := d ^^^ rem.headD 0
  List.zipWith (fun r g => r ^^^ gfMul f g) (rem.drop 1 ++ [0]) rsGenerator

/-- The eight check symbols 64 to 71 of a line's 64 data bytes (R274). -/
def rsChecks (data : List Byte) : List Byte :=
  ((data.map BitVec.toNat).foldl rsFeed [0, 0, 0, 0, 0, 0, 0, 0]).map (BitVec.ofNat 8)

/-- The codeword of a line (R274). -/
def rsEncode (data : List Byte) : List Byte := fitBytes 64 data ++ rsChecks (fitBytes 64 data)

/-- P on symbols 64 to 71 (R276). -/
def poisonPattern : List Byte := [0x01#8, 0x7F#8, 0x7A#8, 0x9A#8, 0xA4#8, 0x0B#8, 0x44#8, 0x75#8]

/-- P as a word of 72 symbols. -/
def poisonWord : List Byte := zeros 64 ++ poisonPattern

/-- The stored word of a line marked poisoned (R276). -/
def rsPoisoned (data : List Byte) : List Byte := xorBytes (rsEncode data) poisonWord

/-- The syndromes S_j = r(α^j), j = 0 to 7 (R274), by Horner's rule over symbols 0 to 71. -/
def rsSyndromes (r : List Byte) : List Nat :=
  (List.range 8).map (fun j => r.foldl (fun acc b => gfMul acc (gfExp j) ^^^ b.toNat) 0)

def allZero (s : List Nat) : Bool := s.all (· == 0)

/-- The syndromes of a 1 on symbol `i` alone: powers of α^(71 − i). -/
def rsColumn (i : Nat) : GfRow := (List.range 8).map (fun j => gfExp (j * (71 - i)))

/-- The magnitudes on the positions `pos` that explain the syndromes, where they do. -/
def rsMagnitudes (pos : List Nat) (s : GfRow) : Option (List Nat) := solveRow (pos.map rsColumn) 8 s

/-- The first set of at most two positions outside `e` which, with `e`, explains the syndromes: none, one, then two. At
most one error pattern of that form exists, because the code's distance is 9. -/
def rsLocate (e : List Nat) (s : GfRow) : Option (List Nat) :=
  let others := rangeWith 72 (fun i => !e.contains i)
  let base := (e.map rsColumn).foldl basisAdd []
  if inSpan base s then some e
  else match others.find? (fun i => inSpan (basisAdd base (rsColumn i)) s) with
  | some i => some (e ++ [i])
  | none =>
    others.findSome? (fun i =>
      let bi := basisAdd base (rsColumn i)
      ((others.filter (i < ·)).find? (fun j => inSpan (basisAdd bi (rsColumn j)) s)).map (fun j => e ++ [i, j]))

/-- bd(w) of R277: the word with the symbols on lanes in `e` and up to two others corrected, and the corrected symbols. -/
def rsBd (e : List Nat) (w : List Byte) : Option (List Byte × List Nat) :=
  let s := rsSyndromes w
  match rsLocate e s with
  | none => none
  | some pos =>
    match rsMagnitudes pos s with
    | none => none
    | some mags =>
      let fix := (List.zip pos mags).filter (fun pm => pm.2 ≠ 0)
      let err := (List.range 72).map (fun i => BitVec.ofNat 8 ((assoc fix i).getD 0))
      some (xorBytes w err, fix.map (·.1))

/-- The outcomes of R277. -/
inductive LineOutcome where
  | clean | erasureOnly | corrected | poisoned | correctedRetry | uncorrectable
  deriving DecidableEq, Repr

/-- What a decode gives: the outcome, the data bytes, and the corrected symbols outside `e`. -/
structure LineRead where
  outcome : LineOutcome
  data    : List Byte
  fixed   : List Nat
  deriving DecidableEq, Repr

/-- decode(r, E) of R277; `again` is the word the one re-read brings. -/
def lineDecode (e : List Nat) (r again : List Byte) : LineRead :=
  let out (o : LineOutcome) (w : List Byte) (pos : List Nat) : LineRead :=
    { outcome := o, data := w.take 64, fixed := pos.filter (fun i => !e.contains i) }
  if allZero (rsSyndromes r) then out .clean r []
  else match rsBd e r with
  | some (w, pos) => out (if pos.all e.contains then .erasureOnly else .corrected) w pos
  | none =>
    let w := xorBytes r poisonWord
    match (if allZero (rsSyndromes w) then some (w, []) else rsBd e w) with
    | some (w, _) => out .poisoned w []
    | none =>
      if allZero (rsSyndromes again) then out .correctedRetry again []
      else match rsBd e again with
      | some (w, pos) => out .correctedRetry w pos
      | none => out .uncorrectable r []

end Sys2Proof.Machine
end

