-- ==== Sys2Proof/Machine/RegNames.lean ====
section
/-! DEFINITION. The names of the device's register fields: one constructor per field of the register tables of spec/
(the field maps of R45, R65, R73, R120 to R122, R150, R174, R175, R208, R225, R226, R248, R249, R271 to R273, R292,
R293, R315 to R317, R328, R329, R352, R375, R384 to R386), of the MSI-X tables (R203) and of the configuration-space
fields the rules act on (R191 to R205; their places are PRESUMED from the base specification, log entry 5). -/

namespace Sys2Proof.Machine

/-- A register field. Instance numbers (ring pair, engine, function, PC, ...) are given beside the name where the field
is read or written. -/
inductive FN where
  -- RIP
  | ripProfWord
  | ripPinfoN
  | ripPinfoTol
  | ripPinfoState
  | ripPinfoReason
  | ripPloadLoaded
  | ripPloadRejected
  | ripPloadVerifyMs
  | ripPloadVerifyDone
  | ripPlansCount
  | ripPlanBusyCount
  | ripPlanMaxlatMaxlat
  | ripSchedRejCount
  -- JOB
  | jobRqSqbaseLoAddr
  | jobRqSqbaseHiAddr
  | jobRqCqbaseLoAddr
  | jobRqCqbaseHiAddr
  | jobRqCfgLog2size
  | jobRqCfgHomePond
  | jobRqCfgFunc
  | jobRqCfgAlloc
  | jobRqCtrlEn
  | jobRqCtrlReset
  | jobRqCtrlDropInt
  | jobRqSqHead
  | jobRqSqLap
  | jobRqCqTail
  | jobRqCqPhase
  | jobRqDbSqTail
  | jobRqDbCqHead
  | jobRqIrqVector
  | jobRqIrqCoalCnt
  | jobRqIrqCoalUs
  | jobRqCancelSlot
  | jobRqCancelGen
  | jobRqCancelGo
  | jobRqStatusIdle
  | jobRqStatusCfgReject
  | jobRqStatusDbErr
  | jobRqStatusFetchHeld
  | jobRqStatusIntPending
  | jobRqStatusOutstanding
  | jobRqStaleCount
  | jobRqCmissCount
  -- ENG
  | engCtrlOfflineReq
  | engCtrlSelftest
  | engStateState
  | engStateLastCause
  | engTasksCount
  | engFencesCount
  | engPondCtrlStealEn
  | engPondDqDepth
  | engPondStealsCount
  | engPondStolenCount
  | engPondSkipsCount
  | engPondMaxdqMax
  | engCfgStealTdelta
  | engCfgJobTaskCap
  | engCfgRejoinLimit
  | engStatusOnline
  | engStatusFenced
  | engStatusOffline
  | engVaeChecksCount
  | engVaeMismatchCount
  | engStaleTokCount
  | engRequeuesCount
  | engTaskFailCount
  | engVaeSameCount
  -- SEAL
  | sealEpochLoEpoch
  | sealEpochHiEpoch
  | sealAutoAutoN
  | sealFcfgEnc
  | sealLogBaseLoAddr
  | sealLogBaseHiAddr
  | sealLogCfgLog2size
  | sealLogCfgVector
  | sealLogCfgLogEn
  | sealLogPtrTail
  | sealLogPtrPhase
  | sealLogHeadHead
  | sealStatusEpochReg
  | sealStatusCfgReject
  | sealStatusLogFull
  | sealStatusSealing
  | sealBseqLoSeq
  | sealBseqHiSeq
  | sealOpenEntries
  | sealLastLoEpoch
  | sealLastHiEpoch
  | sealEpochRejCount
  | sealKeyVer
  | sealKeyState
  | sealKactLoEpoch
  | sealKactHiEpoch
  | sealKuseCount
  | sealChainId
  -- LCS
  | lcsStateState
  | lcsStatePendingChange
  | lcsStateCertOk
  | lcsStateOwnerOk
  | lcsStateOwnerSlot
  | lcsStateHold
  | lcsArbCount
  | lcsArbFwSvn
  | lcsTamperVolt
  | lcsTamperClock
  | lcsTamperTemp
  | lcsTamperMesh
  | lcsTamperLcWipe
  | lcsTamperStackPending
  | lcsTamperCount
  | lcsMboxCtrlGo
  | lcsMboxStatusBusy
  | lcsMboxStatusDone
  | lcsMboxStatusOverrun
  | lcsMboxStatusResult
  | lcsMboxStatusOutLen
  | lcsMboxBufData
  -- TARN
  | tarnStatusKeypathOpen
  | tarnStatusWiped
  | tarnCollRwCount
  | tarnCollWwCount
  | tarnWipesCount
  | tarnKqResetsCount
  -- PCX
  | pcxLinkStatusRate
  | pcxLinkStatusWidth
  | pcxLinkStatusFlit
  | pcxLinkStatusReversed
  | pcxLinkStatusL0pReduced
  | pcxLinkStatusDlUp
  | pcxLinkStatusPrecodeTx
  | pcxLinkStatusLtssm
  | pcxPolarityInv
  | pcxPrecodeTx
  | pcxPrecodeRx
  | pcxLinkCfgMaxRate
  | pcxLinkCfgMaxWidth
  | pcxLinkCfgRxPrecodeReq
  | pcxLinkCfgL0pInit
  | pcxL0pMinWidth
  | pcxL0pIdleUs
  | pcxStatusBar2Early
  | pcxStatusDbEarly
  | pcxStatusWidthDegraded
  | pcxStatusRateDegraded
  | pcxRecoveriesCount
  | pcxLinkdownsCount
  | pcxFecCorrCount
  | pcxReplaysCount
  | pcxCplTimeoutsCount
  | pcxUnexpCplCount
  | pcxTagsOutstanding
  | pcxTagsTagsHeld
  | pcxLaneFailLanes
  -- DRC
  | drcBasinCfgEn
  | drcBasinCfgGrain
  | drcBasinCfgOwner
  | drcBasinCfgJournal
  | drcBasinBaseBase
  | drcBasinLocLbase
  | drcBasinLocExt
  | drcBasinPcmaskLoMask
  | drcBasinPcmaskHiMask
  | drcBasinSizeSize
  | drcCtrlSrAuto
  | drcCtrlSrIdleUs
  | drcCtrlAgeCap
  | drcCtrlRefForce2x
  | drcRfmRfmTh
  | drcWrqWrHi
  | drcWrqWrLo
  | drcStatusCfgReject
  | drcStatusBar2Hole
  | drcStatusBar2Poison
  | drcStatusBar2Therm
  | drcStatusZeroing
  | drcBar2HolesCount
  | drcBar2MaxlatMaxlat
  | drcRetiredLoMask
  | drcRetiredHiMask
  | drcRef2xLoMask
  | drcRef2xHiMask
  | drcSrLoMask
  | drcSrHiMask
  | drcPcStateState
  | drcPcStateRef2x
  | drcPcStateUrgent
  | drcPcStateRefTemp
  | drcPcRefsCount
  | drcPcPpmaxMax
  | drcPcUrgentCount
  | drcPcRfmCount
  | drcPcSrCount
  | drcPcSrheldCount
  | drcPcQmaxMax
  | drcPcRowhitCount
  | drcPcRowmissCount
  | drcPcAgedCount
  -- LAKE
  | lakeCtrlFlush
  | lakeStatusFlushing
  | lakeStatusQuadOn
  | lakeSysWaysMask
  | lakeWaysOffCount
  | lakeArrCeCount
  | lakeArrUeCount
  | lakeSetsBlockedCount
  | lakePoisonSetCount
  | lakeWaysMask
  -- EVT
  | evtPop0Word0
  | evtPop1Word1
  | evtPop2Word2
  | evtPop3Word3
  | evtCountCount
  | evtLostCount
  -- WEIR
  | weirPortRateRate
  | weirPortBurstBurst
  | weirPortEffEff
  | weirPortEffClamped
  | weirPortHeldCount
  | weirPortLinesCount
  | weirPortInfoKind
  | weirGrpCfgGuar
  | weirGrpCfgAdmitted
  | weirGrpCfgPrioBase
  | weirGrpCfgQmin
  | weirGrpCfgQmax
  | weirGrpRateGRate
  | weirGrpEffGEff
  | weirGrpLatLatTarget
  | weirGrpLatavgAvg
  | weirGrpLatavgPrio
  | weirGrpMissCount
  | weirGrpSpillCount
  | weirGrpAgedCount
  | weirCtrlAgeLimit
  | weirStatusGuarScaled
  | weirStatusAdmitDemoted
  | weirStatusClamp
  | weirStatusSysDemoted
  | weirDnomD
  | weirDnowD
  | weirGsumSum
  | weirScaleScale
  | weirDemotedLoMask
  | weirDemotedHiMask
  | weirScaleEventsCount
  -- VLK
  | vlkPcSpares
  | vlkPcErased
  | vlkPcDegraded
  | vlkPcExhausted
  | vlkPcErase0
  | vlkPcErase1
  | vlkPcShifts
  | vlkPcBadBad0
  | vlkPcBadBad1
  | vlkPcBadBad2
  | vlkPcBadBad3
  | vlkPcSuspectLane
  | vlkPcSuspectValid
  | vlkCaBad0
  | vlkCaBad1
  | vlkCaSpares
  | vlkCaFailed
  | vlkCtrlAutoShift
  | vlkCtrlLaneTh
  | vlkCtrlLaneWin
  | vlkDegLoMask
  | vlkDegHiMask
  | vlkShiftReqPc
  | vlkShiftReqLane
  | vlkShiftReqGo
  -- INTEG
  | integCeLocPc
  | integCeLocBg
  | integCeLocBank
  | integCeLocCol
  | integCeLocSymbol
  | integCeLocValid
  | integCeRowRow
  | integCeCntCount
  | integCeTimeLoTime
  | integCeTimeHiTime
  | integPcCeCount
  | integPcUeCount
  | integPcRetryCount
  | integPcSpareUsed
  | integCtrlDegLogMs
  | integStatusCeFull
  | integStatusDrOverrun
  | integStatusRetReject
  | integStatusDrBusy
  | integStatusBehind
  | integCeDropCount
  | integRecBadCount
  | integDrOfsLoOfs
  | integDrOfsHiOfs
  | integDrLenLoLen
  | integDrLenHiLen
  | integDrCtrlGo
  | integDrCtrlStop
  | integDrSumData
  | integDrEveryEvery
  | integDrRcfgRoundGib
  | integDrCursorLoCursor
  | integDrCursorHiCursor
  | integDrNextLoEpoch
  | integDrNextHiEpoch
  | integDrRoundsCount
  | integDrMissedCount
  | integDrUeCount
  | integRetRowRow
  | integRetCmdPc
  | integRetCmdBg
  | integRetCmdBank
  | integRetCmdOp
  | integRetCmdGo
  | integRetStatusBusy
  | integRetStatusResult
  | integRetStatusSpare
  -- THM
  | thmSensTemp
  | thmSensStale
  | thmSensFailed
  | thmRefsTemp
  | thmRefsStale
  | thmRefsFailed
  | thmLayerTMeas
  | thmLayerTModel
  | thmLayerGGov
  | thmLayerGSuspect
  | thmLayerGStale
  | thmLayerGRate
  | thmCtrlGrace
  | thmCtrlTf
  | thmCtrlResume
  | thmStatusWarnLogic
  | thmStatusWarnDram
  | thmStatusTstate
  | thmStatusStackSuspect
  | thmStatusAnySuspect
  | thmStatusThReject
  | thmStatusResumeEarly
  | thmStatusThrReq
  | thmLogicThWarn
  | thmLogicThThrottle
  | thmLogicThShutdown
  | thmLogicThHyst
  | thmDramThWarn
  | thmDramThThrottle
  | thmDramThShutdown
  | thmDramThHyst
  | thmPeakLogic
  | thmPeakDram
  | thmReqsCount
  | thmEnfUsTime
  | thmShutdownsCount
  | thmSuspectsCount
  -- PWR
  | pwrDomOffReq
  | pwrDomState
  | pwrWakeCount
  | pwrHeldCount
  | pwrCapLimit
  | pwrCapPtf
  | pwrStatusCapped
  | pwrStatusAvg
  | pwrCapsCount
  -- CAL
  | calCtrlCalDelta
  | calCtrlForce
  | calStatusRunning
  | calStatusRecBad
  | calStatusRecWrFail
  | calStatusDeferred
  | calRunsCount
  | calRecSeqSeq
  | calRecWritesCount
  -- EVT
  | evtRouteEn
  | evtRouteRing
  | evtRingCfgVector
  | evtRingCfgEn
  -- FLT
  | fltRecW0
  | fltRecSrcW1
  | fltRecArgW2
  | fltRecLocW3
  | fltRecDetW4
  | fltRecTimeLoTime
  | fltRecTimeHiTime
  | fltStateState
  | fltStateFaultPin
  | fltStateThermPin
  | fltStatePending
  | fltQueueHead
  | fltQueueCount
  | fltReleaseN
  | fltOvfCount
  | fltCtrlQuietMs
  | fltInjectSource
  | fltInjectInvalid
  | fltInjectArg
  | fltInjectGo
  | fltRecoveriesCount
  | fltCntCCount
  | fltCntUCount
  | fltCntFCount
  | fltLastFCause
  | fltLastFSource
  | fltRailbadMask
  -- BOOT
  | bootStatusState
  | bootStatusStep
  | bootStatusReason
  | bootStatusSlot
  | bootStatusWarm
  | bootStatusStackKept
  | bootStatusTarnKept
  | bootStatusCfgReloaded
  | bootStatusStackValid
  | bootStatusAttempts
  | bootCtrlStackRetain
  | bootCtrlClearBad
  | bootCtrlNextB
  | bootImgSeqSeq
  | bootFwVerVer
  | bootCfgVerVer
  | bootBadASeq
  | bootBadBSeq
  | bootTimeMs
  | bootSpiMode
  | bootSpiMhz
  | bootSpiHdrCopy
  | bootSbIanaNum
  | bootLastData
  | bootFlAddrAddr
  | bootFlCmdOp
  | bootFlCmdGo
  | bootFlStatusBusy
  | bootFlStatusDone
  | bootFlStatusResult
  | bootFlBufData
  -- OTP
  | otpStatusMarginal
  | otpStatusProgBusy
  | otpRegionValid
  | otpRegionLocked
  | otpRegionForced
  | otpRegionEmpty
  | otpRegionMarginal
  | otpMargFirstBit
  | otpMargFirstValid
  | otpProgOpsCount
  | otpProgFailsCount
  | otpRepIgnoredCount
  | otpTrimFmax
  | otpTrimRefConservative
  | otpShadowData
  -- BIST
  | bistCtrlAbort
  | bistStatusState
  | bistStatusHeldVolt
  | bistStatusHeldClk
  | bistStatusHeldTemp
  | bistStatusDestructive
  | bistStatusResult
  | bistTimeUs
  | bistFailOvfCount
  | bistSoftWaysCount
  | bistTestResult
  | bistTestFull
  | bistTestFails
  | bistFailData
  -- PMC
  | pmcSelEvent
  | pmcSelEn
  | pmcSelClear
  | pmcCntLoCount
  | pmcCntHiCount
  | pmcCtrlFreeze
  | pmcCtrlClearAll
  | pmcOvfLoMask
  | pmcOvfHiMask
  | pmcUserReadLoMask
  | pmcUserReadHiMask
  | pmcBwCfgWindowUs
  | pmcBwSeqSeq
  | pmcBwRate
  | pmcBwPeakRate
  | pmcVfSelEvent
  | pmcVfSelEn
  | pmcVfSelClear
  | pmcVfCntLoCount
  | pmcVfCntHiCount
  | pmcVfStatusOvf
  | pmcVfStatusSelReject
  | pmcVfStatusUserRead
  -- DEV
  | devIdPart
  | devIdStepping
  | devStatusNarrowWr
  | devTimerLoTime
  | devTimerHiTime
  -- JOB
  | jobStatusAnyReject
  | jobStatusAnyDbErr
  -- MSIX
  | msixAddrLo
  | msixAddrHi
  | msixData
  | msixMask
  | msixPba
  -- CFG
  | cfgMse
  | cfgBme
  | cfgPmState
  | cfgEro
  | cfgMps
  | cfgEns
  | cfgMrrs
  | cfgFlr
  | cfgAspm
  | cfgRetrain
  | cfgCtoValue
  | cfgCtoDisable
  | cfgTag10En
  | cfgMsixFuncMask
  | cfgMsixEn
  | cfgAerUncStatus
  | cfgAerUncMask
  | cfgAerUncSev
  | cfgAerCorStatus
  | cfgAerCorMask
  | cfgVfEnable
  | cfgVfMse
  | cfgAriHier
  | cfgNumVfs
  | cfgTag14En
  | cfgL0pEn
  | cfgDoeIrqEn
  | cfgDoeBusy
  | cfgDoeError
  | cfgDoeReady
  | cfgBar0Lo
  | cfgBar0Hi
  | cfgBar2Hi
  | cfgBar4Lo
  | cfgBar4Hi
  | cfgAerFep
  | cfgAerEcrcGen
  | cfgAerEcrcChk
  | cfgAerHdr
  | cfgSysPage
  | cfgVfBar0Lo
  | cfgVfBar0Hi
  | cfgVfBar2Lo
  | cfgVfBar2Hi
  | cfgVfBar4Lo
  | cfgVfBar4Hi
  | cfgDoeAbort
  | cfgDoeGo
  | cfgDoeWrite
  | cfgDoeRead
  | cfgIdeSelCtl
  | cfgIdeRidLimit
  | cfgIdeRidValid
  | cfgIdeRidBase
  | cfgIdeAddr0A
  | cfgIdeAddr0B
  | cfgIdeAddr0C
  | cfgIdeAddr1A
  | cfgIdeAddr1B
  | cfgIdeAddr1C
  deriving DecidableEq, Repr

end Sys2Proof.Machine
end

