-- ==== Sys2Proof/Machine/RegTable.lean ====
section
/-! DEFINITION. The register tables of spec/: where each field of `FN` stands, how many instances it has, its access code
(R5), change class (R7), cold value and what a warm start does with it (R10). The offset of instance (i, j) is
off + si·i + sj·j from PF0 BAR0. Three ranges above BAR0's 16 MiB are the model's own canonical places, which no access of
PF0 reaches: VF counter pages at 0x100_0000 + 0x1000·v (R385), MSI-X tables at 0x200_0000 + 0x1000·f with the pending
array at + 0x800 (R193, R203), configuration space at 0x400_0000 + 0x1000·f (R191). -/

namespace Sys2Proof.Machine

/-- Access codes with their change classes (R5, R7). -/
inductive Acc where
  | ro | rwL | rwB | rwS | rw1c | wo | rc
  deriving DecidableEq, Repr

/-- What a warm start does with a field: keeps it, sets a value, or the start's own steps set it ("current"). -/
inductive Warm where
  | kept | to (v : Nat) | start
  deriving DecidableEq, Repr

/-- Where the cold value comes from: the table's own number, the configuration image ("image"), or the start's own steps
("current", "fixed"). `cold` of the last two is the model's value before a first start (log entry 3). -/
inductive ColdSrc where
  | value | image | start
  deriving DecidableEq, Repr

/-- One row of the register tables. -/
structure FieldRow where
  off : Nat
  si : Nat
  ni : Nat
  sj : Nat
  nj : Nat
  msb : Nat
  lsb : Nat
  acc : Acc
  cold : Nat
  src : ColdSrc
  warm : Warm
  deriving DecidableEq, Repr

/-- The row of each field. -/
def FN.row : FN → FieldRow
  | .ripProfWord => ⟨0xA0000, 0x4, 32, 0x0, 1, 31, 0, .ro, 0, .start, .kept⟩
  | .ripPinfoN => ⟨0xA0080, 0x4, 32, 0x0, 1, 7, 0, .ro, 0, .start, .kept⟩
  | .ripPinfoTol => ⟨0xA0080, 0x4, 32, 0x0, 1, 12, 8, .ro, 0, .start, .kept⟩
  | .ripPinfoState => ⟨0xA0080, 0x4, 32, 0x0, 1, 18, 16, .ro, 0, .start, .kept⟩
  | .ripPinfoReason => ⟨0xA0080, 0x4, 32, 0x0, 1, 27, 24, .ro, 0, .value, .kept⟩
  | .ripPloadLoaded => ⟨0xA0100, 0x0, 1, 0x0, 1, 5, 0, .ro, 6, .value, .kept⟩
  | .ripPloadRejected => ⟨0xA0100, 0x0, 1, 0x0, 1, 13, 8, .ro, 0, .value, .kept⟩
  | .ripPloadVerifyMs => ⟨0xA0100, 0x0, 1, 0x0, 1, 23, 16, .ro, 0, .value, .kept⟩
  | .ripPloadVerifyDone => ⟨0xA0100, 0x0, 1, 0x0, 1, 31, 31, .ro, 0, .value, .kept⟩
  | .ripPlansCount => ⟨0xA0200, 0x0, 1, 0x0, 1, 31, 0, .ro, 0, .value, .kept⟩
  | .ripPlanBusyCount => ⟨0xA0204, 0x0, 1, 0x0, 1, 31, 0, .ro, 0, .value, .kept⟩
  | .ripPlanMaxlatMaxlat => ⟨0xA0208, 0x0, 1, 0x0, 1, 15, 0, .rc, 0, .value, (.to 0)⟩
  | .ripSchedRejCount => ⟨0xA020C, 0x0, 1, 0x0, 1, 31, 0, .ro, 0, .value, .kept⟩
  | .jobRqSqbaseLoAddr => ⟨0x60000, 0x40, 256, 0x0, 1, 31, 12, .rwS, 0, .value, .kept⟩
  | .jobRqSqbaseHiAddr => ⟨0x60004, 0x40, 256, 0x0, 1, 31, 0, .rwS, 0, .value, .kept⟩
  | .jobRqCqbaseLoAddr => ⟨0x60008, 0x40, 256, 0x0, 1, 31, 12, .rwS, 0, .value, .kept⟩
  | .jobRqCqbaseHiAddr => ⟨0x6000C, 0x40, 256, 0x0, 1, 31, 0, .rwS, 0, .value, .kept⟩
  | .jobRqCfgLog2size => ⟨0x60010, 0x40, 256, 0x0, 1, 4, 0, .ro, 0, .image, .kept⟩
  | .jobRqCfgHomePond => ⟨0x60010, 0x40, 256, 0x0, 1, 10, 8, .rwS, 0, .image, .kept⟩
  | .jobRqCfgFunc => ⟨0x60010, 0x40, 256, 0x0, 1, 21, 16, .ro, 0, .image, .kept⟩
  | .jobRqCfgAlloc => ⟨0x60010, 0x40, 256, 0x0, 1, 31, 31, .ro, 0, .image, .kept⟩
  | .jobRqCtrlEn => ⟨0x60014, 0x40, 256, 0x0, 1, 0, 0, .rwL, 0, .value, (.to 0)⟩
  | .jobRqCtrlReset => ⟨0x60014, 0x40, 256, 0x0, 1, 1, 1, .wo, 0, .value, (.to 0)⟩
  | .jobRqCtrlDropInt => ⟨0x60014, 0x40, 256, 0x0, 1, 2, 2, .wo, 0, .value, (.to 0)⟩
  | .jobRqSqHead => ⟨0x60018, 0x40, 256, 0x0, 1, 15, 0, .ro, 0, .value, .kept⟩
  | .jobRqSqLap => ⟨0x60018, 0x40, 256, 0x0, 1, 19, 16, .ro, 0, .value, .kept⟩
  | .jobRqCqTail => ⟨0x6001C, 0x40, 256, 0x0, 1, 15, 0, .ro, 0, .value, .kept⟩
  | .jobRqCqPhase => ⟨0x6001C, 0x40, 256, 0x0, 1, 16, 16, .ro, 1, .value, .kept⟩
  | .jobRqDbSqTail => ⟨0x60020, 0x40, 256, 0x0, 1, 15, 0, .ro, 0, .value, .start⟩
  | .jobRqDbCqHead => ⟨0x60020, 0x40, 256, 0x0, 1, 31, 16, .ro, 0, .value, .kept⟩
  | .jobRqIrqVector => ⟨0x60024, 0x40, 256, 0x0, 1, 6, 0, .rwS, 0, .image, .kept⟩
  | .jobRqIrqCoalCnt => ⟨0x60024, 0x40, 256, 0x0, 1, 15, 8, .rwL, 1, .value, .kept⟩
  | .jobRqIrqCoalUs => ⟨0x60024, 0x40, 256, 0x0, 1, 25, 16, .rwL, 0, .value, .kept⟩
  | .jobRqCancelSlot => ⟨0x60028, 0x40, 256, 0x0, 1, 15, 0, .wo, 0, .value, (.to 0)⟩
  | .jobRqCancelGen => ⟨0x60028, 0x40, 256, 0x0, 1, 19, 16, .wo, 0, .value, (.to 0)⟩
  | .jobRqCancelGo => ⟨0x60028, 0x40, 256, 0x0, 1, 31, 31, .wo, 0, .value, (.to 0)⟩
  | .jobRqStatusIdle => ⟨0x6002C, 0x40, 256, 0x0, 1, 0, 0, .ro, 1, .value, (.to 1)⟩
  | .jobRqStatusCfgReject => ⟨0x6002C, 0x40, 256, 0x0, 1, 1, 1, .rw1c, 0, .value, (.to 0)⟩
  | .jobRqStatusDbErr => ⟨0x6002C, 0x40, 256, 0x0, 1, 2, 2, .rw1c, 0, .value, (.to 0)⟩
  | .jobRqStatusFetchHeld => ⟨0x6002C, 0x40, 256, 0x0, 1, 3, 3, .ro, 0, .value, (.to 0)⟩
  | .jobRqStatusIntPending => ⟨0x6002C, 0x40, 256, 0x0, 1, 4, 4, .ro, 0, .value, .start⟩
  | .jobRqStatusOutstanding => ⟨0x6002C, 0x40, 256, 0x0, 1, 31, 16, .ro, 0, .value, .start⟩
  | .jobRqStaleCount => ⟨0x60030, 0x40, 256, 0x0, 1, 31, 0, .rc, 0, .value, (.to 0)⟩
  | .jobRqCmissCount => ⟨0x60034, 0x40, 256, 0x0, 1, 31, 0, .rc, 0, .value, (.to 0)⟩
  | .engCtrlOfflineReq => ⟨0x80000, 0x40, 48, 0x0, 1, 0, 0, .rwB, 0, .value, .kept⟩
  | .engCtrlSelftest => ⟨0x80000, 0x40, 48, 0x0, 1, 1, 1, .wo, 0, .value, (.to 0)⟩
  | .engStateState => ⟨0x80004, 0x40, 48, 0x0, 1, 2, 0, .ro, 1, .value, (.to 1)⟩
  | .engStateLastCause => ⟨0x80004, 0x40, 48, 0x0, 1, 11, 8, .ro, 0, .value, .kept⟩
  | .engTasksCount => ⟨0x80008, 0x40, 48, 0x0, 1, 31, 0, .ro, 0, .value, .kept⟩
  | .engFencesCount => ⟨0x8000C, 0x40, 48, 0x0, 1, 31, 0, .ro, 0, .value, .kept⟩
  | .engPondCtrlStealEn => ⟨0x81000, 0x40, 6, 0x0, 1, 0, 0, .rwL, 1, .value, .kept⟩
  | .engPondDqDepth => ⟨0x81004, 0x40, 6, 0x0, 1, 9, 0, .ro, 0, .value, (.to 0)⟩
  | .engPondStealsCount => ⟨0x81008, 0x40, 6, 0x0, 1, 31, 0, .ro, 0, .value, .kept⟩
  | .engPondStolenCount => ⟨0x8100C, 0x40, 6, 0x0, 1, 31, 0, .ro, 0, .value, .kept⟩
  | .engPondSkipsCount => ⟨0x81010, 0x40, 6, 0x0, 1, 31, 0, .ro, 0, .value, .kept⟩
  | .engPondMaxdqMax => ⟨0x81014, 0x40, 6, 0x0, 1, 9, 0, .rc, 0, .value, (.to 0)⟩
  | .engCfgStealTdelta => ⟨0x82000, 0x0, 1, 0x0, 1, 4, 0, .rwL, 2, .value, .kept⟩
  | .engCfgJobTaskCap => ⟨0x82000, 0x0, 1, 0x0, 1, 14, 8, .rwB, 64, .value, .kept⟩
  | .engCfgRejoinLimit => ⟨0x82000, 0x0, 1, 0x0, 1, 19, 16, .rwL, 3, .value, .kept⟩
  | .engStatusOnline => ⟨0x82004, 0x0, 1, 0x0, 1, 5, 0, .ro, 48, .value, .kept⟩
  | .engStatusFenced => ⟨0x82004, 0x0, 1, 0x0, 1, 13, 8, .ro, 0, .value, (.to 0)⟩
  | .engStatusOffline => ⟨0x82004, 0x0, 1, 0x0, 1, 21, 16, .ro, 0, .value, .kept⟩
  | .engVaeChecksCount => ⟨0x82008, 0x0, 1, 0x0, 1, 31, 0, .ro, 0, .value, .kept⟩
  | .engVaeMismatchCount => ⟨0x8200C, 0x0, 1, 0x0, 1, 31, 0, .ro, 0, .value, .kept⟩
  | .engStaleTokCount => ⟨0x82010, 0x0, 1, 0x0, 1, 31, 0, .rc, 0, .value, (.to 0)⟩
  | .engRequeuesCount => ⟨0x82014, 0x0, 1, 0x0, 1, 31, 0, .ro, 0, .value, .kept⟩
  | .engTaskFailCount => ⟨0x82018, 0x0, 1, 0x0, 1, 31, 0, .ro, 0, .value, .kept⟩
  | .engVaeSameCount => ⟨0x8201C, 0x0, 1, 0x0, 1, 31, 0, .ro, 0, .value, .kept⟩
  | .sealEpochLoEpoch => ⟨0xB0000, 0x100, 64, 0x0, 1, 31, 0, .rwL, 0, .value, .kept⟩
  | .sealEpochHiEpoch => ⟨0xB0004, 0x100, 64, 0x0, 1, 31, 0, .rwL, 0, .value, .kept⟩
  | .sealAutoAutoN => ⟨0xB0008, 0x100, 64, 0x0, 1, 31, 0, .rwL, 0, .image, .kept⟩
  | .sealFcfgEnc => ⟨0xB000C, 0x100, 64, 0x0, 1, 0, 0, .ro, 0, .image, .kept⟩
  | .sealLogBaseLoAddr => ⟨0xB0010, 0x100, 64, 0x0, 1, 31, 12, .rwS, 0, .value, .kept⟩
  | .sealLogBaseHiAddr => ⟨0xB0014, 0x100, 64, 0x0, 1, 31, 0, .rwS, 0, .value, .kept⟩
  | .sealLogCfgLog2size => ⟨0xB0018, 0x100, 64, 0x0, 1, 4, 0, .rwS, 0, .value, .kept⟩
  | .sealLogCfgVector => ⟨0xB0018, 0x100, 64, 0x0, 1, 14, 8, .rwS, 0, .image, .kept⟩
  | .sealLogCfgLogEn => ⟨0xB0018, 0x100, 64, 0x0, 1, 31, 31, .rwB, 0, .value, .kept⟩
  | .sealLogPtrTail => ⟨0xB001C, 0x100, 64, 0x0, 1, 15, 0, .ro, 0, .value, .kept⟩
  | .sealLogPtrPhase => ⟨0xB001C, 0x100, 64, 0x0, 1, 16, 16, .ro, 1, .value, .kept⟩
  | .sealLogHeadHead => ⟨0xB0020, 0x100, 64, 0x0, 1, 15, 0, .rwL, 0, .value, .kept⟩
  | .sealStatusEpochReg => ⟨0xB0024, 0x100, 64, 0x0, 1, 0, 0, .rw1c, 0, .value, (.to 0)⟩
  | .sealStatusCfgReject => ⟨0xB0024, 0x100, 64, 0x0, 1, 1, 1, .rw1c, 0, .value, (.to 0)⟩
  | .sealStatusLogFull => ⟨0xB0024, 0x100, 64, 0x0, 1, 2, 2, .ro, 0, .value, (.to 0)⟩
  | .sealStatusSealing => ⟨0xB0024, 0x100, 64, 0x0, 1, 3, 3, .ro, 0, .value, (.to 0)⟩
  | .sealBseqLoSeq => ⟨0xB0028, 0x100, 64, 0x0, 1, 31, 0, .ro, 0, .value, .kept⟩
  | .sealBseqHiSeq => ⟨0xB002C, 0x100, 64, 0x0, 1, 31, 0, .ro, 0, .value, .kept⟩
  | .sealOpenEntries => ⟨0xB0030, 0x100, 64, 0x0, 1, 31, 0, .ro, 0, .value, .kept⟩
  | .sealLastLoEpoch => ⟨0xB0034, 0x100, 64, 0x0, 1, 31, 0, .ro, 0, .value, .kept⟩
  | .sealLastHiEpoch => ⟨0xB0038, 0x100, 64, 0x0, 1, 31, 0, .ro, 0, .value, .kept⟩
  | .sealEpochRejCount => ⟨0xB003C, 0x100, 64, 0x0, 1, 31, 0, .rc, 0, .value, (.to 0)⟩
  | .sealKeyVer => ⟨0xB0040, 0x100, 64, 0x10, 8, 15, 0, .ro, 0, .value, .kept⟩
  | .sealKeyState => ⟨0xB0040, 0x100, 64, 0x10, 8, 18, 16, .ro, 0, .value, .kept⟩
  | .sealKactLoEpoch => ⟨0xB0044, 0x100, 64, 0x10, 8, 31, 0, .ro, 0, .value, .kept⟩
  | .sealKactHiEpoch => ⟨0xB0048, 0x100, 64, 0x10, 8, 31, 0, .ro, 0, .value, .kept⟩
  | .sealKuseCount => ⟨0xB004C, 0x100, 64, 0x10, 8, 31, 0, .ro, 0, .value, .kept⟩
  | .sealChainId => ⟨0xB00C0, 0x100, 64, 0x4, 4, 31, 0, .ro, 0, .value, .kept⟩
  | .lcsStateState => ⟨0x30000, 0x0, 1, 0x0, 1, 2, 0, .ro, 0, .start, .start⟩
  | .lcsStatePendingChange => ⟨0x30000, 0x0, 1, 0x0, 1, 3, 3, .ro, 0, .value, (.to 0)⟩
  | .lcsStateCertOk => ⟨0x30000, 0x0, 1, 0x0, 1, 4, 4, .ro, 0, .start, .start⟩
  | .lcsStateOwnerOk => ⟨0x30000, 0x0, 1, 0x0, 1, 5, 5, .ro, 0, .start, .start⟩
  | .lcsStateOwnerSlot => ⟨0x30000, 0x0, 1, 0x0, 1, 7, 6, .ro, 0, .start, .start⟩
  | .lcsStateHold => ⟨0x30000, 0x0, 1, 0x0, 1, 8, 8, .ro, 0, .value, (.to 0)⟩
  | .lcsArbCount => ⟨0x30004, 0x0, 1, 0x0, 1, 7, 0, .ro, 0, .start, .start⟩
  | .lcsArbFwSvn => ⟨0x30004, 0x0, 1, 0x0, 1, 15, 8, .ro, 0, .start, .start⟩
  | .lcsTamperVolt => ⟨0x30008, 0x0, 1, 0x0, 1, 0, 0, .rw1c, 0, .value, .kept⟩
  | .lcsTamperClock => ⟨0x30008, 0x0, 1, 0x0, 1, 1, 1, .rw1c, 0, .value, .kept⟩
  | .lcsTamperTemp => ⟨0x30008, 0x0, 1, 0x0, 1, 2, 2, .rw1c, 0, .value, .kept⟩
  | .lcsTamperMesh => ⟨0x30008, 0x0, 1, 0x0, 1, 3, 3, .rw1c, 0, .value, .kept⟩
  | .lcsTamperLcWipe => ⟨0x30008, 0x0, 1, 0x0, 1, 4, 4, .rw1c, 0, .value, .kept⟩
  | .lcsTamperStackPending => ⟨0x30008, 0x0, 1, 0x0, 1, 5, 5, .ro, 0, .value, .kept⟩
  | .lcsTamperCount => ⟨0x30008, 0x0, 1, 0x0, 1, 15, 8, .ro, 0, .value, .kept⟩
  | .lcsMboxCtrlGo => ⟨0x3000C, 0x0, 1, 0x0, 1, 0, 0, .wo, 0, .value, (.to 0)⟩
  | .lcsMboxStatusBusy => ⟨0x30010, 0x0, 1, 0x0, 1, 0, 0, .ro, 0, .value, (.to 0)⟩
  | .lcsMboxStatusDone => ⟨0x30010, 0x0, 1, 0x0, 1, 1, 1, .rw1c, 0, .value, (.to 0)⟩
  | .lcsMboxStatusOverrun => ⟨0x30010, 0x0, 1, 0x0, 1, 2, 2, .rw1c, 0, .value, (.to 0)⟩
  | .lcsMboxStatusResult => ⟨0x30010, 0x0, 1, 0x0, 1, 15, 8, .ro, 0, .value, (.to 0)⟩
  | .lcsMboxStatusOutLen => ⟨0x30010, 0x0, 1, 0x0, 1, 26, 16, .ro, 0, .value, (.to 0)⟩
  | .lcsMboxBufData => ⟨0x30400, 0x4, 256, 0x0, 1, 31, 0, .rwL, 0, .value, (.to 0)⟩
  | .tarnStatusKeypathOpen => ⟨0x40000, 0x0, 1, 0x0, 1, 0, 0, .ro, 0, .value, .kept⟩
  | .tarnStatusWiped => ⟨0x40000, 0x0, 1, 0x0, 1, 1, 1, .ro, 1, .value, .kept⟩
  | .tarnCollRwCount => ⟨0x40004, 0x0, 1, 0x0, 1, 31, 0, .rc, 0, .value, (.to 0)⟩
  | .tarnCollWwCount => ⟨0x40008, 0x0, 1, 0x0, 1, 31, 0, .rc, 0, .value, (.to 0)⟩
  | .tarnWipesCount => ⟨0x4000C, 0x0, 1, 0x0, 1, 31, 0, .ro, 0, .value, .kept⟩
  | .tarnKqResetsCount => ⟨0x40010, 0x0, 1, 0x0, 1, 31, 0, .ro, 0, .value, .kept⟩
  | .pcxLinkStatusRate => ⟨0x50000, 0x0, 1, 0x0, 1, 3, 0, .ro, 0, .start, .start⟩
  | .pcxLinkStatusWidth => ⟨0x50000, 0x0, 1, 0x0, 1, 9, 4, .ro, 0, .start, .start⟩
  | .pcxLinkStatusFlit => ⟨0x50000, 0x0, 1, 0x0, 1, 10, 10, .ro, 0, .start, .start⟩
  | .pcxLinkStatusReversed => ⟨0x50000, 0x0, 1, 0x0, 1, 11, 11, .ro, 0, .start, .start⟩
  | .pcxLinkStatusL0pReduced => ⟨0x50000, 0x0, 1, 0x0, 1, 12, 12, .ro, 0, .value, (.to 0)⟩
  | .pcxLinkStatusDlUp => ⟨0x50000, 0x0, 1, 0x0, 1, 13, 13, .ro, 0, .start, .start⟩
  | .pcxLinkStatusPrecodeTx => ⟨0x50000, 0x0, 1, 0x0, 1, 14, 14, .ro, 0, .start, .start⟩
  | .pcxLinkStatusLtssm => ⟨0x50000, 0x0, 1, 0x0, 1, 19, 16, .ro, 0, .start, .start⟩
  | .pcxPolarityInv => ⟨0x50004, 0x0, 1, 0x0, 1, 15, 0, .ro, 0, .start, .start⟩
  | .pcxPrecodeTx => ⟨0x50008, 0x0, 1, 0x0, 1, 15, 0, .ro, 0, .start, .start⟩
  | .pcxPrecodeRx => ⟨0x50008, 0x0, 1, 0x0, 1, 31, 16, .ro, 0, .start, .start⟩
  | .pcxLinkCfgMaxRate => ⟨0x5000C, 0x0, 1, 0x0, 1, 3, 0, .rwB, 6, .image, .kept⟩
  | .pcxLinkCfgMaxWidth => ⟨0x5000C, 0x0, 1, 0x0, 1, 9, 4, .rwB, 16, .image, .kept⟩
  | .pcxLinkCfgRxPrecodeReq => ⟨0x5000C, 0x0, 1, 0x0, 1, 10, 10, .rwB, 0, .image, .kept⟩
  | .pcxLinkCfgL0pInit => ⟨0x5000C, 0x0, 1, 0x0, 1, 11, 11, .rwL, 0, .value, .kept⟩
  | .pcxL0pMinWidth => ⟨0x50010, 0x0, 1, 0x0, 1, 4, 0, .rwL, 8, .value, .kept⟩
  | .pcxL0pIdleUs => ⟨0x50010, 0x0, 1, 0x0, 1, 15, 8, .rwL, 100, .value, .kept⟩
  | .pcxStatusBar2Early => ⟨0x50014, 0x0, 1, 0x0, 1, 0, 0, .rw1c, 0, .value, (.to 0)⟩
  | .pcxStatusDbEarly => ⟨0x50014, 0x0, 1, 0x0, 1, 1, 1, .rw1c, 0, .value, (.to 0)⟩
  | .pcxStatusWidthDegraded => ⟨0x50014, 0x0, 1, 0x0, 1, 2, 2, .ro, 0, .start, .start⟩
  | .pcxStatusRateDegraded => ⟨0x50014, 0x0, 1, 0x0, 1, 3, 3, .ro, 0, .start, .start⟩
  | .pcxRecoveriesCount => ⟨0x50018, 0x0, 1, 0x0, 1, 31, 0, .ro, 0, .value, .kept⟩
  | .pcxLinkdownsCount => ⟨0x5001C, 0x0, 1, 0x0, 1, 31, 0, .ro, 0, .value, .kept⟩
  | .pcxFecCorrCount => ⟨0x50020, 0x0, 1, 0x0, 1, 31, 0, .rc, 0, .value, (.to 0)⟩
  | .pcxReplaysCount => ⟨0x50024, 0x0, 1, 0x0, 1, 31, 0, .rc, 0, .value, (.to 0)⟩
  | .pcxCplTimeoutsCount => ⟨0x50028, 0x0, 1, 0x0, 1, 31, 0, .ro, 0, .value, .kept⟩
  | .pcxUnexpCplCount => ⟨0x5002C, 0x0, 1, 0x0, 1, 31, 0, .rc, 0, .value, (.to 0)⟩
  | .pcxTagsOutstanding => ⟨0x50030, 0x0, 1, 0x0, 1, 10, 0, .ro, 0, .value, (.to 0)⟩
  | .pcxTagsTagsHeld => ⟨0x50030, 0x0, 1, 0x0, 1, 26, 16, .ro, 0, .value, (.to 0)⟩
  | .pcxLaneFailLanes => ⟨0x50034, 0x0, 1, 0x0, 1, 15, 0, .ro, 0, .start, .start⟩
  | .drcBasinCfgEn => ⟨0xF0000, 0x20, 64, 0x0, 1, 0, 0, .rwB, 0, .image, .kept⟩
  | .drcBasinCfgGrain => ⟨0xF0000, 0x20, 64, 0x0, 1, 8, 4, .rwS, 0, .image, .kept⟩
  | .drcBasinCfgOwner => ⟨0xF0000, 0x20, 64, 0x0, 1, 22, 16, .rwS, 0, .image, .kept⟩
  | .drcBasinCfgJournal => ⟨0xF0000, 0x20, 64, 0x0, 1, 31, 31, .ro, 0, .image, .kept⟩
  | .drcBasinBaseBase => ⟨0xF0004, 0x20, 64, 0x0, 1, 20, 0, .rwS, 0, .image, .kept⟩
  | .drcBasinLocLbase => ⟨0xF0008, 0x20, 64, 0x0, 1, 14, 0, .rwS, 0, .image, .kept⟩
  | .drcBasinLocExt => ⟨0xF0008, 0x20, 64, 0x0, 1, 30, 16, .rwS, 0, .image, .kept⟩
  | .drcBasinPcmaskLoMask => ⟨0xF000C, 0x20, 64, 0x0, 1, 31, 0, .rwS, 0, .image, .kept⟩
  | .drcBasinPcmaskHiMask => ⟨0xF0010, 0x20, 64, 0x0, 1, 31, 0, .rwS, 0, .image, .kept⟩
  | .drcBasinSizeSize => ⟨0xF0014, 0x20, 64, 0x0, 1, 20, 0, .ro, 0, .image, .kept⟩
  | .drcCtrlSrAuto => ⟨0xF0800, 0x0, 1, 0x0, 1, 0, 0, .rwL, 1, .value, .kept⟩
  | .drcCtrlSrIdleUs => ⟨0xF0800, 0x0, 1, 0x0, 1, 15, 8, .rwL, 20, .value, .kept⟩
  | .drcCtrlAgeCap => ⟨0xF0800, 0x0, 1, 0x0, 1, 20, 16, .rwL, 8, .value, .kept⟩
  | .drcCtrlRefForce2x => ⟨0xF0800, 0x0, 1, 0x0, 1, 23, 23, .rwB, 0, .value, .kept⟩
  | .drcRfmRfmTh => ⟨0xF0804, 0x0, 1, 0x0, 1, 12, 0, .rwL, 256, .value, .kept⟩
  | .drcWrqWrHi => ⟨0xF0808, 0x0, 1, 0x0, 1, 5, 0, .rwL, 24, .value, .kept⟩
  | .drcWrqWrLo => ⟨0xF0808, 0x0, 1, 0x0, 1, 13, 8, .rwL, 8, .value, .kept⟩
  | .drcStatusCfgReject => ⟨0xF080C, 0x0, 1, 0x0, 1, 0, 0, .rw1c, 0, .value, (.to 0)⟩
  | .drcStatusBar2Hole => ⟨0xF080C, 0x0, 1, 0x0, 1, 1, 1, .rw1c, 0, .value, (.to 0)⟩
  | .drcStatusBar2Poison => ⟨0xF080C, 0x0, 1, 0x0, 1, 2, 2, .rw1c, 0, .value, (.to 0)⟩
  | .drcStatusBar2Therm => ⟨0xF080C, 0x0, 1, 0x0, 1, 3, 3, .rw1c, 0, .value, (.to 0)⟩
  | .drcStatusZeroing => ⟨0xF080C, 0x0, 1, 0x0, 1, 4, 4, .ro, 0, .value, (.to 0)⟩
  | .drcBar2HolesCount => ⟨0xF0810, 0x0, 1, 0x0, 1, 31, 0, .rc, 0, .value, (.to 0)⟩
  | .drcBar2MaxlatMaxlat => ⟨0xF0814, 0x0, 1, 0x0, 1, 15, 0, .rc, 0, .value, (.to 0)⟩
  | .drcRetiredLoMask => ⟨0xF0818, 0x0, 1, 0x0, 1, 31, 0, .ro, 0, .start, .kept⟩
  | .drcRetiredHiMask => ⟨0xF081C, 0x0, 1, 0x0, 1, 31, 0, .ro, 0, .start, .kept⟩
  | .drcRef2xLoMask => ⟨0xF0820, 0x0, 1, 0x0, 1, 31, 0, .ro, 0, .value, (.to 0)⟩
  | .drcRef2xHiMask => ⟨0xF0824, 0x0, 1, 0x0, 1, 31, 0, .ro, 0, .value, (.to 0)⟩
  | .drcSrLoMask => ⟨0xF0828, 0x0, 1, 0x0, 1, 31, 0, .ro, 0, .value, .start⟩
  | .drcSrHiMask => ⟨0xF082C, 0x0, 1, 0x0, 1, 31, 0, .ro, 0, .value, .start⟩
  | .drcPcStateState => ⟨0xE0000, 0x400, 64, 0x0, 1, 2, 0, .ro, 0, .value, .start⟩
  | .drcPcStateRef2x => ⟨0xE0000, 0x400, 64, 0x0, 1, 4, 4, .ro, 0, .value, .start⟩
  | .drcPcStateUrgent => ⟨0xE0000, 0x400, 64, 0x0, 1, 5, 5, .ro, 0, .value, (.to 0)⟩
  | .drcPcStateRefTemp => ⟨0xE0000, 0x400, 64, 0x0, 1, 15, 8, .ro, 0, .start, .start⟩
  | .drcPcRefsCount => ⟨0xE0004, 0x400, 64, 0x0, 1, 31, 0, .ro, 0, .value, .kept⟩
  | .drcPcPpmaxMax => ⟨0xE0008, 0x400, 64, 0x0, 1, 3, 0, .rc, 0, .value, (.to 0)⟩
  | .drcPcUrgentCount => ⟨0xE000C, 0x400, 64, 0x0, 1, 31, 0, .ro, 0, .value, .kept⟩
  | .drcPcRfmCount => ⟨0xE0010, 0x400, 64, 0x0, 1, 31, 0, .ro, 0, .value, .kept⟩
  | .drcPcSrCount => ⟨0xE0014, 0x400, 64, 0x0, 1, 31, 0, .ro, 0, .value, .kept⟩
  | .drcPcSrheldCount => ⟨0xE0018, 0x400, 64, 0x0, 1, 31, 0, .rc, 0, .value, (.to 0)⟩
  | .drcPcQmaxMax => ⟨0xE001C, 0x400, 64, 0x0, 1, 6, 0, .rc, 0, .value, (.to 0)⟩
  | .drcPcRowhitCount => ⟨0xE0020, 0x400, 64, 0x0, 1, 31, 0, .ro, 0, .value, .kept⟩
  | .drcPcRowmissCount => ⟨0xE0024, 0x400, 64, 0x0, 1, 31, 0, .ro, 0, .value, .kept⟩
  | .drcPcAgedCount => ⟨0xE0028, 0x400, 64, 0x0, 1, 31, 0, .ro, 0, .value, .kept⟩
  | .lakeCtrlFlush => ⟨0xC0000, 0x0, 1, 0x0, 1, 0, 0, .wo, 0, .value, (.to 0)⟩
  | .lakeStatusFlushing => ⟨0xC0004, 0x0, 1, 0x0, 1, 0, 0, .ro, 0, .value, (.to 0)⟩
  | .lakeStatusQuadOn => ⟨0xC0004, 0x0, 1, 0x0, 1, 7, 4, .ro, 15, .value, .start⟩
  | .lakeSysWaysMask => ⟨0xC0008, 0x0, 1, 0x0, 1, 15, 0, .rwL, 65535, .image, .kept⟩
  | .lakeWaysOffCount => ⟨0xC000C, 0x0, 1, 0x0, 1, 31, 0, .ro, 0, .start, .start⟩
  | .lakeArrCeCount => ⟨0xC0010, 0x0, 1, 0x0, 1, 31, 0, .rc, 0, .value, (.to 0)⟩
  | .lakeArrUeCount => ⟨0xC0014, 0x0, 1, 0x0, 1, 31, 0, .ro, 0, .value, .kept⟩
  | .lakeSetsBlockedCount => ⟨0xC0018, 0x0, 1, 0x0, 1, 15, 0, .ro, 0, .value, .kept⟩
  | .lakePoisonSetCount => ⟨0xC001C, 0x0, 1, 0x0, 1, 31, 0, .ro, 0, .value, .kept⟩
  | .lakeWaysMask => ⟨0xC0100, 0x4, 64, 0x0, 1, 15, 0, .rwL, 65535, .image, .kept⟩
  | .evtPop0Word0 => ⟨0x160000, 0x20, 8, 0x0, 1, 31, 0, .ro, 0, .value, (.to 0)⟩
  | .evtPop1Word1 => ⟨0x160004, 0x20, 8, 0x0, 1, 31, 0, .ro, 0, .value, (.to 0)⟩
  | .evtPop2Word2 => ⟨0x160008, 0x20, 8, 0x0, 1, 31, 0, .ro, 0, .value, (.to 0)⟩
  | .evtPop3Word3 => ⟨0x16000C, 0x20, 8, 0x0, 1, 31, 0, .ro, 0, .value, (.to 0)⟩
  | .evtCountCount => ⟨0x160010, 0x20, 8, 0x0, 1, 8, 0, .ro, 0, .value, (.to 0)⟩
  | .evtLostCount => ⟨0x160014, 0x20, 8, 0x0, 1, 31, 0, .rc, 0, .value, (.to 0)⟩
  | .weirPortRateRate => ⟨0xD0000, 0x20, 59, 0x0, 1, 19, 0, .rwB, 0, .image, .kept⟩
  | .weirPortBurstBurst => ⟨0xD0004, 0x20, 59, 0x0, 1, 11, 0, .rwL, 64, .image, .kept⟩
  | .weirPortEffEff => ⟨0xD0008, 0x20, 59, 0x0, 1, 19, 0, .ro, 0, .image, .start⟩
  | .weirPortEffClamped => ⟨0xD0008, 0x20, 59, 0x0, 1, 30, 30, .ro, 0, .value, .start⟩
  | .weirPortHeldCount => ⟨0xD000C, 0x20, 59, 0x0, 1, 31, 0, .rc, 0, .value, (.to 0)⟩
  | .weirPortLinesCount => ⟨0xD0010, 0x20, 59, 0x0, 1, 31, 0, .ro, 0, .value, .kept⟩
  | .weirPortInfoKind => ⟨0xD0014, 0x20, 59, 0x0, 1, 1, 0, .ro, 0, .start, .kept⟩
  | .weirGrpCfgGuar => ⟨0xD1000, 0x20, 65, 0x0, 1, 0, 0, .rwB, 0, .image, .kept⟩
  | .weirGrpCfgAdmitted => ⟨0xD1000, 0x20, 65, 0x0, 1, 1, 1, .ro, 0, .start, .start⟩
  | .weirGrpCfgPrioBase => ⟨0xD1000, 0x20, 65, 0x0, 1, 3, 2, .rwL, 2, .image, .kept⟩
  | .weirGrpCfgQmin => ⟨0xD1000, 0x20, 65, 0x0, 1, 11, 8, .rwL, 0, .image, .kept⟩
  | .weirGrpCfgQmax => ⟨0xD1000, 0x20, 65, 0x0, 1, 21, 16, .rwL, 60, .image, .kept⟩
  | .weirGrpRateGRate => ⟨0xD1004, 0x20, 65, 0x0, 1, 19, 0, .rwB, 0, .image, .kept⟩
  | .weirGrpEffGEff => ⟨0xD1008, 0x20, 65, 0x0, 1, 19, 0, .ro, 0, .start, .start⟩
  | .weirGrpLatLatTarget => ⟨0xD100C, 0x20, 65, 0x0, 1, 15, 0, .rwL, 0, .image, .kept⟩
  | .weirGrpLatavgAvg => ⟨0xD1010, 0x20, 65, 0x0, 1, 15, 0, .ro, 0, .value, (.to 0)⟩
  | .weirGrpLatavgPrio => ⟨0xD1010, 0x20, 65, 0x0, 1, 18, 16, .ro, 0, .value, (.to 0)⟩
  | .weirGrpMissCount => ⟨0xD1014, 0x20, 65, 0x0, 1, 31, 0, .rc, 0, .value, (.to 0)⟩
  | .weirGrpSpillCount => ⟨0xD1018, 0x20, 65, 0x0, 1, 31, 0, .rc, 0, .value, (.to 0)⟩
  | .weirGrpAgedCount => ⟨0xD101C, 0x20, 65, 0x0, 1, 31, 0, .ro, 0, .value, .kept⟩
  | .weirCtrlAgeLimit => ⟨0xD2000, 0x0, 1, 0x0, 1, 10, 0, .rwL, 200, .value, .kept⟩
  | .weirStatusGuarScaled => ⟨0xD2004, 0x0, 1, 0x0, 1, 0, 0, .ro, 0, .value, (.to 0)⟩
  | .weirStatusAdmitDemoted => ⟨0xD2004, 0x0, 1, 0x0, 1, 1, 1, .rw1c, 0, .value, (.to 0)⟩
  | .weirStatusClamp => ⟨0xD2004, 0x0, 1, 0x0, 1, 2, 2, .ro, 0, .value, (.to 0)⟩
  | .weirStatusSysDemoted => ⟨0xD2004, 0x0, 1, 0x0, 1, 3, 3, .ro, 0, .start, .start⟩
  | .weirDnomD => ⟨0xD2008, 0x0, 1, 0x0, 1, 19, 0, .ro, 464000, .start, .start⟩
  | .weirDnowD => ⟨0xD200C, 0x0, 1, 0x0, 1, 19, 0, .ro, 464000, .start, .start⟩
  | .weirGsumSum => ⟨0xD2010, 0x0, 1, 0x0, 1, 19, 0, .ro, 0, .start, .start⟩
  | .weirScaleScale => ⟨0xD2014, 0x0, 1, 0x0, 1, 10, 0, .ro, 1024, .value, .start⟩
  | .weirDemotedLoMask => ⟨0xD2018, 0x0, 1, 0x0, 1, 31, 0, .ro, 0, .start, .start⟩
  | .weirDemotedHiMask => ⟨0xD201C, 0x0, 1, 0x0, 1, 31, 0, .ro, 0, .start, .start⟩
  | .weirScaleEventsCount => ⟨0xD2020, 0x0, 1, 0x0, 1, 31, 0, .ro, 0, .value, .kept⟩
  | .vlkPcSpares => ⟨0x100000, 0x20, 64, 0x0, 1, 2, 0, .ro, 4, .start, .kept⟩
  | .vlkPcErased => ⟨0x100000, 0x20, 64, 0x0, 1, 4, 3, .ro, 0, .start, .kept⟩
  | .vlkPcDegraded => ⟨0x100000, 0x20, 64, 0x0, 1, 5, 5, .ro, 0, .start, .kept⟩
  | .vlkPcExhausted => ⟨0x100000, 0x20, 64, 0x0, 1, 6, 6, .ro, 0, .value, .kept⟩
  | .vlkPcErase0 => ⟨0x100000, 0x20, 64, 0x0, 1, 14, 8, .ro, 127, .start, .kept⟩
  | .vlkPcErase1 => ⟨0x100000, 0x20, 64, 0x0, 1, 22, 16, .ro, 127, .start, .kept⟩
  | .vlkPcShifts => ⟨0x100000, 0x20, 64, 0x0, 1, 31, 24, .ro, 0, .value, .kept⟩
  | .vlkPcBadBad0 => ⟨0x100004, 0x20, 64, 0x0, 1, 7, 0, .ro, 255, .start, .kept⟩
  | .vlkPcBadBad1 => ⟨0x100004, 0x20, 64, 0x0, 1, 15, 8, .ro, 255, .start, .kept⟩
  | .vlkPcBadBad2 => ⟨0x100004, 0x20, 64, 0x0, 1, 23, 16, .ro, 255, .start, .kept⟩
  | .vlkPcBadBad3 => ⟨0x100004, 0x20, 64, 0x0, 1, 31, 24, .ro, 255, .start, .kept⟩
  | .vlkPcSuspectLane => ⟨0x100008, 0x20, 64, 0x0, 1, 6, 0, .ro, 0, .value, .kept⟩
  | .vlkPcSuspectValid => ⟨0x100008, 0x20, 64, 0x0, 1, 31, 31, .rw1c, 0, .value, .kept⟩
  | .vlkCaBad0 => ⟨0x101000, 0x10, 32, 0x0, 1, 4, 0, .ro, 31, .start, .kept⟩
  | .vlkCaBad1 => ⟨0x101000, 0x10, 32, 0x0, 1, 9, 5, .ro, 31, .start, .kept⟩
  | .vlkCaSpares => ⟨0x101000, 0x10, 32, 0x0, 1, 11, 10, .ro, 2, .start, .kept⟩
  | .vlkCaFailed => ⟨0x101000, 0x10, 32, 0x0, 1, 12, 12, .ro, 0, .start, .kept⟩
  | .vlkCtrlAutoShift => ⟨0x102000, 0x0, 1, 0x0, 1, 0, 0, .rwL, 1, .value, .kept⟩
  | .vlkCtrlLaneTh => ⟨0x102000, 0x0, 1, 0x0, 1, 15, 8, .rwL, 16, .value, .kept⟩
  | .vlkCtrlLaneWin => ⟨0x102000, 0x0, 1, 0x0, 1, 23, 16, .rwL, 10, .value, .kept⟩
  | .vlkDegLoMask => ⟨0x102004, 0x0, 1, 0x0, 1, 31, 0, .ro, 0, .start, .kept⟩
  | .vlkDegHiMask => ⟨0x102008, 0x0, 1, 0x0, 1, 31, 0, .ro, 0, .start, .kept⟩
  | .vlkShiftReqPc => ⟨0x10200C, 0x0, 1, 0x0, 1, 5, 0, .wo, 0, .value, (.to 0)⟩
  | .vlkShiftReqLane => ⟨0x10200C, 0x0, 1, 0x0, 1, 14, 8, .wo, 0, .value, (.to 0)⟩
  | .vlkShiftReqGo => ⟨0x10200C, 0x0, 1, 0x0, 1, 31, 31, .wo, 0, .value, (.to 0)⟩
  | .integCeLocPc => ⟨0x110000, 0x20, 32, 0x0, 1, 5, 0, .ro, 0, .value, .kept⟩
  | .integCeLocBg => ⟨0x110000, 0x20, 32, 0x0, 1, 7, 6, .ro, 0, .value, .kept⟩
  | .integCeLocBank => ⟨0x110000, 0x20, 32, 0x0, 1, 10, 8, .ro, 0, .value, .kept⟩
  | .integCeLocCol => ⟨0x110000, 0x20, 32, 0x0, 1, 15, 12, .ro, 0, .value, .kept⟩
  | .integCeLocSymbol => ⟨0x110000, 0x20, 32, 0x0, 1, 22, 16, .ro, 0, .value, .kept⟩
  | .integCeLocValid => ⟨0x110000, 0x20, 32, 0x0, 1, 31, 31, .rw1c, 0, .value, .kept⟩
  | .integCeRowRow => ⟨0x110004, 0x20, 32, 0x0, 1, 15, 0, .ro, 0, .value, .kept⟩
  | .integCeCntCount => ⟨0x110008, 0x20, 32, 0x0, 1, 31, 0, .ro, 0, .value, .kept⟩
  | .integCeTimeLoTime => ⟨0x11000C, 0x20, 32, 0x0, 1, 31, 0, .ro, 0, .value, .kept⟩
  | .integCeTimeHiTime => ⟨0x110010, 0x20, 32, 0x0, 1, 31, 0, .ro, 0, .value, .kept⟩
  | .integPcCeCount => ⟨0x111000, 0x10, 64, 0x0, 1, 31, 0, .rc, 0, .value, (.to 0)⟩
  | .integPcUeCount => ⟨0x111004, 0x10, 64, 0x0, 1, 31, 0, .ro, 0, .value, .kept⟩
  | .integPcRetryCount => ⟨0x111008, 0x10, 64, 0x0, 1, 31, 0, .rc, 0, .value, (.to 0)⟩
  | .integPcSpareUsed => ⟨0x11100C, 0x10, 64, 0x0, 1, 9, 0, .ro, 0, .start, .kept⟩
  | .integCtrlDegLogMs => ⟨0x112000, 0x0, 1, 0x0, 1, 7, 0, .rwL, 100, .value, .kept⟩
  | .integStatusCeFull => ⟨0x112004, 0x0, 1, 0x0, 1, 0, 0, .ro, 0, .value, .kept⟩
  | .integStatusDrOverrun => ⟨0x112004, 0x0, 1, 0x0, 1, 1, 1, .rw1c, 0, .value, (.to 0)⟩
  | .integStatusRetReject => ⟨0x112004, 0x0, 1, 0x0, 1, 2, 2, .rw1c, 0, .value, (.to 0)⟩
  | .integStatusDrBusy => ⟨0x112004, 0x0, 1, 0x0, 1, 3, 3, .ro, 0, .value, (.to 0)⟩
  | .integStatusBehind => ⟨0x112004, 0x0, 1, 0x0, 1, 4, 4, .ro, 0, .value, (.to 0)⟩
  | .integCeDropCount => ⟨0x112008, 0x0, 1, 0x0, 1, 31, 0, .rc, 0, .value, (.to 0)⟩
  | .integRecBadCount => ⟨0x11200C, 0x0, 1, 0x0, 1, 15, 0, .ro, 0, .start, .start⟩
  | .integDrOfsLoOfs => ⟨0x113000, 0x0, 1, 0x0, 1, 31, 6, .rwL, 0, .value, .kept⟩
  | .integDrOfsHiOfs => ⟨0x113004, 0x0, 1, 0x0, 1, 31, 0, .rwL, 0, .value, .kept⟩
  | .integDrLenLoLen => ⟨0x113008, 0x0, 1, 0x0, 1, 31, 6, .rwL, 0, .value, .kept⟩
  | .integDrLenHiLen => ⟨0x11300C, 0x0, 1, 0x0, 1, 31, 0, .rwL, 0, .value, .kept⟩
  | .integDrCtrlGo => ⟨0x113010, 0x0, 1, 0x0, 1, 0, 0, .wo, 0, .value, (.to 0)⟩
  | .integDrCtrlStop => ⟨0x113010, 0x0, 1, 0x0, 1, 1, 1, .wo, 0, .value, (.to 0)⟩
  | .integDrSumData => ⟨0x113040, 0x4, 16, 0x0, 1, 31, 0, .ro, 0, .value, (.to 0)⟩
  | .integDrEveryEvery => ⟨0x113100, 0x0, 1, 0x0, 1, 31, 0, .rwL, 0, .image, .kept⟩
  | .integDrRcfgRoundGib => ⟨0x113104, 0x0, 1, 0x0, 1, 6, 0, .rwB, 4, .value, .kept⟩
  | .integDrCursorLoCursor => ⟨0x113108, 0x0, 1, 0x0, 1, 31, 0, .ro, 0, .value, .kept⟩
  | .integDrCursorHiCursor => ⟨0x11310C, 0x0, 1, 0x0, 1, 31, 0, .ro, 0, .value, .kept⟩
  | .integDrNextLoEpoch => ⟨0x113110, 0x0, 1, 0x0, 1, 31, 0, .ro, 0, .value, .kept⟩
  | .integDrNextHiEpoch => ⟨0x113114, 0x0, 1, 0x0, 1, 31, 0, .ro, 0, .value, .kept⟩
  | .integDrRoundsCount => ⟨0x113118, 0x0, 1, 0x0, 1, 31, 0, .ro, 0, .value, .kept⟩
  | .integDrMissedCount => ⟨0x11311C, 0x0, 1, 0x0, 1, 31, 0, .ro, 0, .value, .kept⟩
  | .integDrUeCount => ⟨0x113120, 0x0, 1, 0x0, 1, 31, 0, .ro, 0, .value, .kept⟩
  | .integRetRowRow => ⟨0x113200, 0x0, 1, 0x0, 1, 15, 0, .rwL, 0, .value, (.to 0)⟩
  | .integRetCmdPc => ⟨0x113204, 0x0, 1, 0x0, 1, 5, 0, .wo, 0, .value, (.to 0)⟩
  | .integRetCmdBg => ⟨0x113204, 0x0, 1, 0x0, 1, 7, 6, .wo, 0, .value, (.to 0)⟩
  | .integRetCmdBank => ⟨0x113204, 0x0, 1, 0x0, 1, 10, 8, .wo, 0, .value, (.to 0)⟩
  | .integRetCmdOp => ⟨0x113204, 0x0, 1, 0x0, 1, 17, 16, .wo, 0, .value, (.to 0)⟩
  | .integRetCmdGo => ⟨0x113204, 0x0, 1, 0x0, 1, 31, 31, .wo, 0, .value, (.to 0)⟩
  | .integRetStatusBusy => ⟨0x113208, 0x0, 1, 0x0, 1, 0, 0, .ro, 0, .value, (.to 0)⟩
  | .integRetStatusResult => ⟨0x113208, 0x0, 1, 0x0, 1, 7, 4, .ro, 0, .value, (.to 0)⟩
  | .integRetStatusSpare => ⟨0x113208, 0x0, 1, 0x0, 1, 12, 8, .ro, 0, .value, (.to 0)⟩
  | .thmSensTemp => ⟨0x120000, 0x4, 88, 0x0, 1, 15, 0, .ro, 0, .start, .start⟩
  | .thmSensStale => ⟨0x120000, 0x4, 88, 0x0, 1, 16, 16, .ro, 0, .value, .start⟩
  | .thmSensFailed => ⟨0x120000, 0x4, 88, 0x0, 1, 17, 17, .ro, 0, .value, .kept⟩
  | .thmRefsTemp => ⟨0x120160, 0x4, 16, 0x0, 1, 15, 0, .ro, 0, .start, .start⟩
  | .thmRefsStale => ⟨0x120160, 0x4, 16, 0x0, 1, 16, 16, .ro, 0, .value, .start⟩
  | .thmRefsFailed => ⟨0x120160, 0x4, 16, 0x0, 1, 17, 17, .ro, 0, .value, .kept⟩
  | .thmLayerTMeas => ⟨0x120200, 0x8, 18, 0x0, 1, 15, 0, .ro, 0, .start, .start⟩
  | .thmLayerTModel => ⟨0x120200, 0x8, 18, 0x0, 1, 31, 16, .ro, 0, .start, .start⟩
  | .thmLayerGGov => ⟨0x120204, 0x8, 18, 0x0, 1, 15, 0, .ro, 0, .start, .start⟩
  | .thmLayerGSuspect => ⟨0x120204, 0x8, 18, 0x0, 1, 16, 16, .ro, 0, .value, .start⟩
  | .thmLayerGStale => ⟨0x120204, 0x8, 18, 0x0, 1, 17, 17, .ro, 0, .value, .start⟩
  | .thmLayerGRate => ⟨0x120204, 0x8, 18, 0x0, 1, 19, 18, .ro, 0, .value, .start⟩
  | .thmCtrlGrace => ⟨0x120300, 0x0, 1, 0x0, 1, 9, 0, .rwL, 50, .image, .kept⟩
  | .thmCtrlTf => ⟨0x120300, 0x0, 1, 0x0, 1, 20, 16, .rwB, 12, .image, .kept⟩
  | .thmCtrlResume => ⟨0x120300, 0x0, 1, 0x0, 1, 31, 31, .wo, 0, .value, (.to 0)⟩
  | .thmStatusWarnLogic => ⟨0x120304, 0x0, 1, 0x0, 1, 0, 0, .ro, 0, .value, .start⟩
  | .thmStatusWarnDram => ⟨0x120304, 0x0, 1, 0x0, 1, 1, 1, .ro, 0, .value, .start⟩
  | .thmStatusTstate => ⟨0x120304, 0x0, 1, 0x0, 1, 3, 2, .ro, 0, .value, .kept⟩
  | .thmStatusStackSuspect => ⟨0x120304, 0x0, 1, 0x0, 1, 4, 4, .ro, 0, .value, .kept⟩
  | .thmStatusAnySuspect => ⟨0x120304, 0x0, 1, 0x0, 1, 5, 5, .ro, 0, .value, .start⟩
  | .thmStatusThReject => ⟨0x120304, 0x0, 1, 0x0, 1, 6, 6, .rw1c, 0, .value, (.to 0)⟩
  | .thmStatusResumeEarly => ⟨0x120304, 0x0, 1, 0x0, 1, 7, 7, .rw1c, 0, .value, (.to 0)⟩
  | .thmStatusThrReq => ⟨0x120304, 0x0, 1, 0x0, 1, 8, 8, .ro, 0, .value, .start⟩
  | .thmLogicThWarn => ⟨0x120308, 0x0, 1, 0x0, 1, 7, 0, .rwL, 90, .image, .kept⟩
  | .thmLogicThThrottle => ⟨0x120308, 0x0, 1, 0x0, 1, 15, 8, .rwL, 100, .image, .kept⟩
  | .thmLogicThShutdown => ⟨0x120308, 0x0, 1, 0x0, 1, 23, 16, .rwL, 110, .image, .kept⟩
  | .thmLogicThHyst => ⟨0x120308, 0x0, 1, 0x0, 1, 26, 24, .rwL, 3, .image, .kept⟩
  | .thmDramThWarn => ⟨0x12030C, 0x0, 1, 0x0, 1, 7, 0, .rwL, 85, .image, .kept⟩
  | .thmDramThThrottle => ⟨0x12030C, 0x0, 1, 0x0, 1, 15, 8, .rwL, 95, .image, .kept⟩
  | .thmDramThShutdown => ⟨0x12030C, 0x0, 1, 0x0, 1, 23, 16, .rwL, 105, .image, .kept⟩
  | .thmDramThHyst => ⟨0x12030C, 0x0, 1, 0x0, 1, 26, 24, .rwL, 3, .image, .kept⟩
  | .thmPeakLogic => ⟨0x120310, 0x0, 1, 0x0, 1, 15, 0, .rc, 0, .value, (.to 0)⟩
  | .thmPeakDram => ⟨0x120310, 0x0, 1, 0x0, 1, 31, 16, .rc, 0, .value, (.to 0)⟩
  | .thmReqsCount => ⟨0x120314, 0x0, 1, 0x0, 1, 31, 0, .ro, 0, .value, .kept⟩
  | .thmEnfUsTime => ⟨0x120318, 0x0, 1, 0x0, 1, 31, 0, .ro, 0, .value, .kept⟩
  | .thmShutdownsCount => ⟨0x12031C, 0x0, 1, 0x0, 1, 31, 0, .ro, 0, .value, .kept⟩
  | .thmSuspectsCount => ⟨0x120320, 0x0, 1, 0x0, 1, 31, 0, .ro, 0, .value, .kept⟩
  | .pwrDomOffReq => ⟨0x130000, 0x4, 64, 0x0, 1, 0, 0, .rwL, 0, .value, .kept⟩
  | .pwrDomState => ⟨0x130000, 0x4, 64, 0x0, 1, 2, 1, .ro, 0, .start, .start⟩
  | .pwrWakeCount => ⟨0x130100, 0x4, 64, 0x0, 1, 31, 0, .ro, 0, .value, .kept⟩
  | .pwrHeldCount => ⟨0x130200, 0x4, 64, 0x0, 1, 31, 0, .rc, 0, .value, (.to 0)⟩
  | .pwrCapLimit => ⟨0x130300, 0x0, 1, 0x0, 1, 7, 0, .rwL, 150, .image, .kept⟩
  | .pwrCapPtf => ⟨0x130300, 0x0, 1, 0x0, 1, 12, 8, .rwB, 12, .image, .kept⟩
  | .pwrStatusCapped => ⟨0x130304, 0x0, 1, 0x0, 1, 0, 0, .ro, 0, .value, .start⟩
  | .pwrStatusAvg => ⟨0x130304, 0x0, 1, 0x0, 1, 31, 16, .ro, 0, .start, .start⟩
  | .pwrCapsCount => ⟨0x130308, 0x0, 1, 0x0, 1, 31, 0, .ro, 0, .value, .kept⟩
  | .calCtrlCalDelta => ⟨0x140000, 0x0, 1, 0x0, 1, 4, 0, .rwL, 10, .image, .kept⟩
  | .calCtrlForce => ⟨0x140000, 0x0, 1, 0x0, 1, 31, 31, .wo, 0, .value, (.to 0)⟩
  | .calStatusRunning => ⟨0x140004, 0x0, 1, 0x0, 1, 0, 0, .ro, 0, .value, .start⟩
  | .calStatusRecBad => ⟨0x140004, 0x0, 1, 0x0, 1, 1, 1, .ro, 0, .start, .kept⟩
  | .calStatusRecWrFail => ⟨0x140004, 0x0, 1, 0x0, 1, 2, 2, .rw1c, 0, .value, (.to 0)⟩
  | .calStatusDeferred => ⟨0x140004, 0x0, 1, 0x0, 1, 3, 3, .ro, 0, .value, .start⟩
  | .calRunsCount => ⟨0x140008, 0x0, 1, 0x0, 1, 31, 0, .ro, 0, .value, .kept⟩
  | .calRecSeqSeq => ⟨0x14000C, 0x0, 1, 0x0, 1, 31, 0, .ro, 0, .start, .start⟩
  | .calRecWritesCount => ⟨0x140010, 0x0, 1, 0x0, 1, 31, 0, .ro, 0, .value, .kept⟩
  | .evtRouteEn => ⟨0x161000, 0x4, 320, 0x0, 1, 0, 0, .rwL, 0, .image, .kept⟩
  | .evtRouteRing => ⟨0x161000, 0x4, 320, 0x0, 1, 3, 1, .rwL, 0, .image, .kept⟩
  | .evtRingCfgVector => ⟨0x161600, 0x4, 8, 0x0, 1, 6, 0, .rwL, 0, .image, .kept⟩
  | .evtRingCfgEn => ⟨0x161600, 0x4, 8, 0x0, 1, 31, 31, .rwL, 0, .image, .kept⟩
  | .fltRecW0 => ⟨0x150000, 0x20, 64, 0x0, 1, 31, 0, .ro, 0, .value, .kept⟩
  | .fltRecSrcW1 => ⟨0x150004, 0x20, 64, 0x0, 1, 31, 0, .ro, 0, .value, .kept⟩
  | .fltRecArgW2 => ⟨0x150008, 0x20, 64, 0x0, 1, 31, 0, .ro, 0, .value, .kept⟩
  | .fltRecLocW3 => ⟨0x15000C, 0x20, 64, 0x0, 1, 31, 0, .ro, 0, .value, .kept⟩
  | .fltRecDetW4 => ⟨0x150010, 0x20, 64, 0x0, 1, 31, 0, .ro, 0, .value, .kept⟩
  | .fltRecTimeLoTime => ⟨0x150018, 0x20, 64, 0x0, 1, 31, 0, .ro, 0, .value, .kept⟩
  | .fltRecTimeHiTime => ⟨0x15001C, 0x20, 64, 0x0, 1, 31, 0, .ro, 0, .value, .kept⟩
  | .fltStateState => ⟨0x151000, 0x0, 1, 0x0, 1, 2, 0, .ro, 0, .value, (.to 0)⟩
  | .fltStateFaultPin => ⟨0x151000, 0x0, 1, 0x0, 1, 3, 3, .ro, 0, .value, .start⟩
  | .fltStateThermPin => ⟨0x151000, 0x0, 1, 0x0, 1, 4, 4, .ro, 0, .value, .start⟩
  | .fltStatePending => ⟨0x151000, 0x0, 1, 0x0, 1, 13, 8, .ro, 0, .value, (.to 0)⟩
  | .fltQueueHead => ⟨0x151004, 0x0, 1, 0x0, 1, 5, 0, .ro, 0, .value, .kept⟩
  | .fltQueueCount => ⟨0x151004, 0x0, 1, 0x0, 1, 14, 8, .ro, 0, .value, .kept⟩
  | .fltReleaseN => ⟨0x151008, 0x0, 1, 0x0, 1, 6, 0, .wo, 0, .value, (.to 0)⟩
  | .fltOvfCount => ⟨0x15100C, 0x0, 1, 0x0, 1, 31, 0, .rc, 0, .value, .kept⟩
  | .fltCtrlQuietMs => ⟨0x151010, 0x0, 1, 0x0, 1, 7, 0, .rwL, 10, .image, .kept⟩
  | .fltInjectSource => ⟨0x151014, 0x0, 1, 0x0, 1, 8, 0, .wo, 0, .value, (.to 0)⟩
  | .fltInjectInvalid => ⟨0x151014, 0x0, 1, 0x0, 1, 9, 9, .wo, 0, .value, (.to 0)⟩
  | .fltInjectArg => ⟨0x151014, 0x0, 1, 0x0, 1, 17, 10, .wo, 0, .value, (.to 0)⟩
  | .fltInjectGo => ⟨0x151014, 0x0, 1, 0x0, 1, 31, 31, .wo, 0, .value, (.to 0)⟩
  | .fltRecoveriesCount => ⟨0x151018, 0x0, 1, 0x0, 1, 31, 0, .ro, 0, .value, .kept⟩
  | .fltCntCCount => ⟨0x15101C, 0x0, 1, 0x0, 1, 31, 0, .ro, 0, .value, .kept⟩
  | .fltCntUCount => ⟨0x151020, 0x0, 1, 0x0, 1, 31, 0, .ro, 0, .value, .kept⟩
  | .fltCntFCount => ⟨0x151024, 0x0, 1, 0x0, 1, 31, 0, .ro, 0, .value, .kept⟩
  | .fltLastFCause => ⟨0x151028, 0x0, 1, 0x0, 1, 7, 0, .ro, 0, .value, .kept⟩
  | .fltLastFSource => ⟨0x151028, 0x0, 1, 0x0, 1, 24, 16, .ro, 0, .value, .kept⟩
  | .fltRailbadMask => ⟨0x151040, 0x4, 10, 0x0, 1, 31, 0, .ro, 0, .value, .kept⟩
  | .bootStatusState => ⟨0x10000, 0x0, 1, 0x0, 1, 2, 0, .ro, 0, .start, .start⟩
  | .bootStatusStep => ⟨0x10000, 0x0, 1, 0x0, 1, 7, 4, .ro, 0, .start, .start⟩
  | .bootStatusReason => ⟨0x10000, 0x0, 1, 0x0, 1, 15, 8, .ro, 0, .start, .start⟩
  | .bootStatusSlot => ⟨0x10000, 0x0, 1, 0x0, 1, 16, 16, .ro, 0, .start, .start⟩
  | .bootStatusWarm => ⟨0x10000, 0x0, 1, 0x0, 1, 17, 17, .ro, 0, .value, (.to 1)⟩
  | .bootStatusStackKept => ⟨0x10000, 0x0, 1, 0x0, 1, 18, 18, .ro, 0, .value, .start⟩
  | .bootStatusTarnKept => ⟨0x10000, 0x0, 1, 0x0, 1, 19, 19, .ro, 0, .value, .start⟩
  | .bootStatusCfgReloaded => ⟨0x10000, 0x0, 1, 0x0, 1, 20, 20, .ro, 0, .value, .start⟩
  | .bootStatusStackValid => ⟨0x10000, 0x0, 1, 0x0, 1, 21, 21, .ro, 0, .start, .start⟩
  | .bootStatusAttempts => ⟨0x10000, 0x0, 1, 0x0, 1, 26, 24, .ro, 0, .start, .start⟩
  | .bootCtrlStackRetain => ⟨0x10004, 0x0, 1, 0x0, 1, 0, 0, .rwL, 0, .image, .kept⟩
  | .bootCtrlClearBad => ⟨0x10004, 0x0, 1, 0x0, 1, 1, 1, .wo, 0, .value, (.to 0)⟩
  | .bootCtrlNextB => ⟨0x10004, 0x0, 1, 0x0, 1, 2, 2, .rwL, 0, .value, .start⟩
  | .bootImgSeqSeq => ⟨0x10008, 0x0, 1, 0x0, 1, 31, 0, .ro, 0, .start, .start⟩
  | .bootFwVerVer => ⟨0x1000C, 0x0, 1, 0x0, 1, 31, 0, .ro, 0, .start, .start⟩
  | .bootCfgVerVer => ⟨0x10010, 0x0, 1, 0x0, 1, 31, 0, .ro, 0, .start, .start⟩
  | .bootBadASeq => ⟨0x10014, 0x0, 1, 0x0, 1, 31, 0, .ro, 0, .start, .start⟩
  | .bootBadBSeq => ⟨0x10018, 0x0, 1, 0x0, 1, 31, 0, .ro, 0, .start, .start⟩
  | .bootTimeMs => ⟨0x1001C, 0x0, 1, 0x0, 1, 15, 0, .ro, 0, .start, .start⟩
  | .bootSpiMode => ⟨0x10020, 0x0, 1, 0x0, 1, 1, 0, .ro, 0, .start, .start⟩
  | .bootSpiMhz => ⟨0x10020, 0x0, 1, 0x0, 1, 15, 8, .ro, 0, .start, .start⟩
  | .bootSpiHdrCopy => ⟨0x10020, 0x0, 1, 0x0, 1, 16, 16, .ro, 0, .start, .start⟩
  | .bootSbIanaNum => ⟨0x10024, 0x0, 1, 0x0, 1, 31, 0, .ro, 0, .start, .kept⟩
  | .bootLastData => ⟨0x10040, 0x4, 8, 0x0, 1, 31, 0, .ro, 0, .start, .start⟩
  | .bootFlAddrAddr => ⟨0x10100, 0x0, 1, 0x0, 1, 22, 0, .rwL, 0, .value, .kept⟩
  | .bootFlCmdOp => ⟨0x10104, 0x0, 1, 0x0, 1, 1, 0, .wo, 0, .value, (.to 0)⟩
  | .bootFlCmdGo => ⟨0x10104, 0x0, 1, 0x0, 1, 31, 31, .wo, 0, .value, (.to 0)⟩
  | .bootFlStatusBusy => ⟨0x10108, 0x0, 1, 0x0, 1, 0, 0, .ro, 0, .value, (.to 0)⟩
  | .bootFlStatusDone => ⟨0x10108, 0x0, 1, 0x0, 1, 1, 1, .rw1c, 0, .value, (.to 0)⟩
  | .bootFlStatusResult => ⟨0x10108, 0x0, 1, 0x0, 1, 5, 2, .ro, 0, .value, (.to 0)⟩
  | .bootFlBufData => ⟨0x10200, 0x4, 64, 0x0, 1, 31, 0, .rwL, 0, .value, (.to 0)⟩
  | .otpStatusMarginal => ⟨0x20000, 0x0, 1, 0x0, 1, 0, 0, .ro, 0, .start, .kept⟩
  | .otpStatusProgBusy => ⟨0x20000, 0x0, 1, 0x0, 1, 1, 1, .ro, 0, .value, .start⟩
  | .otpRegionValid => ⟨0x20010, 0x4, 6, 0x0, 1, 0, 0, .ro, 0, .start, .kept⟩
  | .otpRegionLocked => ⟨0x20010, 0x4, 6, 0x0, 1, 1, 1, .ro, 0, .start, .start⟩
  | .otpRegionForced => ⟨0x20010, 0x4, 6, 0x0, 1, 2, 2, .ro, 0, .start, .start⟩
  | .otpRegionEmpty => ⟨0x20010, 0x4, 6, 0x0, 1, 3, 3, .ro, 0, .start, .kept⟩
  | .otpRegionMarginal => ⟨0x20010, 0x4, 6, 0x0, 1, 15, 8, .ro, 0, .start, .kept⟩
  | .otpMargFirstBit => ⟨0x20030, 0x0, 1, 0x0, 1, 14, 0, .ro, 0, .start, .kept⟩
  | .otpMargFirstValid => ⟨0x20030, 0x0, 1, 0x0, 1, 31, 31, .ro, 0, .start, .kept⟩
  | .otpProgOpsCount => ⟨0x20034, 0x0, 1, 0x0, 1, 31, 0, .ro, 0, .value, .kept⟩
  | .otpProgFailsCount => ⟨0x20038, 0x0, 1, 0x0, 1, 31, 0, .ro, 0, .value, .kept⟩
  | .otpRepIgnoredCount => ⟨0x2003C, 0x0, 1, 0x0, 1, 9, 0, .ro, 0, .start, .kept⟩
  | .otpTrimFmax => ⟨0x20040, 0x0, 1, 0x0, 1, 4, 0, .ro, 0, .start, .kept⟩
  | .otpTrimRefConservative => ⟨0x20040, 0x0, 1, 0x0, 1, 8, 8, .ro, 0, .start, .kept⟩
  | .otpShadowData => ⟨0x21000, 0x4, 1024, 0x0, 1, 31, 0, .ro, 0, .start, .start⟩
  | .bistCtrlAbort => ⟨0x180000, 0x0, 1, 0x0, 1, 0, 0, .wo, 0, .value, (.to 0)⟩
  | .bistStatusState => ⟨0x180004, 0x0, 1, 0x0, 1, 1, 0, .ro, 3, .value, .kept⟩
  | .bistStatusHeldVolt => ⟨0x180004, 0x0, 1, 0x0, 1, 2, 2, .ro, 0, .value, .start⟩
  | .bistStatusHeldClk => ⟨0x180004, 0x0, 1, 0x0, 1, 3, 3, .ro, 0, .value, .start⟩
  | .bistStatusHeldTemp => ⟨0x180004, 0x0, 1, 0x0, 1, 4, 4, .ro, 0, .value, .start⟩
  | .bistStatusDestructive => ⟨0x180004, 0x0, 1, 0x0, 1, 5, 5, .ro, 1, .value, .kept⟩
  | .bistStatusResult => ⟨0x180004, 0x0, 1, 0x0, 1, 9, 8, .ro, 0, .start, .kept⟩
  | .bistTimeUs => ⟨0x180008, 0x0, 1, 0x0, 1, 31, 0, .ro, 0, .start, .kept⟩
  | .bistFailOvfCount => ⟨0x18000C, 0x0, 1, 0x0, 1, 31, 0, .ro, 0, .start, .kept⟩
  | .bistSoftWaysCount => ⟨0x180010, 0x0, 1, 0x0, 1, 7, 0, .ro, 0, .start, .kept⟩
  | .bistTestResult => ⟨0x180040, 0x4, 10, 0x0, 1, 1, 0, .ro, 0, .start, .kept⟩
  | .bistTestFull => ⟨0x180040, 0x4, 10, 0x0, 1, 2, 2, .ro, 0, .value, .kept⟩
  | .bistTestFails => ⟨0x180040, 0x4, 10, 0x0, 1, 31, 8, .ro, 0, .start, .kept⟩
  | .bistFailData => ⟨0x180400, 0x10, 32, 0x4, 4, 31, 0, .ro, 0, .start, .kept⟩
  | .pmcSelEvent => ⟨0x170000, 0x10, 64, 0x0, 1, 15, 0, .rwL, 0, .value, .kept⟩
  | .pmcSelEn => ⟨0x170000, 0x10, 64, 0x0, 1, 16, 16, .rwL, 0, .value, .kept⟩
  | .pmcSelClear => ⟨0x170000, 0x10, 64, 0x0, 1, 17, 17, .wo, 0, .value, (.to 0)⟩
  | .pmcCntLoCount => ⟨0x170004, 0x10, 64, 0x0, 1, 31, 0, .ro, 0, .value, (.to 0)⟩
  | .pmcCntHiCount => ⟨0x170008, 0x10, 64, 0x0, 1, 15, 0, .ro, 0, .value, (.to 0)⟩
  | .pmcCtrlFreeze => ⟨0x171000, 0x0, 1, 0x0, 1, 0, 0, .rwL, 0, .value, .kept⟩
  | .pmcCtrlClearAll => ⟨0x171000, 0x0, 1, 0x0, 1, 1, 1, .wo, 0, .value, (.to 0)⟩
  | .pmcOvfLoMask => ⟨0x171004, 0x0, 1, 0x0, 1, 31, 0, .rw1c, 0, .value, (.to 0)⟩
  | .pmcOvfHiMask => ⟨0x171008, 0x0, 1, 0x0, 1, 31, 0, .rw1c, 0, .value, (.to 0)⟩
  | .pmcUserReadLoMask => ⟨0x17100C, 0x0, 1, 0x0, 1, 31, 0, .rwL, 0, .value, .kept⟩
  | .pmcUserReadHiMask => ⟨0x171010, 0x0, 1, 0x0, 1, 31, 0, .rwL, 0, .value, .kept⟩
  | .pmcBwCfgWindowUs => ⟨0x172000, 0x0, 1, 0x0, 1, 19, 0, .rwB, 1000, .value, .kept⟩
  | .pmcBwSeqSeq => ⟨0x172004, 0x0, 1, 0x0, 1, 31, 0, .ro, 0, .value, (.to 0)⟩
  | .pmcBwRate => ⟨0x172100, 0x4, 59, 0x0, 1, 19, 0, .ro, 0, .value, (.to 0)⟩
  | .pmcBwPeakRate => ⟨0x172200, 0x4, 59, 0x0, 1, 19, 0, .rc, 0, .value, (.to 0)⟩
  | .pmcVfSelEvent => ⟨0x1000000, 0x1000, 64, 0x10, 8, 15, 0, .rwL, 0, .value, .kept⟩
  | .pmcVfSelEn => ⟨0x1000000, 0x1000, 64, 0x10, 8, 16, 16, .rwL, 0, .value, .kept⟩
  | .pmcVfSelClear => ⟨0x1000000, 0x1000, 64, 0x10, 8, 17, 17, .wo, 0, .value, (.to 0)⟩
  | .pmcVfCntLoCount => ⟨0x1000004, 0x1000, 64, 0x10, 8, 31, 0, .ro, 0, .value, (.to 0)⟩
  | .pmcVfCntHiCount => ⟨0x1000008, 0x1000, 64, 0x10, 8, 15, 0, .ro, 0, .value, (.to 0)⟩
  | .pmcVfStatusOvf => ⟨0x1000100, 0x1000, 64, 0x0, 1, 7, 0, .rw1c, 0, .value, (.to 0)⟩
  | .pmcVfStatusSelReject => ⟨0x1000100, 0x1000, 64, 0x0, 1, 8, 8, .rw1c, 0, .value, (.to 0)⟩
  | .pmcVfStatusUserRead => ⟨0x1000100, 0x1000, 64, 0x0, 1, 9, 9, .ro, 0, .value, .kept⟩
  | .devIdPart => ⟨0x0, 0x0, 1, 0x0, 1, 15, 0, .ro, 38422, .value, .kept⟩
  | .devIdStepping => ⟨0x0, 0x0, 1, 0x0, 1, 23, 16, .ro, 0, .start, .kept⟩
  | .devStatusNarrowWr => ⟨0x4, 0x0, 1, 0x0, 1, 0, 0, .rw1c, 0, .value, (.to 0)⟩
  | .devTimerLoTime => ⟨0x8, 0x0, 1, 0x0, 1, 31, 0, .ro, 0, .value, (.to 0)⟩
  | .devTimerHiTime => ⟨0xC, 0x0, 1, 0x0, 1, 31, 0, .ro, 0, .value, (.to 0)⟩
  | .jobStatusAnyReject => ⟨0x64000, 0x0, 1, 0x0, 1, 0, 0, .ro, 0, .value, (.to 0)⟩
  | .jobStatusAnyDbErr => ⟨0x64000, 0x0, 1, 0x0, 1, 1, 1, .ro, 0, .value, (.to 0)⟩
  | .msixAddrLo => ⟨0x2000000, 0x1000, 64, 0x10, 128, 31, 0, .rwL, 0, .value, (.to 0)⟩
  | .msixAddrHi => ⟨0x2000004, 0x1000, 64, 0x10, 128, 31, 0, .rwL, 0, .value, (.to 0)⟩
  | .msixData => ⟨0x2000008, 0x1000, 64, 0x10, 128, 31, 0, .rwL, 0, .value, (.to 0)⟩
  | .msixMask => ⟨0x200000C, 0x1000, 64, 0x10, 128, 0, 0, .rwL, 1, .value, (.to 1)⟩
  | .msixPba => ⟨0x2000800, 0x1000, 64, 0x4, 4, 31, 0, .ro, 0, .value, (.to 0)⟩
  | .cfgMse => ⟨0x4000004, 0x1000, 64, 0x0, 1, 1, 1, .rwL, 0, .value, (.to 0)⟩
  | .cfgBme => ⟨0x4000004, 0x1000, 64, 0x0, 1, 2, 2, .rwL, 0, .value, (.to 0)⟩
  | .cfgPmState => ⟨0x4000044, 0x1000, 64, 0x0, 1, 1, 0, .rwL, 0, .value, (.to 0)⟩
  | .cfgEro => ⟨0x4000058, 0x1000, 64, 0x0, 1, 4, 4, .rwL, 1, .value, (.to 1)⟩
  | .cfgMps => ⟨0x4000058, 0x1000, 64, 0x0, 1, 7, 5, .rwL, 0, .value, (.to 0)⟩
  | .cfgEns => ⟨0x4000058, 0x1000, 64, 0x0, 1, 11, 11, .rwL, 1, .value, (.to 1)⟩
  | .cfgMrrs => ⟨0x4000058, 0x1000, 64, 0x0, 1, 14, 12, .rwL, 2, .value, (.to 2)⟩
  | .cfgFlr => ⟨0x4000058, 0x1000, 64, 0x0, 1, 15, 15, .wo, 0, .value, (.to 0)⟩
  | .cfgAspm => ⟨0x4000060, 0x1000, 64, 0x0, 1, 1, 0, .rwL, 0, .value, (.to 0)⟩
  | .cfgRetrain => ⟨0x4000060, 0x1000, 64, 0x0, 1, 5, 5, .wo, 0, .value, (.to 0)⟩
  | .cfgCtoValue => ⟨0x4000078, 0x1000, 64, 0x0, 1, 3, 0, .rwL, 0, .value, (.to 0)⟩
  | .cfgCtoDisable => ⟨0x4000078, 0x1000, 64, 0x0, 1, 4, 4, .rwL, 0, .value, (.to 0)⟩
  | .cfgTag10En => ⟨0x4000078, 0x1000, 64, 0x0, 1, 12, 12, .rwL, 0, .value, (.to 0)⟩
  | .cfgMsixFuncMask => ⟨0x40000B0, 0x1000, 64, 0x0, 1, 30, 30, .rwL, 0, .value, (.to 0)⟩
  | .cfgMsixEn => ⟨0x40000B0, 0x1000, 64, 0x0, 1, 31, 31, .rwL, 0, .value, (.to 0)⟩
  | .cfgAerUncStatus => ⟨0x4000104, 0x1000, 64, 0x0, 1, 31, 0, .rw1c, 0, .value, .kept⟩
  | .cfgAerUncMask => ⟨0x4000108, 0x1000, 64, 0x0, 1, 31, 0, .rwL, 4194304, .value, .kept⟩
  | .cfgAerUncSev => ⟨0x400010C, 0x1000, 64, 0x0, 1, 31, 0, .rwL, 401456, .value, .kept⟩
  | .cfgAerCorStatus => ⟨0x4000110, 0x1000, 64, 0x0, 1, 31, 0, .rw1c, 0, .value, .kept⟩
  | .cfgAerCorMask => ⟨0x4000114, 0x1000, 64, 0x0, 1, 31, 0, .rwL, 57344, .value, .kept⟩
  | .cfgVfEnable => ⟨0x4000178, 0x1000, 64, 0x0, 1, 0, 0, .rwL, 0, .value, (.to 0)⟩
  | .cfgVfMse => ⟨0x4000178, 0x1000, 64, 0x0, 1, 3, 3, .rwL, 0, .value, (.to 0)⟩
  | .cfgAriHier => ⟨0x4000178, 0x1000, 64, 0x0, 1, 4, 4, .rwL, 0, .value, (.to 0)⟩
  | .cfgNumVfs => ⟨0x4000180, 0x1000, 64, 0x0, 1, 15, 0, .rwL, 0, .value, (.to 0)⟩
  | .cfgTag14En => ⟨0x4000308, 0x1000, 64, 0x0, 1, 2, 2, .rwL, 0, .value, (.to 0)⟩
  | .cfgL0pEn => ⟨0x4000308, 0x1000, 64, 0x0, 1, 3, 3, .rwL, 0, .value, (.to 0)⟩
  | .cfgDoeIrqEn => ⟨0x4000318, 0x1000, 64, 0x0, 1, 1, 1, .rwL, 0, .value, (.to 0)⟩
  | .cfgDoeBusy => ⟨0x400031C, 0x1000, 64, 0x0, 1, 0, 0, .ro, 0, .value, (.to 0)⟩
  | .cfgDoeError => ⟨0x400031C, 0x1000, 64, 0x0, 1, 2, 2, .ro, 0, .value, (.to 0)⟩
  | .cfgDoeReady => ⟨0x400031C, 0x1000, 64, 0x0, 1, 31, 31, .ro, 0, .value, (.to 0)⟩
  | .cfgBar0Lo => ⟨0x4000010, 0x1000, 1, 0x0, 1, 31, 24, .rwL, 0, .value, (.to 0)⟩
  | .cfgBar0Hi => ⟨0x4000014, 0x1000, 1, 0x0, 1, 31, 0, .rwL, 0, .value, (.to 0)⟩
  | .cfgBar2Hi => ⟨0x400001C, 0x1000, 1, 0x0, 1, 31, 5, .rwL, 0, .value, (.to 0)⟩
  | .cfgBar4Lo => ⟨0x4000020, 0x1000, 1, 0x0, 1, 31, 20, .rwL, 0, .value, (.to 0)⟩
  | .cfgBar4Hi => ⟨0x4000024, 0x1000, 1, 0x0, 1, 31, 0, .rwL, 0, .value, (.to 0)⟩
  | .cfgAerFep => ⟨0x4000118, 0x1000, 64, 0x0, 1, 4, 0, .ro, 0, .value, .kept⟩
  | .cfgAerEcrcGen => ⟨0x4000118, 0x1000, 64, 0x0, 1, 6, 6, .rwL, 0, .value, .kept⟩
  | .cfgAerEcrcChk => ⟨0x4000118, 0x1000, 64, 0x0, 1, 8, 8, .rwL, 0, .value, .kept⟩
  | .cfgAerHdr => ⟨0x400011C, 0x1000, 64, 0x4, 4, 31, 0, .ro, 0, .value, .kept⟩
  | .cfgSysPage => ⟨0x4000190, 0x1000, 1, 0x0, 1, 31, 0, .rwL, 1, .value, (.to 0)⟩
  | .cfgVfBar0Lo => ⟨0x4000194, 0x1000, 1, 0x0, 1, 31, 16, .rwL, 0, .value, (.to 0)⟩
  | .cfgVfBar0Hi => ⟨0x4000198, 0x1000, 1, 0x0, 1, 31, 0, .rwL, 0, .value, (.to 0)⟩
  | .cfgVfBar2Lo => ⟨0x400019C, 0x1000, 1, 0x0, 1, 31, 30, .rwL, 0, .value, (.to 0)⟩
  | .cfgVfBar2Hi => ⟨0x40001A0, 0x1000, 1, 0x0, 1, 31, 0, .rwL, 0, .value, (.to 0)⟩
  | .cfgVfBar4Lo => ⟨0x40001A4, 0x1000, 1, 0x0, 1, 31, 16, .rwL, 0, .value, (.to 0)⟩
  | .cfgVfBar4Hi => ⟨0x40001A8, 0x1000, 1, 0x0, 1, 31, 0, .rwL, 0, .value, (.to 0)⟩
  | .cfgDoeAbort => ⟨0x4000318, 0x1000, 1, 0x0, 1, 0, 0, .wo, 0, .value, (.to 0)⟩
  | .cfgDoeGo => ⟨0x4000318, 0x1000, 1, 0x0, 1, 31, 31, .wo, 0, .value, (.to 0)⟩
  | .cfgDoeWrite => ⟨0x4000320, 0x1000, 1, 0x0, 1, 31, 0, .wo, 0, .value, (.to 0)⟩
  | .cfgDoeRead => ⟨0x4000324, 0x1000, 1, 0x0, 1, 31, 0, .rwL, 0, .value, (.to 0)⟩
  | .cfgIdeSelCtl => ⟨0x4000350, 0x1000, 1, 0x2C, 8, 31, 0, .rwL, 0, .value, (.to 0)⟩
  | .cfgIdeRidLimit => ⟨0x4000358, 0x1000, 1, 0x2C, 8, 23, 8, .rwL, 0, .value, (.to 0)⟩
  | .cfgIdeRidValid => ⟨0x400035C, 0x1000, 1, 0x2C, 8, 0, 0, .rwL, 0, .value, (.to 0)⟩
  | .cfgIdeRidBase => ⟨0x400035C, 0x1000, 1, 0x2C, 8, 23, 8, .rwL, 0, .value, (.to 0)⟩
  | .cfgIdeAddr0A => ⟨0x4000360, 0x1000, 1, 0x2C, 8, 31, 0, .rwL, 0, .value, (.to 0)⟩
  | .cfgIdeAddr0B => ⟨0x4000364, 0x1000, 1, 0x2C, 8, 31, 0, .rwL, 0, .value, (.to 0)⟩
  | .cfgIdeAddr0C => ⟨0x4000368, 0x1000, 1, 0x2C, 8, 31, 0, .rwL, 0, .value, (.to 0)⟩
  | .cfgIdeAddr1A => ⟨0x400036C, 0x1000, 1, 0x2C, 8, 31, 0, .rwL, 0, .value, (.to 0)⟩
  | .cfgIdeAddr1B => ⟨0x4000370, 0x1000, 1, 0x2C, 8, 31, 0, .rwL, 0, .value, (.to 0)⟩
  | .cfgIdeAddr1C => ⟨0x4000374, 0x1000, 1, 0x2C, 8, 31, 0, .rwL, 0, .value, (.to 0)⟩

/-- Fields of the RIP block. -/
def fieldsRip : List FN :=
  [.ripProfWord, .ripPinfoN, .ripPinfoTol, .ripPinfoState, .ripPinfoReason, .ripPloadLoaded, .ripPloadRejected,
   .ripPloadVerifyMs, .ripPloadVerifyDone, .ripPlansCount, .ripPlanBusyCount, .ripPlanMaxlatMaxlat,
   .ripSchedRejCount]

/-- Fields of the JOB block. -/
def fieldsJob : List FN :=
  [.jobRqSqbaseLoAddr, .jobRqSqbaseHiAddr, .jobRqCqbaseLoAddr, .jobRqCqbaseHiAddr, .jobRqCfgLog2size,
   .jobRqCfgHomePond, .jobRqCfgFunc, .jobRqCfgAlloc, .jobRqCtrlEn, .jobRqCtrlReset, .jobRqCtrlDropInt,
   .jobRqSqHead, .jobRqSqLap, .jobRqCqTail, .jobRqCqPhase, .jobRqDbSqTail, .jobRqDbCqHead, .jobRqIrqVector,
   .jobRqIrqCoalCnt, .jobRqIrqCoalUs, .jobRqCancelSlot, .jobRqCancelGen, .jobRqCancelGo, .jobRqStatusIdle,
   .jobRqStatusCfgReject, .jobRqStatusDbErr, .jobRqStatusFetchHeld, .jobRqStatusIntPending,
   .jobRqStatusOutstanding, .jobRqStaleCount, .jobRqCmissCount, .jobStatusAnyReject, .jobStatusAnyDbErr]

/-- Fields of the ENG block. -/
def fieldsEng : List FN :=
  [.engCtrlOfflineReq, .engCtrlSelftest, .engStateState, .engStateLastCause, .engTasksCount, .engFencesCount,
   .engPondCtrlStealEn, .engPondDqDepth, .engPondStealsCount, .engPondStolenCount, .engPondSkipsCount,
   .engPondMaxdqMax, .engCfgStealTdelta, .engCfgJobTaskCap, .engCfgRejoinLimit, .engStatusOnline,
   .engStatusFenced, .engStatusOffline, .engVaeChecksCount, .engVaeMismatchCount, .engStaleTokCount,
   .engRequeuesCount, .engTaskFailCount, .engVaeSameCount]

/-- Fields of the SEAL block. -/
def fieldsSeal : List FN :=
  [.sealEpochLoEpoch, .sealEpochHiEpoch, .sealAutoAutoN, .sealFcfgEnc, .sealLogBaseLoAddr, .sealLogBaseHiAddr,
   .sealLogCfgLog2size, .sealLogCfgVector, .sealLogCfgLogEn, .sealLogPtrTail, .sealLogPtrPhase,
   .sealLogHeadHead, .sealStatusEpochReg, .sealStatusCfgReject, .sealStatusLogFull, .sealStatusSealing,
   .sealBseqLoSeq, .sealBseqHiSeq, .sealOpenEntries, .sealLastLoEpoch, .sealLastHiEpoch, .sealEpochRejCount,
   .sealKeyVer, .sealKeyState, .sealKactLoEpoch, .sealKactHiEpoch, .sealKuseCount, .sealChainId]

/-- Fields of the LCS block. -/
def fieldsLcs : List FN :=
  [.lcsStateState, .lcsStatePendingChange, .lcsStateCertOk, .lcsStateOwnerOk, .lcsStateOwnerSlot, .lcsStateHold,
   .lcsArbCount, .lcsArbFwSvn, .lcsTamperVolt, .lcsTamperClock, .lcsTamperTemp, .lcsTamperMesh,
   .lcsTamperLcWipe, .lcsTamperStackPending, .lcsTamperCount, .lcsMboxCtrlGo, .lcsMboxStatusBusy,
   .lcsMboxStatusDone, .lcsMboxStatusOverrun, .lcsMboxStatusResult, .lcsMboxStatusOutLen, .lcsMboxBufData]

/-- Fields of the TARN block. -/
def fieldsTarn : List FN :=
  [.tarnStatusKeypathOpen, .tarnStatusWiped, .tarnCollRwCount, .tarnCollWwCount, .tarnWipesCount,
   .tarnKqResetsCount]

/-- Fields of the PCX block. -/
def fieldsPcx : List FN :=
  [.pcxLinkStatusRate, .pcxLinkStatusWidth, .pcxLinkStatusFlit, .pcxLinkStatusReversed,
   .pcxLinkStatusL0pReduced, .pcxLinkStatusDlUp, .pcxLinkStatusPrecodeTx, .pcxLinkStatusLtssm, .pcxPolarityInv,
   .pcxPrecodeTx, .pcxPrecodeRx, .pcxLinkCfgMaxRate, .pcxLinkCfgMaxWidth, .pcxLinkCfgRxPrecodeReq,
   .pcxLinkCfgL0pInit, .pcxL0pMinWidth, .pcxL0pIdleUs, .pcxStatusBar2Early, .pcxStatusDbEarly,
   .pcxStatusWidthDegraded, .pcxStatusRateDegraded, .pcxRecoveriesCount, .pcxLinkdownsCount, .pcxFecCorrCount,
   .pcxReplaysCount, .pcxCplTimeoutsCount, .pcxUnexpCplCount, .pcxTagsOutstanding, .pcxTagsTagsHeld,
   .pcxLaneFailLanes]

/-- Fields of the DRC block. -/
def fieldsDrc0 : List FN :=
  [.drcBasinCfgEn, .drcBasinCfgGrain, .drcBasinCfgOwner, .drcBasinCfgJournal, .drcBasinBaseBase,
   .drcBasinLocLbase, .drcBasinLocExt, .drcBasinPcmaskLoMask, .drcBasinPcmaskHiMask, .drcBasinSizeSize,
   .drcCtrlSrAuto, .drcCtrlSrIdleUs, .drcCtrlAgeCap, .drcCtrlRefForce2x, .drcRfmRfmTh, .drcWrqWrHi, .drcWrqWrLo,
   .drcStatusCfgReject, .drcStatusBar2Hole, .drcStatusBar2Poison, .drcStatusBar2Therm, .drcStatusZeroing,
   .drcBar2HolesCount, .drcBar2MaxlatMaxlat, .drcRetiredLoMask, .drcRetiredHiMask, .drcRef2xLoMask,
   .drcRef2xHiMask, .drcSrLoMask, .drcSrHiMask, .drcPcStateState, .drcPcStateRef2x, .drcPcStateUrgent,
   .drcPcStateRefTemp, .drcPcRefsCount, .drcPcPpmaxMax, .drcPcUrgentCount, .drcPcRfmCount, .drcPcSrCount,
   .drcPcSrheldCount]

/-- Fields of the DRC block. -/
def fieldsDrc1 : List FN :=
  [.drcPcQmaxMax, .drcPcRowhitCount, .drcPcRowmissCount, .drcPcAgedCount]

/-- Fields of the LAKE block. -/
def fieldsLake : List FN :=
  [.lakeCtrlFlush, .lakeStatusFlushing, .lakeStatusQuadOn, .lakeSysWaysMask, .lakeWaysOffCount, .lakeArrCeCount,
   .lakeArrUeCount, .lakeSetsBlockedCount, .lakePoisonSetCount, .lakeWaysMask]

/-- Fields of the EVT block. -/
def fieldsEvt : List FN :=
  [.evtPop0Word0, .evtPop1Word1, .evtPop2Word2, .evtPop3Word3, .evtCountCount, .evtLostCount, .evtRouteEn,
   .evtRouteRing, .evtRingCfgVector, .evtRingCfgEn]

/-- Fields of the WEIR block. -/
def fieldsWeir : List FN :=
  [.weirPortRateRate, .weirPortBurstBurst, .weirPortEffEff, .weirPortEffClamped, .weirPortHeldCount,
   .weirPortLinesCount, .weirPortInfoKind, .weirGrpCfgGuar, .weirGrpCfgAdmitted, .weirGrpCfgPrioBase,
   .weirGrpCfgQmin, .weirGrpCfgQmax, .weirGrpRateGRate, .weirGrpEffGEff, .weirGrpLatLatTarget,
   .weirGrpLatavgAvg, .weirGrpLatavgPrio, .weirGrpMissCount, .weirGrpSpillCount, .weirGrpAgedCount,
   .weirCtrlAgeLimit, .weirStatusGuarScaled, .weirStatusAdmitDemoted, .weirStatusClamp, .weirStatusSysDemoted,
   .weirDnomD, .weirDnowD, .weirGsumSum, .weirScaleScale, .weirDemotedLoMask, .weirDemotedHiMask,
   .weirScaleEventsCount]

/-- Fields of the VLK block. -/
def fieldsVlk : List FN :=
  [.vlkPcSpares, .vlkPcErased, .vlkPcDegraded, .vlkPcExhausted, .vlkPcErase0, .vlkPcErase1, .vlkPcShifts,
   .vlkPcBadBad0, .vlkPcBadBad1, .vlkPcBadBad2, .vlkPcBadBad3, .vlkPcSuspectLane, .vlkPcSuspectValid,
   .vlkCaBad0, .vlkCaBad1, .vlkCaSpares, .vlkCaFailed, .vlkCtrlAutoShift, .vlkCtrlLaneTh, .vlkCtrlLaneWin,
   .vlkDegLoMask, .vlkDegHiMask, .vlkShiftReqPc, .vlkShiftReqLane, .vlkShiftReqGo]

/-- Fields of the INTEG block. -/
def fieldsInteg0 : List FN :=
  [.integCeLocPc, .integCeLocBg, .integCeLocBank, .integCeLocCol, .integCeLocSymbol, .integCeLocValid,
   .integCeRowRow, .integCeCntCount, .integCeTimeLoTime, .integCeTimeHiTime, .integPcCeCount, .integPcUeCount,
   .integPcRetryCount, .integPcSpareUsed, .integCtrlDegLogMs, .integStatusCeFull, .integStatusDrOverrun,
   .integStatusRetReject, .integStatusDrBusy, .integStatusBehind, .integCeDropCount, .integRecBadCount,
   .integDrOfsLoOfs, .integDrOfsHiOfs, .integDrLenLoLen, .integDrLenHiLen, .integDrCtrlGo, .integDrCtrlStop,
   .integDrSumData, .integDrEveryEvery, .integDrRcfgRoundGib, .integDrCursorLoCursor, .integDrCursorHiCursor,
   .integDrNextLoEpoch, .integDrNextHiEpoch, .integDrRoundsCount, .integDrMissedCount, .integDrUeCount,
   .integRetRowRow, .integRetCmdPc]

/-- Fields of the INTEG block. -/
def fieldsInteg1 : List FN :=
  [.integRetCmdBg, .integRetCmdBank, .integRetCmdOp, .integRetCmdGo, .integRetStatusBusy, .integRetStatusResult,
   .integRetStatusSpare]

/-- Fields of the THM block. -/
def fieldsThm : List FN :=
  [.thmSensTemp, .thmSensStale, .thmSensFailed, .thmRefsTemp, .thmRefsStale, .thmRefsFailed, .thmLayerTMeas,
   .thmLayerTModel, .thmLayerGGov, .thmLayerGSuspect, .thmLayerGStale, .thmLayerGRate, .thmCtrlGrace,
   .thmCtrlTf, .thmCtrlResume, .thmStatusWarnLogic, .thmStatusWarnDram, .thmStatusTstate,
   .thmStatusStackSuspect, .thmStatusAnySuspect, .thmStatusThReject, .thmStatusResumeEarly, .thmStatusThrReq,
   .thmLogicThWarn, .thmLogicThThrottle, .thmLogicThShutdown, .thmLogicThHyst, .thmDramThWarn,
   .thmDramThThrottle, .thmDramThShutdown, .thmDramThHyst, .thmPeakLogic, .thmPeakDram, .thmReqsCount,
   .thmEnfUsTime, .thmShutdownsCount, .thmSuspectsCount]

/-- Fields of the PWR block. -/
def fieldsPwr : List FN :=
  [.pwrDomOffReq, .pwrDomState, .pwrWakeCount, .pwrHeldCount, .pwrCapLimit, .pwrCapPtf, .pwrStatusCapped,
   .pwrStatusAvg, .pwrCapsCount]

/-- Fields of the CAL block. -/
def fieldsCal : List FN :=
  [.calCtrlCalDelta, .calCtrlForce, .calStatusRunning, .calStatusRecBad, .calStatusRecWrFail,
   .calStatusDeferred, .calRunsCount, .calRecSeqSeq, .calRecWritesCount]

/-- Fields of the FLT block. -/
def fieldsFlt : List FN :=
  [.fltRecW0, .fltRecSrcW1, .fltRecArgW2, .fltRecLocW3, .fltRecDetW4, .fltRecTimeLoTime, .fltRecTimeHiTime,
   .fltStateState, .fltStateFaultPin, .fltStateThermPin, .fltStatePending, .fltQueueHead, .fltQueueCount,
   .fltReleaseN, .fltOvfCount, .fltCtrlQuietMs, .fltInjectSource, .fltInjectInvalid, .fltInjectArg,
   .fltInjectGo, .fltRecoveriesCount, .fltCntCCount, .fltCntUCount, .fltCntFCount, .fltLastFCause,
   .fltLastFSource, .fltRailbadMask]

/-- Fields of the BOOT block. -/
def fieldsBoot : List FN :=
  [.bootStatusState, .bootStatusStep, .bootStatusReason, .bootStatusSlot, .bootStatusWarm, .bootStatusStackKept,
   .bootStatusTarnKept, .bootStatusCfgReloaded, .bootStatusStackValid, .bootStatusAttempts,
   .bootCtrlStackRetain, .bootCtrlClearBad, .bootCtrlNextB, .bootImgSeqSeq, .bootFwVerVer, .bootCfgVerVer,
   .bootBadASeq, .bootBadBSeq, .bootTimeMs, .bootSpiMode, .bootSpiMhz, .bootSpiHdrCopy, .bootSbIanaNum,
   .bootLastData, .bootFlAddrAddr, .bootFlCmdOp, .bootFlCmdGo, .bootFlStatusBusy, .bootFlStatusDone,
   .bootFlStatusResult, .bootFlBufData]

/-- Fields of the OTP block. -/
def fieldsOtp : List FN :=
  [.otpStatusMarginal, .otpStatusProgBusy, .otpRegionValid, .otpRegionLocked, .otpRegionForced, .otpRegionEmpty,
   .otpRegionMarginal, .otpMargFirstBit, .otpMargFirstValid, .otpProgOpsCount, .otpProgFailsCount,
   .otpRepIgnoredCount, .otpTrimFmax, .otpTrimRefConservative, .otpShadowData]

/-- Fields of the BIST block. -/
def fieldsBist : List FN :=
  [.bistCtrlAbort, .bistStatusState, .bistStatusHeldVolt, .bistStatusHeldClk, .bistStatusHeldTemp,
   .bistStatusDestructive, .bistStatusResult, .bistTimeUs, .bistFailOvfCount, .bistSoftWaysCount,
   .bistTestResult, .bistTestFull, .bistTestFails, .bistFailData]

/-- Fields of the PMC block. -/
def fieldsPmc : List FN :=
  [.pmcSelEvent, .pmcSelEn, .pmcSelClear, .pmcCntLoCount, .pmcCntHiCount, .pmcCtrlFreeze, .pmcCtrlClearAll,
   .pmcOvfLoMask, .pmcOvfHiMask, .pmcUserReadLoMask, .pmcUserReadHiMask, .pmcBwCfgWindowUs, .pmcBwSeqSeq,
   .pmcBwRate, .pmcBwPeakRate, .pmcVfSelEvent, .pmcVfSelEn, .pmcVfSelClear, .pmcVfCntLoCount, .pmcVfCntHiCount,
   .pmcVfStatusOvf, .pmcVfStatusSelReject, .pmcVfStatusUserRead]

/-- Fields of the DEV block. -/
def fieldsDev : List FN :=
  [.devIdPart, .devIdStepping, .devStatusNarrowWr, .devTimerLoTime, .devTimerHiTime]

/-- Fields of the MSIX block. -/
def fieldsMsix : List FN :=
  [.msixAddrLo, .msixAddrHi, .msixData, .msixMask, .msixPba]

/-- Fields of the CFG block. -/
def fieldsCfg : List FN :=
  [.cfgMse, .cfgBme, .cfgPmState, .cfgEro, .cfgMps, .cfgEns, .cfgMrrs, .cfgFlr, .cfgAspm, .cfgRetrain,
   .cfgCtoValue, .cfgCtoDisable, .cfgTag10En, .cfgMsixFuncMask, .cfgMsixEn, .cfgAerUncStatus, .cfgAerUncMask,
   .cfgAerUncSev, .cfgAerCorStatus, .cfgAerCorMask, .cfgVfEnable, .cfgVfMse, .cfgAriHier, .cfgNumVfs,
   .cfgTag14En, .cfgL0pEn, .cfgDoeIrqEn, .cfgDoeBusy, .cfgDoeError, .cfgDoeReady,
   .cfgBar0Lo, .cfgBar0Hi, .cfgBar2Hi, .cfgBar4Lo, .cfgBar4Hi, .cfgAerFep, .cfgAerEcrcGen, .cfgAerEcrcChk,
   .cfgAerHdr, .cfgSysPage, .cfgVfBar0Lo, .cfgVfBar0Hi, .cfgVfBar2Lo, .cfgVfBar2Hi, .cfgVfBar4Lo,
   .cfgVfBar4Hi, .cfgDoeAbort, .cfgDoeGo, .cfgDoeWrite, .cfgDoeRead, .cfgIdeSelCtl, .cfgIdeRidLimit,
   .cfgIdeRidValid, .cfgIdeRidBase, .cfgIdeAddr0A, .cfgIdeAddr0B, .cfgIdeAddr0C, .cfgIdeAddr1A,
   .cfgIdeAddr1B, .cfgIdeAddr1C]

/-- Every field, in table order. -/
def FN.all : List FN :=
  fieldsRip ++ fieldsJob ++ fieldsEng ++ fieldsSeal ++ fieldsLcs ++ fieldsTarn ++ fieldsPcx ++ fieldsDrc0 ++
    fieldsDrc1 ++ fieldsLake ++ fieldsEvt ++ fieldsWeir ++ fieldsVlk ++ fieldsInteg0 ++ fieldsInteg1 ++
    fieldsThm ++ fieldsPwr ++ fieldsCal ++ fieldsFlt ++ fieldsBoot ++ fieldsOtp ++ fieldsBist ++ fieldsPmc ++
    fieldsDev ++ fieldsMsix ++ fieldsCfg

end Sys2Proof.Machine
end

