-- ==== Sys2Proof/Machine/Regs.lean ====
section
/-! DEFINITION. The register file: a sparse map from field instances to values. A field instance that holds its cold value
is not listed, so equal register files are equal data. -/

namespace Sys2Proof.Machine

/-- The register file's data: (key, value), keys strictly rising, no value equal to the cold one. -/
abbrev RegMap := List (Nat × Nat)

/-- A field's number: its place in `FN`. -/
def FN.num (f : FN) : Nat := f.ctorIdx

/-- The key of instance (i, j) of a field; instance numbers are below 4,096. -/
def FN.key (f : FN) (i j : Nat) : Nat := (f.num * 4096 + i) * 4096 + j

/-- The field's width in bits. -/
def FN.width (f : FN) : Nat := f.row.msb + 1 - f.row.lsb

/-- Do the instance numbers lie in the table's range? -/
def FN.inst (f : FN) (i j : Nat) : Bool := i < f.row.ni && j < f.row.nj

/-- The physical capacity of a fabric port in Weir units, the default of its RATE (R250, R337). -/
def portCapacity (p : Nat) : Nat :=
  if p < 48 then 8000 else if p < 54 then 16000 else if p < 56 then 32000 else if p = 56 then 16000
  else if p = 57 then 80000 else 4000

/-- KIND of WEIR_PORT_INFO: engine, pond DMA, PCIe, system (R272). -/
def portKind (p : Nat) : Nat := if p < 48 then 0 else if p < 54 then 1 else if p < 56 then 2 else 3

/-- The cold value of instance (i, j) of a field (R10): the table's number, except where the table gives it by instance. -/
def FN.cold (f : FN) (i _j : Nat) : Nat :=
  let builtin := builtinProfiles[i]?
  match f with
  | .ripProfWord => (builtin.map Profile.word).getD 0
  | .ripPinfoN => (builtin.map Profile.n).getD 0
  | .ripPinfoTol => (builtin.map Profile.builtinTol).getD 0
  | .ripPinfoState => (builtin.map (fun _ => 1)).getD 0
  | .weirPortRateRate => portCapacity i
  | .weirPortEffEff => portCapacity i
  | .weirPortInfoKind => portKind i
  | .pwrDomState => if i < 63 then 2 else 0
  | .devIdStepping => Config.stepping.toNat
  | .bootSbIanaNum => Config.sbIana.toNat
  | _ => f.row.cold

/-- The value of instance (i, j) of a field, always within the field's width. -/
def RegMap.get (m : RegMap) (f : FN) (i j : Nat) : Nat := (sparseGet m (f.key i j)).getD (f.cold i j) % 2 ^ f.width

/-- The register file with instance (i, j) set to the low bits of `v`; an instance outside the table is left alone. -/
def RegMap.set (m : RegMap) (f : FN) (i j v : Nat) : RegMap :=
  let v := v % 2 ^ f.width
  if !f.inst i j then m
  else if v = f.cold i j then sparseDel m (f.key i j)
  else sparsePut m (f.key i j) v

end Sys2Proof.Machine
end

