-- ==== Sys2Proof/Machine/Parts.lean ====
section
/-! DEFINITION. The parts of the state that are no register fields: plain structures, one group per chapter. Every default
is the value after reset (INVENTORY.md, '## State'). -/

namespace Sys2Proof.Machine

/-! ### Output: what leaves the device (the model's own record, log entry 2) -/

/-- Messages of AER (R206). -/
inductive ErrMsg where
  | cor | nonfatal | fatal
  deriving DecidableEq, Repr

/-- One message that left the device, in order. -/
inductive Out where
  /-- The ECRC of the TLP before it (R176). -/
  | ecrc (func : Nat)
  /-- A posted write of a function to host memory or a peer (R199), with its Relaxed Ordering and No Snoop attributes. -/
  | write (func addr : Nat) (bytes : List Byte) (ro ns : Bool)
  /-- A read request the device issued under a tag, with its No Snoop attribute (R78, R199). -/
  | read (tag func addr len : Nat) (ns : Bool)
  /-- A flushing read (R84). -/
  | flushRead (tag func addr len : Nat)
  /-- An MSI-X message of a function's vector, with the message address and data of its table entry (R203). -/
  | msix (func vector addr data : Nat)
  /-- A successful completion of a host read. -/
  | data (func : Nat) (bytes : List Byte)
  /-- A poisoned completion (R223). -/
  | poisoned (func : Nat) (bytes : List Byte)
  /-- Unsupported Request, Completer Abort (R205), Configuration Request Retry Status (R195), and the completion of a
  configuration write. -/
  | unsupported (func : Nat)
  | aborted (func : Nat)
  | retry (func : Nat)
  | written (func : Nat)
  /-- An AER message (R206). -/
  | aer (func : Nat) (m : ErrMsg)
  /-- An SPDM response on a transport, a DOE object, an error of DOE. -/
  | spdm (t : Transport) (bytes : List Byte)
  | doe (bytes : List Byte)
  /-- A response on the sideband (R351). -/
  | sideband (bytes : List Byte)
  /-- A lane margining response: the lane's status register (R184). -/
  | margin (lane status : Nat)
  /-- An L0p request of the device (R185). -/
  | l0p (width : Nat)
  deriving DecidableEq, Repr

/-! ### Faults and events (14_faults.md, 10_onchip.md) -/

/-- A containment waiting or running (R324): the record it belongs to. -/
structure Contain where
  seq    : Nat
  slot   : Option Nat
  source : Nat
  deriving DecidableEq, Repr

/-- The collector's state beside its registers (R323 to R326). -/
structure Collector where
  nextSeq    : Nat := 1
  running    : Option Contain := none
  waiting    : List Contain := []
  quiet      : Bool := false
  /-- Times of the last recoveries, newest first, at most 7, in always-on time. -/
  recoveries : List Nat := []
  ovfRaised  : Bool := false
  /-- TIME of a PWR_CORE_LOSS record held for the next start (R325). -/
  coreLoss   : Option Nat := none
  /-- Source of the F record that opened CONTAIN_F (R325); a clock's, once one has failed (R23). -/
  opened     : Option Nat := none
  deriving DecidableEq, Repr

/-- An entry of an event ring (R247), with its ring. -/
structure EventEntry where
  ring  : Nat
  func  : Nat
  event : Nat
  arg   : Nat
  time  : Nat
  deriving DecidableEq, Repr

/-- The event rings (R246), oldest entry first; events of a start before READY are held (R249). -/
structure Events where
  entries  : List EventEntry := []
  /-- Rings whose EVT_LOST has been raised since they were last empty (R320, event 305). -/
  lostMark : List Nat := []
  held     : List EventEntry := []
  /-- When each ring's last message was sent (R328), by ring. -/
  sent     : List (Nat × Nat) := []
  deriving DecidableEq, Repr

/-! ### Counters (17_counters_registers.md) -/

structure Counters where
  /-- Latched high bits (R380): counter n of PF0 at n, counter j of VF v at 64 + 8·v + j. -/
  hiLatch   : List (Nat × Nat) := []
  /-- 64-byte units each fabric port released in the current bandwidth window (R383). -/
  bwLines   : List (Nat × Nat) := []
  /-- Fractions of the events that count per µs, per mJ (R377): timer residues. -/
  energyRes : Nat := 0
  /-- Bytes of TLP payload sent and received that TX_UNITS and RX_UNITS have not counted yet (R377, log entry 11). -/
  txBytes   : Nat := 0
  rxBytes   : Nat := 0
  /-- Activity since the latest update of the thermal model (R305), counter c of layer l at 8·l + c: activates, read bursts,
  write bursts, REFpb and targeted refreshes of a die; sector reads, then writes, of Lake quadrants 0 to 3 for L1. -/
  activity  : List (Nat × Nat) := []
  deriving DecidableEq, Repr

/-! ### The Lake (10_onchip.md) -/

/-- One 64-byte sector of a Lake line (R228). -/
structure Sector where
  valid  : Bool
  dirty  : Bool
  poison : Bool
  data   : List Byte
  deriving DecidableEq, Repr

/-- A Lake line held in a slice (R228). -/
structure LakeLine where
  slice : Nat
  set   : Nat
  way   : Nat
  tag   : Nat
  s0    : Sector
  s1    : Sector
  deriving DecidableEq, Repr

/-- A sector on its way from its slice to the array (R231, R233): its PC, its PC-local address, data and poison marker. `clean`:
a clean VALID sector of an evicted line, which the buffer serves as long as the line's write-back is in flight (R231). -/
structure WriteBack where
  pc     : Nat
  a      : Nat
  data   : List Byte
  poison : Bool
  clean  : Bool := false
  deriving DecidableEq, Repr

/-- What a request at a fabric port asks (R250). -/
inductive PortOp where
  | read
  /-- A piece of `len` bytes of BAR2 read number `read`, answered when its slice serves it (R223). -/
  | reply (read len : Nat)
  /-- A zero-length BAR2 read (R223). -/
  | fence
  /-- `bytes` from the request's address on, inside one Lake line; deferred where not durable (R230). -/
  | write (bytes : List Byte) (poisoned durable : Bool)
  /-- A write of `len` bytes whose data the array holds already: a durability point was reached before it left (R84, R118,
  log entry 15). -/
  | settled (len : Nat)
  /-- A line read or written in the array whatever the slice holds: Dredge (R285). -/
  | array (write : Bool)
  deriving DecidableEq, Repr

/-- A request at a fabric port (R250): one or both sectors of a Lake line, from PC-local address `a` on, and the class and
priority it leaves its port with (R251, R258). -/
structure PortReq where
  port  : Nat
  group : Nat
  rt    : Bool
  units : Nat
  pc    : Nat
  a     : Nat
  op    : PortOp
  /-- A request of a Dredge round, scheduled or triggered by software (R261). -/
  round : Bool := false
  /-- A request of the scheduled round (R261). -/
  sched : Bool := false
  /-- The packet of the port's Pack queue whose word it carries (R241). -/
  packet : Option Nat := none
  /-- GUARANTEED at release (R256); its priority, and whether it was promoted or does not age (R258, R260, R261). -/
  guar  : Bool := false
  prio  : Nat := 0
  aged  : Bool := false
  deriving DecidableEq, Repr

structure Lake where
  lines    : List LakeLine := []
  /-- Pseudo-LRU trees, 15 bits, by slice · 1,024 + set; an unlisted tree is 0 (R232). -/
  plru     : List (Nat × Nat) := []
  /-- Sets blocked for allocation, by slice · 1,024 + set (R235). -/
  blocked  : List Nat := []
  /-- Ways disabled by OTP, by slice · 16 + way (R235). -/
  offWays  : List Nat := []
  /-- Sectors whose write-back is on its way to the array, oldest first (R231). -/
  wbuf     : List WriteBack := []
  /-- Quadrants waking, the port requests held meanwhile, and the array reads of requests held (R17). -/
  waking   : List Nat := []
  held     : List PortReq := []
  decodes  : List Instr := []
  /-- The port each slice served last (R262). -/
  lastPort : List (Nat × Nat) := []
  deriving DecidableEq, Repr

/-- An Eddy window of an engine (R236). -/
structure Eddy where
  base : Nat := 0
  len  : Nat := 0
  head : Nat := 0
  hwrap : Bool := false
  tail : Nat := 0
  twrap : Bool := false
  en   : Bool := false
  /-- Bytes the last read delivered to the core or the vector unit, in offset order (R237). -/
  delivered : List Byte := []
  deriving DecidableEq, Repr

/-- A stalled access of a window (R238). -/
structure Stall where
  engine : Nat
  window : Nat
  offset : Nat
  len    : Nat
  write  : Option (List Byte)
  /-- Did the scratch arrays pass their parity check (R102)? -/
  parityOk : Bool
  deriving DecidableEq, Repr

/-- A packet of a Pack queue (R241): its number, the unit whose data entry it is, and whether its source is a peer. -/
structure Packet where
  id   : Nat
  ring : Nat
  slot : Nat
  gen  : Nat
  unit : Nat
  peer : Bool
  deriving DecidableEq, Repr

/-- The Pack queue in front of a fabric port (R239, R241, R242, R245), 64 words deep: the credits the Lake side has returned,
the packets with words not yet accepted (head first) and the number of the next one, a flush pending with the number of the
first packet behind its boundary, and the words that their producer holds for a credit or behind the flush. The words in the
queue are the port's own requests. -/
structure PackQueue where
  queue    : Nat
  credits  : Nat := 64
  packets  : List Packet := []
  nextId   : Nat := 0
  flush    : Bool := false
  boundary : Nat := 0
  held     : List PortReq := []
  deriving DecidableEq, Repr

/-! ### Stack memory and its controllers (09_stack_memory.md, 12_integrity.md) -/

/-- A line request in a PC's queue (R214), or waiting in its slice (R263). -/
structure DramReq where
  pc      : Nat
  bank    : Nat
  row     : Nat
  col     : Nat
  write   : Bool
  durable : Bool
  group   : Nat
  rt      : Bool
  prio    : Nat
  /-- Of class GUARANTEED (R256); for a posted BAR2 write, which inherits RT (R252). -/
  guar    : Bool
  posted  : Bool
  aged    : Bool
  arrival : Nat
  /-- The port of the request that caused it; 59 for the device's own. -/
  port    : Nat := 59
  deriving DecidableEq, Repr

/-- A bank's controller state (R215, R218, R219): open row, consecutive hits, refresh debt, activates since the last
targeted refresh, and the 8-entry tracker of rows and counts. -/
structure Bank where
  openRow : Option Nat := none
  hits    : Nat := 0
  debt    : Int := 0
  urgent  : Bool := false
  acts    : Nat := 0
  tracker : List (Nat × Nat) := []
  deriving DecidableEq, Repr

/-- Why a channel is in self-refresh (R221). -/
inductive SrCause where
  | idle | forced
  deriving DecidableEq, Repr

structure Dram where
  /-- Bytes of the arrays, by PC · 1,610,612,736 + a; an unlisted byte reads 0 (R340, step 8). -/
  mem      : List Host.Cell := []
  /-- Lines marked poisoned in the array (R276), by line key (PC · 25,165,824 + a div 64), rising. -/
  poison   : List Nat := []
  queue    : List DramReq := []
  /-- Requests that wait in their slice for a queue slot (R263), oldest first. -/
  waiting  : List DramReq := []
  banks    : List (Nat × Bank) := []
  /-- PCs draining writes (R214). -/
  draining : List Nat := []
  /-- When DRC_REF_URGENT was last raised (R218). -/
  urgentAt : Option Nat := none
  /-- Cause of each channel's self-refresh, and the channels whose minimum residency is over (R222). -/
  srCause  : List (Nat × SrCause) := []
  srOver   : List Nat := []
  /-- Requests held at a PC's controller: self-refresh or a maintenance hold (R222, R282). -/
  held     : List DramReq := []
  /-- Lines whose read from the array was corrected and that no request has taken yet (R278). -/
  corrected : List Nat := []
  /-- Lines whose read from the array was uncorrectable, held by no slice, and that no request has taken yet (R278). -/
  uncorr : List Nat := []
  /-- Row remaps made, oldest first; a row's newest one is in force: (PC, bank, row, spare) (R289). -/
  remaps   : List (Nat × Nat × Nat × Nat) := []
  /-- Owner under which each basin was last enabled (R213). -/
  owners   : List (Nat × Nat) := []
  /-- Basins being zero-filled (R213). -/
  filling  : List Nat := []
  /-- Did the stack lose its contents (R20)? -/
  lost     : Bool := true
  /-- Set while the device zeroes the whole stack (R172). -/
  zeroing  : Bool := false
  deriving DecidableEq, Repr

/-- A lane repair waiting for its maintenance slot (R282): DQ lane of a PC, or CA lane of a channel, and the TSV that carried
it when it was found. -/
structure LaneRepair where
  ca   : Bool
  unit : Nat
  lane : Nat
  tsv  : Nat
  deriving DecidableEq, Repr

structure VLink where
  /-- Corrections within LANE_WIN: (PC, symbol, row of its bank, time) (R281). -/
  corr     : List (Nat × Nat × Nat × Nat) := []
  /-- CA parity errors within LANE_WIN: (channel, lane, row, time) (R284). -/
  caErr    : List (Nat × Nat × Nat × Nat) := []
  waiting  : List LaneRepair := []
  running  : List LaneRepair := []
  /-- (PC, lane, time) of in-service shifts (R282, last rule). -/
  shifted  : List (Nat × Nat × Nat) := []
  /-- (PC, time) of the last new table entry of a DEGRADED PC (R279). -/
  degLog   : List (Nat × Nat) := []
  deriving DecidableEq, Repr

/-- What a Dredge pass is for (R286). -/
inductive PassKind where
  | round | register | scrub
  deriving DecidableEq, Repr

/-- A Dredge pass (R286, R287). -/
structure Pass where
  kind     : PassKind
  ring     : Nat        -- SCRUB: its job
  slot     : Nat
  basin    : Nat        -- 0xFF for stack offsets
  offset   : Nat
  length   : Nat
  done     : Nat        -- bytes covered
  piece    : Nat        -- end of the piece in progress, relative to the start
  lines    : Nat
  corrected : Nat
  erasure  : Nat
  uncorr   : Nat
  poison   : Nat
  skipped  : Nat
  firstFail : Option (Nat × Nat)   -- offset and PC
  start    : Nat        -- timer at the start of the pass
  stopped  : Bool
  deriving DecidableEq, Repr

structure Dredge where
  passes    : List Pass := []
  /-- The source whose piece runs; rotation goes on from it (R286). -/
  last      : Option PassKind := none
  current   : Option PassKind := none
  /-- E0 of the schedule (R288). -/
  e0        : Nat := 0
  scheduled : Bool := false
  /-- Epoch for which the running round was scheduled, and the owed one's. -/
  roundFor  : Option Nat := none
  owedFor   : Option Nat := none
  behindRaised : Bool := false
  deriving DecidableEq, Repr

/-- A repair-record entry (R291), as data; `good` is its CRC check. -/
structure RepairEntry where
  typ    : Nat
  active : Bool
  unit   : Nat
  bank   : Nat
  row    : Nat
  spare  : Nat
  seq    : Nat
  deriving DecidableEq, Repr

structure Retire where
  /-- A row retirement that waits for its maintenance slot. -/
  running : Option RepairEntry := none
  /-- Lines of the row being copied that the copy's reads have decoded, and whether as uncorrectable (R289). -/
  reads   : List (Nat × Bool) := []
  /-- COPIED latches of PENDING entries, by SEQ, in the always-on domain (R289). -/
  copied  : List Nat := []
  deriving DecidableEq, Repr

/-! ### Calibration (13_thermal_power.md) -/

/-- A calibrated target or a coefficient (R310): its trim in force, the GOV of its last run in 0.125 °C (16-bit two's
complement), and whether the trim came from OTP (R313). -/
structure CalTarget where
  kind  : Nat
  index : Nat
  trim  : Nat
  temp  : Nat
  dflt  : Bool
  deriving DecidableEq, Repr

structure Cal where
  targets   : List CalTarget := []
  /-- Trims of the record in force: (kind, index, trim) (R314). -/
  record    : List (Nat × Nat × Nat) := []
  /-- The copy the record in force stands in. -/
  copy      : Nat := 0
  running   : List (Nat × Nat) := []
  /-- Triggered and not started; some may be deferred (R311). -/
  waiting   : List (Nat × Nat) := []
  /-- Triggers that arrived during a target's run (R311). -/
  again     : List (Nat × Nat) := []
  lastWrite : Option Nat := none
  /-- Crystal time, which `lastWrite` is measured in (R314). -/
  time      : Nat := 0
  /-- The runs of every target that a cold start without a valid record, or without valid trims, owes (R314, R367). -/
  owed      : Bool := false
  /-- A record write in progress: its copy and its SEQ (R314). -/
  writing   : Option (Nat × Nat) := none
  deriving DecidableEq, Repr

/-! ### Weirs (11_weirs.md) -/

structure Weirs where
  queue    : List PortReq := []
  /-- Port buckets in 1/256 token (R255), by port; unlisted 0 (log entry 9). -/
  bucket   : List (Nat × Int) := []
  /-- Group buckets in 1/256 token (R256). -/
  grpBucket : List (Nat × Nat) := []
  /-- AVG with 8 fractional bits (R259). -/
  avg      : List (Nat × Nat) := []
  /-- Groups with an admission write waiting for the boundary (R266). -/
  pendAdmit : List Nat := []
  deriving DecidableEq, Repr

/-! ### PCI Express (08_pcie.md) -/

/-- What a device-initiated read is for. -/
inductive TagFor where
  /-- A descriptor (R69). -/
  | descriptor (ring slot : Nat)
  /-- A flushing read of a unit's outputs (R84), for the job's generation (R95); the shard it concerns, or 0xFF. -/
  | flush (ring slot gen unit shard : Nat)
  /-- A read of the data of an engine's task: the task's slot, and which of the task's parts outside the device. -/
  | task (engine : Nat) (digest : Bool) (part : Nat)
  /-- A read of a list segment, a shard table or a schedule (R81). -/
  | walk
  deriving DecidableEq, Repr

/-- A device-initiated read that is outstanding or waits for a tag (R197, R198): its tag, function, address and length,
whether it goes to a peer, whether its unit has gone (R201), what it is for, and whether its buffer entry asks for No Snoop
(R78). -/
structure TagUse where
  tag  : Nat
  func : Nat
  addr : Nat
  len  : Nat
  peer : Bool
  held : Bool
  use  : TagFor
  ns   : Bool := false
  deriving DecidableEq, Repr

/-- A completion that a BAR2 read still owes (R223): the read's number and function, and what its slice answered. -/
structure Reply where
  read   : Nat
  func   : Nat
  answer : Option (List Byte × Bool) := none
  deriving DecidableEq, Repr

structure Pcie where
  tags       : List TagUse := []
  /-- Reads of running tasks that have failed: their tasks' results find them so (R200). -/
  lost       : List TagFor := []
  /-- Reads that wait for a free tag, oldest first. -/
  waiting    : List TagUse := []
  quarantine : List Nat := []
  /-- Tags in the order they left quarantine (R198). -/
  freed      : List Nat := []
  /-- The tag width in force: 8, 10 or 14 bits (R197). -/
  tagBits    : Nat := 8
  loopback   : Bool := false
  /-- MSI-X messages and writes held while Bus Master Enable is 0 (R194) or in D3hot (R187). -/
  held       : List Out := []
  /-- Does the configuration space hold the identity (R195)? -/
  identity   : List Byte := []
  /-- The width in use; WIDTH reads the trained one (R185). -/
  width      : Nat := 0
  /-- The DOE mailbox's dwords (R207): those written since the last object, and those of the response still to be read. -/
  doeIn      : List Nat := []
  doeOut     : List Nat := []
  /-- BAR2 reads in progress: the number of the next one, and the completions owed, in address order (R223). -/
  nextRead   : Nat := 0
  replies    : List Reply := []
  deriving DecidableEq, Repr

/-! ### Plan port (03_ripple_decode.md) -/

/-- A plan in progress (R61): the snapshot of the inputs, and the read that waits for it. -/
structure PlanRun where
  profile : Nat
  present : Nat
  wanted  : Nat
  off     : Nat
  len     : Nat
  deriving DecidableEq, Repr

/-- A plan slot of a function (R60): inputs, latched results and a plan in progress. -/
structure PlanSlot where
  profile  : Nat := 0
  present  : Nat := 0
  wanted   : Nat := 0
  result   : Nat := 0
  info     : Nat := 0
  reads    : Nat := 0
  sched    : List Byte := []
  running  : Option PlanRun := none
  /-- Reads of the outputs held while a plan is in progress: offset and length (R61), oldest first. -/
  held     : List (Nat × Nat) := []
  deriving DecidableEq, Repr

end Sys2Proof.Machine
end

