-- ==== Sys2Proof/Machine/State.lean ====
section
/-! DEFINITION. The machine's state, its faults and refusals, and the state after reset (power-on, before the start that
VDD_AUX brings; every register field at its cold value, R10; log entry 19). -/

namespace Sys2Proof.Machine

/-- Reasons to stop with a fault. The spec gives the block no stop: everything it reports is an effect on `State`. -/
inductive Fault where
  /-- No meaning raises it; safe. -/
  | none
  deriving DecidableEq, Repr

/-- Reasons to refuse a command. -/
inductive Refusal where
  /-- The arm of a command without a meaning; safe. -/
  | notModelled (mnemonic : String)
  /-- A command whose operands name no unit, instance or value that exists (an engine above 47, a descriptor that is not
  128 bytes): no such command reaches the device. Raised by the meanings through `whenWf`; safe. -/
  | illFormed (mnemonic : String)
  deriving DecidableEq, Repr

/-- Everything the spec gives the machine. -/
structure State where
  /-- Register fields, as last written (R8). -/
  regs      : RegMap := []
  /-- Values in effect of class-B fields whose boundary has not passed (R7, R8). -/
  inForce   : RegMap := []
  /-- The timer of R247, in units of 10 ns; 0 at the end of PLL lock of each start. -/
  timer     : Nat := 0
  /-- Time in the always-on domain since VDD_AUX came up, 10 ns units (R324: kept across warm starts). -/
  aonTime   : Nat := 0
  /-- Draws of free values so far (the model's own, log entry 1). -/
  freeCtr   : Nat := 0
  /-- What has left the device, in order (the model's own, log entry 2). -/
  out       : List Out := []
  /-- Commands waiting, first in, first out. -/
  pending   : List Instr := []
  collector : Collector := {}
  events    : Events := {}
  counters  : Counters := {}
  lake      : Lake := {}
  /-- Eddy windows by engine · 4 + window, and accesses that stall (R236, R238). -/
  eddies    : List (Nat × Eddy) := []
  stalls    : List Stall := []
  /-- Engine scratch by engine · 524,288 + byte; an unlisted byte reads 0 (log entry 8). -/
  scratch   : List Host.Cell := []
  packs     : List PackQueue := []
  dram      : Dram := {}
  vlink     : VLink := {}
  dredge    : Dredge := {}
  retire    : Retire := {}
  /-- The SPI NOR flash's bytes (R331); an unlisted byte reads 0xFF (log entry 6). -/
  flash     : List Host.Cell := []
  cal       : Cal := {}
  /-- The configuration image in force (R336): the records of each section, by TYPE. -/
  image     : List (Nat × List (List Byte)) := []
  weirs     : Weirs := {}
  pcie      : Pcie := {}
  jobUnit   : JobUnit := {}
  ponds     : Ponds := {}
  /-- Sealing state by function (R149). -/
  seals     : List (Nat × SealFn) := []
  /-- Plan slots by function · 128 + slot (R60). -/
  planSlots : List (Nat × PlanSlot) := []
  trust     : Trust := {}
  fuses     : Fuses := {}
  /-- The BIST run in progress (R371). -/
  bist      : Option BistRun := none
  thermal   : Thermal := {}
  boot      : Boot := {}
  deriving DecidableEq, Repr

/-- The machine right after power-on. -/
def State.reset : State := {}

end Sys2Proof.Machine
end

