-- ==== Sys2Proof/Machine/Ops.lean ====
section
/-! DEFINITION. The named operations over registers, memory cells and output that every block uses. -/

namespace Sys2Proof.Machine

/-! ### Registers -/

/-- The value of a register field as last written (R8). -/
def State.get (s : State) (f : FN) (i : Nat := 0) (j : Nat := 0) : Nat := s.regs.get f i j

/-- Is a one-bit field set? -/
def State.flag (s : State) (f : FN) (i : Nat := 0) (j : Nat := 0) : Bool := s.get f i j == 1

/-- The state with a field set to the low bits of `v`. -/
def State.set (s : State) (f : FN) (v : Nat) (i : Nat := 0) (j : Nat := 0) : State :=
  { s with regs := s.regs.set f i j v }

/-- The value of a class-B field in effect: the old value until its boundary passes (R7, R8). -/
def State.eff (s : State) (f : FN) (i : Nat := 0) (j : Nat := 0) : Nat :=
  (sparseGet s.inForce (f.key i j)).getD (s.get f i j) % 2 ^ f.width

/-- A class-B write: the value reads back at once; the value in effect stays until the boundary (R8). -/
def State.setB (s : State) (f : FN) (v : Nat) (i : Nat := 0) (j : Nat := 0) : State :=
  let old := s.eff f i j
  { s.set f v i j with inForce := if f.inst i j then sparsePut s.inForce (f.key i j) old else s.inForce }

/-- The boundary of a class-B field passes: the value last written takes effect (R7). -/
def State.applyB (s : State) (f : FN) (i : Nat := 0) (j : Nat := 0) : State :=
  { s with inForce := sparseDel s.inForce (f.key i j) }

/-- A field's highest value. -/
def FN.max (f : FN) : Nat := 2 ^ f.width - 1

/-- Add to a saturating counter. -/
def State.satInc (s : State) (f : FN) (i : Nat := 0) (j : Nat := 0) (n : Nat := 1) : State :=
  s.set f (min f.max (s.get f i j + n)) i j

/-- Add to a counter that wraps. -/
def State.wrapInc (s : State) (f : FN) (i : Nat := 0) (j : Nat := 0) (n : Nat := 1) : State :=
  s.set f (s.get f i j + n) i j

/-- Present a value to a field that records a highest value (R6). -/
def State.raiseMax (s : State) (f : FN) (v : Nat) (i : Nat := 0) (j : Nat := 0) : State :=
  s.set f (max (s.get f i j) (min f.max v)) i j

/-- Set a field in every instance 0 … n − 1. -/
def State.setAll (s : State) (f : FN) (n v : Nat) : State := (List.range n).foldl (fun s i => s.set f v i) s

/-- Set or clear bit `b` of a mask held in a low and a high word. -/
def State.setMaskBit (s : State) (lo hi : FN) (b : Nat) (v : Bool) : State :=
  let f := if b < 32 then lo else hi
  let m := s.get f
  let on := bitAt m (b % 32)
  if on == v then s else s.set f (if v then m + 2 ^ (b % 32) else m - 2 ^ (b % 32))

/-- A 64-bit mask or value held in a low and a high word. -/
def State.get64 (s : State) (lo hi : FN) (i : Nat := 0) : Nat := s.get lo i + 2 ^ 32 * s.get hi i

def State.set64 (s : State) (lo hi : FN) (v : Nat) (i : Nat := 0) : State := (s.set lo v i).set hi (v / 2 ^ 32) i

/-! ### The configuration image in force (R336) -/

/-- The records of a section. -/
def State.section (s : State) (type : Nat) : List (List Byte) := (assoc s.image type).getD []

def imgDevice : Nat := 1
def imgFunction : Nat := 2
def imgRing : Nat := 3
def imgBasin : Nat := 4
def imgProfile : Nat := 5
def imgPeer : Nat := 6
def imgWeirPort : Nat := 7
def imgWeirGroup : Nat := 8
def imgEventRing : Nat := 9
def imgEventRoute : Nat := 10

/-- The record of a section whose key byte is `k`. -/
def State.imageRec (s : State) (type k : Nat) : Option (List Byte) :=
  (s.section type).find? (fun r => fieldAt r 0 1 == k)

/-- VF_COUNT. -/
def State.vfCount (s : State) : Nat := fieldAt ((s.section imgDevice).headD []) 0 1

/-- log2 of a function's BAR2 size (R193, R337); 0 for none. -/
def State.bar2Log2 (s : State) (func : Nat) : Nat :=
  if func = 0 then 37 else fieldAt ((s.section imgDevice).headD []) 1 1

/-- The function's default of verify-after-encode (R336, R337). -/
def State.vaeDefault (s : State) (func : Nat) : Nat :=
  match s.imageRec imgFunction func with
  | some r => fieldAt r 1 1 / 2 % 4
  | none => 2

/-- The peer windows of a function: base and length (R79, R336). -/
def State.peerWindows (s : State) (func : Nat) : List (Nat × Nat) :=
  ((s.section imgPeer).filter (fun r => fieldAt r 0 1 == func)).map (fun r => (fieldAt r 8 8, fieldAt r 16 8))

/-! ### Output -/

/-- Bytes of TLP payload that a message carries. -/
def Out.payload : Out → Nat
  | .write _ _ bytes _ _ | .data _ bytes | .poisoned _ bytes => bytes.length
  | .msix _ _ _ _ => 4
  | _ => 0

/-- A message leaves the device. -/
def State.emit (s : State) (o : Out) : State :=
  { s with out := s.out ++ [o], counters := { s.counters with txBytes := s.counters.txBytes + o.payload } }

/-- The function whose TLP a message is; messages of the link's own are PF0's. -/
def Out.func : Out → Nat
  | .write f _ _ _ _ | .read _ f _ _ _ | .flushRead _ f _ _ | .msix f _ _ _ => f
  | .data f _ | .poisoned f _ | .unsupported f | .aborted f | .retry f | .written f | .aer f _ | .ecrc f => f
  | .spdm _ _ | .doe _ | .sideband _ | .margin _ _ | .l0p _ => 0

/-- A TLP leaves the device, with an ECRC where its function generates them (R176). -/
def State.tlp (s : State) (o : Out) : State :=
  if s.flag .cfgAerEcrcGen o.func then (s.emit o).emit (.ecrc o.func) else s.emit o

/-- Payload of `n` bytes arrives over the link. -/
def State.received (s : State) (n : Nat) : State :=
  { s with counters := { s.counters with rxBytes := s.counters.rxBytes + n } }

/-- Is the device in D3hot (R187)? -/
def State.d3hot (s : State) : Bool := s.get .cfgPmState == 3

/-- LTSSM's values for Recovery and L1 (R208), in which the link carries no request (R186, R189). -/
def ltssmL0 : Nat := 3
def ltssmRecovery : Nat := 4
def ltssmL1 : Nat := 5

def State.linkHeld (s : State) : Bool :=
  s.get .pcxLinkStatusLtssm == ltssmRecovery || s.get .pcxLinkStatusLtssm == ltssmL1

/-- Do a function's enables let it issue: Bus Master Enable is 1 and the device is in D0 (R187, R194)? -/
def State.enabled (s : State) (func : Nat) : Bool := s.flag .cfgBme func && !s.d3hot

/-- May a function issue requests now: enabled, and the link in L0? -/
def State.mayIssue (s : State) (func : Nat) : Bool := s.enabled func && !s.linkHeld

/-- The class-B fields of PCX, in effect from the link's next entry to Configuration or Recovery (R208). -/
def pcxBFields : List FN := [.pcxLinkCfgMaxRate, .pcxLinkCfgMaxWidth, .pcxLinkCfgRxPrecodeReq]

def State.pcxBoundary (s : State) : State := pcxBFields.foldl (fun s f => s.applyB f) s

/-- An entry to Recovery that keeps DL_Up (R189): counted; the class-B fields take effect. -/
def State.recovery (s : State) : State :=
  ((s.wrapInc .pcxRecoveriesCount).pcxBoundary).set .pcxLinkStatusLtssm ltssmRecovery

/-- A request queued in L1 starts the exit at once (R186). -/
def State.leaveL1 (s : State) (func : Nat) : State :=
  if s.get .pcxLinkStatusLtssm == ltssmL1 && s.enabled func then s.recovery else s

/-- A request a function issues: held while it may not issue (R187, R189, R194), or while the link leaves L1 for it. -/
def State.issue (s : State) (func : Nat) (o : Out) : State :=
  if s.mayIssue func then s.tlp o else { s with pcie := { s.pcie with held := s.pcie.held ++ [o] } }.leaveL1 func

/-- A completion or a message of the device: held while the link is in Recovery (R189); in L1 it starts the exit (R186). -/
def State.reply (s : State) (o : Out) : State :=
  if !s.linkHeld then s.tlp o
  else
    let s := { s with pcie := { s.pcie with held := s.pcie.held ++ [o] } }
    if s.get .pcxLinkStatusLtssm == ltssmL1 then s.recovery else s

/-- Max_Payload_Size in bytes (R176, R199): the field is log2 of it less 7, at most 512 bytes. -/
def State.mps (s : State) (func : Nat) : Nat := 128 * 2 ^ min 2 (s.get .cfgMps func)

/-- Max_Read_Request_Size in bytes, at most 4,096 (R176, R199). -/
def State.mrrs (s : State) (func : Nat) : Nat := 128 * 2 ^ min 5 (s.get .cfgMrrs func)

/-- A write cut at Max_Payload_Size and at 4 KiB address boundaries (R199). -/
def writePieces (mps : Nat) : Nat → Nat → List Byte → List (Nat × List Byte)
  | 0, _, _ => []
  | _, _, [] => []
  | fuel + 1, addr, bytes =>
    let n := min mps (4096 - addr % 4096)
    (addr, bytes.take n) :: writePieces mps fuel (addr + n) (bytes.drop n)

/-- A read of `n` bytes cut at Max_Read_Request_Size and at 4 KiB address boundaries (R199). -/
def readPieces (mrrs : Nat) : Nat → Nat → Nat → List (Nat × Nat)
  | 0, _, _ => []
  | _, _, 0 => []
  | fuel + 1, addr, n =>
    let k := min n (min mrrs (4096 - addr % 4096))
    (addr, k) :: readPieces mrrs fuel (addr + k) (n - k)

/-- A function's posted write to host memory, without Relaxed Ordering (R199). -/
def State.hostWrite (s : State) (func addr : Nat) (bytes : List Byte) : State :=
  (writePieces (s.mps func) bytes.length addr bytes).foldl (fun s w => s.issue func (.write func w.1 w.2 false false)) s

/-- The message of a vector, as its table entry gives it (R203). -/
def State.msixMsg (s : State) (func vector : Nat) : Out :=
  .msix func vector (s.get .msixAddrLo func vector + 2 ^ 32 * s.get .msixAddrHi func vector) (s.get .msixData func vector)

/-- An MSI-X message of a function's vector (R203, R204): none while MSI-X Enable is 0; pended while masked. -/
def State.sendMsix (s : State) (func vector : Nat) : State :=
  if !s.flag .cfgMsixEn func then s
  else if s.flag .msixMask func vector || s.flag .cfgMsixFuncMask func then
    let w := s.get .msixPba func (vector / 32)
    if bitAt w (vector % 32) then s else s.set .msixPba (w + 2 ^ (vector % 32)) func (vector / 32)
  else s.issue func (s.msixMsg func vector)

/-- The next `n` free bytes (log entry 1). -/
def State.draw (s : State) (n : Nat) : State × List Byte :=
  ({ s with freeCtr := s.freeCtr + 1 }, (List.range n).map (Config.freeValue s.freeCtr))

/-! ### Memory cells: addresses strictly rising, no entry equal to what an unlisted address reads as -/

/-- The byte at `a`; an unlisted address reads `d`. -/
def Mem.read (d : Byte) (m : List Host.Cell) (a : Nat) : Byte :=
  match m with
  | [] => d
  | (a', b) :: rest => if a' = a then b else Mem.read d rest a

/-- The cells with an entry for `a`, in its place. -/
def Mem.put (m : List Host.Cell) (a : Nat) (b : Byte) : List Host.Cell :=
  match m with
  | [] => [(a, b)]
  | (a', b') :: rest =>
    if a' = a then (a, b) :: rest else if a < a' then (a, b) :: (a', b') :: rest else (a', b') :: Mem.put rest a b

/-- The cells with `b` stored at `a`; storing what an unlisted address reads as removes the entry. -/
def Mem.write (d : Byte) (m : List Host.Cell) (a : Nat) (b : Byte) : List Host.Cell :=
  if b = d then m.filter (fun x => x.1 != a) else Mem.put m a b

/-- `n` bytes from `a`. -/
def Mem.readN (d : Byte) (m : List Host.Cell) (a n : Nat) : List Byte :=
  (List.range n).map (fun i => Mem.read d m (a + i))

/-- Bytes stored from `a` on. -/
def Mem.writeN (d : Byte) (m : List Host.Cell) (a : Nat) : List Byte → List Host.Cell
  | [] => m
  | b :: bs => Mem.writeN d (Mem.write d m a b) (a + 1) bs

/-- The canonical form of a cell list. -/
def Mem.wfFrom (d : Byte) (lo : Nat) : List Host.Cell → Bool
  | [] => true
  | (a, b) :: rest => lo ≤ a && b != d && Mem.wfFrom d (a + 1) rest

def Mem.wf (d : Byte) (m : List Host.Cell) : Bool := Mem.wfFrom d 0 m

/-- The canonical form of a sparse map of numbers. -/
def sparseWfFrom (lo : Nat) : List (Nat × Nat) → Bool
  | [] => true
  | (k, _) :: rest => lo ≤ k && sparseWfFrom (k + 1) rest

/-- A meaning's answer: refused where the command's operands are ill-formed. -/
def whenWf (mnemonic : String) (wf : Bool) (s : State) : Host.Outcome State Fault Refusal :=
  if wf then .next s else .refused (.illFormed mnemonic)

end Sys2Proof.Machine
end

