-- ==== Sys2Proof/Machine/Sensors.lean ====
section
/-! DEFINITION. The temperature sensors by layer, and STALE (R294 to R296, R312). -/

namespace Sys2Proof.Machine

/-- Sensors of a layer (R294): S0 to S87, and 88 + d for the refresh sensor of die Dd. -/
def layerSensors (l : Nat) : List Nat :=
  if l = 0 then List.range 16
  else if l = 1 then (List.range 8).map (16 + ·)
  else (List.range 4).map (24 + 4 * (l - 2) + ·) ++ [88 + (l - 2)]

/-- The layer of a sensor. -/
def sensorLayer (k : Nat) : Nat := if k < 16 then 0 else if k < 24 then 1 else if k < 88 then (k - 24) / 4 + 2 else k - 88 + 2

/-- The fields of a sensor: temperature, stale, failed, and the instance. -/
def sensTemp (k : Nat) : FN × Nat := if k < 88 then (.thmSensTemp, k) else (.thmRefsTemp, k - 88)
def sensStale (k : Nat) : FN × Nat := if k < 88 then (.thmSensStale, k) else (.thmRefsStale, k - 88)
def sensFailed (k : Nat) : FN × Nat := if k < 88 then (.thmSensFailed, k) else (.thmRefsFailed, k - 88)

def State.sensor (s : State) (k : Nat) : Int := let (f, i) := sensTemp k; sint16 (s.get f i)
def State.sensorStale (s : State) (k : Nat) : Bool := let (f, i) := sensStale k; s.flag f i
def State.sensorFailed (s : State) (k : Nat) : Bool := let (f, i) := sensFailed k; s.flag f i

/-- The working sensors of a layer. -/
def State.workingSensors (s : State) (l : Nat) : List Nat := (layerSensors l).filter (fun k => !s.sensorFailed k)

/-- STALE of a layer (R312). -/
def State.showStale (s : State) (l : Nat) : State :=
  s.set .thmLayerGStale (b2n ((s.workingSensors l).any s.sensorStale)) l

/-- Does something hold a sensor's reading: its calibration (R312), or a self-test of its layer's sensors that runs (R372)? -/
def State.sensorHeld (s : State) (k : Nat) : Bool :=
  s.cal.running.contains (if k < 88 then (1, k) else (2, k - 88)) ||
    (match s.bist with
      | some x => s.get .bistStatusState == 2 && bitAt x.tests 7 && !bitAt x.finished 7 && bitAt x.inst (sensorLayer k)
      | none => false)

/-- STALE of a sensor and of its layer, from what holds it. -/
def State.showHeld (s : State) (k : Nat) : State :=
  let (f, i) := sensStale k
  (s.set f (b2n (s.sensorHeld k)) i).showStale (sensorLayer k)

/-- STALE of every sensor of the layers that a mask names. -/
def State.showHeldLayers (s : State) (mask : Nat) : State :=
  ((rangeWith 18 (bitAt mask)).flatMap layerSensors).foldl (fun s k => s.showHeld k) s

end Sys2Proof.Machine
end

