-- ==== Sys2Proof/Machine/Faults.lean ====
section
/-! DEFINITION. Status of the device that many rules ask, event rings (R246, R247, R328), counters (R376 to R379), and the
fault collector (R318 to R327) as shared operations. -/

namespace Sys2Proof.Machine

/-! ### Status codes (R11) -/

/-- The status codes of R11. -/
inductive Status where
  | ok | okCorrected | partial_ | cancelled | badDescriptor | badAddress | profileUnknown | notDecodable | tagMismatch
  | digestMismatch | memoryUncorrectable | hostDmaError | peerDmaError | thermalAbort | keyUnavailable
  | epochRegression | internalFault
  deriving DecidableEq, Repr

def Status.code : Status → Nat
  | .ok => 0x00 | .okCorrected => 0x01 | .partial_ => 0x10 | .cancelled => 0x11 | .badDescriptor => 0x20
  | .badAddress => 0x21 | .profileUnknown => 0x22 | .notDecodable => 0x23 | .tagMismatch => 0x24
  | .digestMismatch => 0x25 | .memoryUncorrectable => 0x30 | .hostDmaError => 0x31 | .peerDmaError => 0x32
  | .thermalAbort => 0x40 | .keyUnavailable => 0x41 | .epochRegression => 0x42 | .internalFault => 0x50

/-! ### The start state (BOOT_STATUS.STATE, R352) -/

def bootStarting : Nat := 0
def bootReady : Nat := 1
def bootFailed : Nat := 2
def bootRecovery : Nat := 3

/-- Is the data link up? Without it no request of the host arrives. -/
def State.dlUp (s : State) : Bool := s.flag .pcxLinkStatusDlUp

/-- Is the device READY (R341)? -/
def State.ready (s : State) : Bool := s.get .bootStatusState == bootReady

/-- Is the collector in CONTAIN_F or LATCHED_F (R324)? -/
def State.fatal (s : State) : Bool := 3 ≤ s.get .fltStateState

/-- Is the device in the hold that follows a wipe (R173)? -/
def State.inHold (s : State) : Bool := s.flag .lcsStateHold

/-- TSTATE of R300: 0 NORMAL, 1 REQUESTED, 2 ENFORCED, 3 SHUTDOWN. -/
def State.tstate (s : State) : Nat := s.get .thmStatusTstate

def State.shutdown (s : State) : Bool := s.tstate == 3

/-! ### Event rings -/

/-- Entries of ring `r`, oldest first. -/
def State.ringEntries (s : State) (r : Nat) : List EventEntry := s.events.entries.filter (·.ring == r)

/-- Append to a ring; a full ring loses its oldest entry and counts it (R246). Answers whether an entry was lost. -/
def State.pushEntry (s : State) (e : EventEntry) : State × Bool :=
  let entries := s.events.entries
  if (s.ringEntries e.ring).length < 256 then
    ({ s with events := { s.events with entries := entries ++ [e] } }, false)
  else
    let cut := entries.eraseP (·.ring == e.ring)
    (({ s with events := { s.events with entries := cut ++ [e] } }).satInc .evtLostCount e.ring, true)

/-- A ring's message, and its time. -/
def State.sendRing (s : State) (ring : Nat) : State :=
  { s with events := { s.events with sent := assocPut s.events.sent ring s.timer } }.sendMsix 0 (s.get .evtRingCfgVector ring)

/-- A ring's vector, unless its last message was sent within the last 1 µs: an entry appended by then shares it (R328; the 1 µs
run from the message, DESIGN CHOICE, log entry 67). -/
def State.ringMessageDue (s : State) (ring : Nat) : State :=
  match assoc s.events.sent ring with
  | some t => if s.timer < t + 100 ∧ t ≤ s.timer then s else s.sendRing ring
  | none => s.sendRing ring

/-- Append an event to the ring its route names, and send that ring's vector (R246, R328). The ring, and whether it lost an
entry. -/
def State.appendRouted (s : State) (event func arg time : Nat) : State × Nat × Bool :=
  let ring := s.get .evtRouteRing event
  if !s.flag .evtRouteEn event || !s.flag .evtRingCfgEn ring then (s, ring, false)
  else
    let (s1, lost) := s.pushEntry { ring, func, event, arg, time }
    (s1.ringMessageDue ring, ring, lost)

/-- Is a source ignored since an invalid pair (R319)? -/
def State.railIgnored (s : State) (source : Nat) : Bool := bitAt (s.get .fltRailbadMask (source / 32)) (source % 32)

/-- A ring has lost an entry: the first time since it was last empty, EVT_LOST (event 305) with the ring as ARG (R320). The
ring, where EVT_LOST's own entry overwrote one of another ring. -/
def State.noteLost (s : State) (ring : Nat) : State × Option Nat :=
  if s.events.lostMark.contains ring || s.railIgnored 305 then (s, none)
  else
    let s1 := { s with events := { s.events with lostMark := ring :: s.events.lostMark } }
    match s1.appendRouted 305 0xFF ring s1.timer with
    | (s2, _, false) => (s2, none)
    | (s2, next, true) => (s2, some next)

/-- An entry in its ring. EVT_LOST's entries all go to one ring, so that a second one is the last that a loss can cause. -/
def State.appendEvent (s : State) (event func arg time : Nat) : State :=
  match s.appendRouted event func arg time with
  | (s1, _, false) => s1
  | (s1, ring, true) =>
    match s1.noteLost ring with
    | (s2, none) => s2
    | (s2, some next) => (s2.noteLost next).1

/-- Raise a device event (R320): held before READY (R249), otherwise appended. A source whose pair is ignored raises none
(R319). -/
def State.raise (s : State) (event : Nat) (func : Nat := 0xFF) (arg : Nat := 0) : State :=
  if s.railIgnored event then s
  else if !s.ready then
    { s with events := { s.events with held := s.events.held ++ [{ ring := 0, func, event, arg, time := s.timer }] } }
  else s.appendEvent event func arg s.timer

/-- At READY the held events appear, in order, under the image's routing (R249). -/
def State.releaseHeldEvents (s : State) : State :=
  s.events.held.foldl (fun s e => s.appendEvent e.event e.func e.arg e.time) { s with events := { s.events with held := [] } }

/-- Every start empties the event rings (R249). -/
def State.clearEvents (s : State) : State := { s with events := {} }

/-! ### Event numbers (R320) -/

def evEngErr (n : Nat) : Nat := n
def evPondErr (p : Nat) : Nat := 48 + p
def evSliceErr (n : Nat) : Nat := 54 + n
def evPcErr (p : Nat) : Nat := 118 + p
def evChErr (c : Nat) : Nat := 182 + c
def evJobDbError : Nat := 234
def evJobCfgReject : Nat := 235
def evJobFlr : Nat := 236
def evJobPathErr : Nat := 237
def evRipProfileReject : Nat := 238
def evEngFence : Nat := 240
def evEngRejoin : Nat := 241
def evEngOffline : Nat := 242
def evEngVaeMismatch : Nat := 243
def evEngTaskFail : Nat := 244
def evSealEpochRegression : Nat := 245
def evSealLogFull : Nat := 246
def evSealCfgReject : Nat := 247
def evSealKeyActive : Nat := 248
def evSealChainStart : Nat := 249
def evSealLogErr : Nat := 250
def evLcsTamper : Nat := 252
def evLcsMboxReset : Nat := 253
def evLcsLcChange : Nat := 254
def evLcsIdeFail : Nat := 255
def evTarnKqReset : Nat := 258
def evPcxLinkDown : Nat := 259
def evPcxLinkDegraded : Nat := 260
def evPcxCplTimeout : Nat := 261
def evPcxDState : Nat := 262
def evPcxPhyErr : Nat := 263
def evLakeFlushDone : Nat := 264
def evWeirAdmitDemote : Nat := 265
def evWeirGuarScaled : Nat := 266
def evWeirGuarRestored : Nat := 267
def evDrcCfgReject : Nat := 269
def evDrcRefUrgent : Nat := 270
def evDrcTrainFail : Nat := 271
def evDrcBar2Hole : Nat := 272
def evVlkLaneSuspect : Nat := 273
def evVlkLaneShift : Nat := 274
def evVlkPcDegraded : Nat := 275
def evVlkPcExhausted : Nat := 276
def evVlkCaFail : Nat := 277
def evIntegUe : Nat := 278
def evIntegDredgeDone : Nat := 279
def evIntegDredgeBehind : Nat := 280
def evIntegRetDone : Nat := 281
def evIntegCeFull : Nat := 282
def evThmSensorFail : Nat := 283
def evThmWarning : Nat := 284
def evThmThrottleReq : Nat := 285
def evThmClampOn : Nat := 286
def evThmThrottleClear : Nat := 287
def evThmShutdown : Nat := 288
def evThmResume : Nat := 289
def evThmStackSuspect : Nat := 290
def evThmSensorSuspect : Nat := 291
def evPwrCapped : Nat := 292
def evPwrUncapped : Nat := 293
def evPwrStackRail : Nat := 294
def evPwrCoreLoss : Nat := 295
def evCalRecWriteFail : Nat := 296
def evCalRecBad : Nat := 297
def evClkXtalFail : Nat := 298
def evClkPllUnlock : Nat := 299
def evFltRecovered : Nat := 300
def evFltLatched : Nat := 301
def evFltOverflow : Nat := 302
def evFltRail : Nat := 303
def evFltQueueReset : Nat := 304
def evBootSlotFallback : Nat := 306
def evBootRecovery : Nat := 307
def evBootImageReload : Nat := 308
def evBootFlashErr : Nat := 309
def evOtpRegionInvalid : Nat := 310
def evOtpMarginal : Nat := 311
def evOtpProgFail : Nat := 312
def evBistDone : Nat := 313
def evBistFail : Nat := 314
def evPmcOverflow : Nat := 315
def evSbErr : Nat := 316
def evDevReady : Nat := 317
def evDevNarrowWr : Nat := 318
def evDevCoreErr : Nat := 319

/-- The class R320 gives a source for an ARG: none where the source only raises an event, or where ARG is not listed for a
source whose class depends on it. -/
def sourceClass (source arg : Nat) : Option FaultClass :=
  if source < 48 then some .c
  else if source < 54 then some .u
  else if source < 118 then
    (if arg = 1 ∨ arg = 2 then some .c else if 3 ≤ arg ∧ arg ≤ 5 then some .u else none)
  else if source < 214 then some .u
  else if source < 230 then some .c
  else if source < 234 then some .u
  else if source = 237 ∨ source = 239 ∨ source = 244 ∨ source = 251 ∨ source = 253 ∨ source = 255 ∨ source = 257
      ∨ source = 258 ∨ source = 263 ∨ source = 268 ∨ source = 277 ∨ source = 278 ∨ source = 288 ∨ source = 290
      ∨ source = 294 ∨ source = 303 ∨ source = 304 then some .u
  else if source = 242 ∨ source = 256 ∨ source = 271 ∨ (274 ≤ source ∧ source ≤ 276) ∨ source = 283 ∨ source = 296
      ∨ source = 309 ∨ source = 312 ∨ source = 316 then some .c
  else if source = 252 ∨ source = 295 ∨ source = 298 ∨ source = 299 ∨ source = 319 then some .f
  else none

/-- Does the class of a source depend on ARG (R329)? -/
def classByArg (source : Nat) : Bool := 54 ≤ source && source < 118

/-! ### Counters (R376 to R379) -/

/-- The event number of block, kind and instance (R376). -/
def pmcEvent (block kind inst : Nat) : Nat := block * 1024 + kind * 128 + inst

/-- Is (block, kind) function-scoped (R377, column F)? -/
def pmcScoped (block kind : Nat) : Bool :=
  (block == 0x06 && kind ≤ 4) || (block == 0x0A && kind ≤ 1) || (block == 0x0B && kind ≤ 1)
    || (block == 0x0D && 2 ≤ kind && kind ≤ 6)

/-- A 48-bit count. -/
def State.count48 (s : State) (n : Nat) : Nat := s.get .pmcCntLoCount n + 2 ^ 32 * s.get .pmcCntHiCount n

def State.setCount48 (s : State) (n v : Nat) : State :=
  (s.set .pmcCntLoCount v n).set .pmcCntHiCount (v / 2 ^ 32) n

def State.vfCount48 (s : State) (v j : Nat) : Nat := s.get .pmcVfCntLoCount v j + 2 ^ 32 * s.get .pmcVfCntHiCount v j

def State.setVfCount48 (s : State) (v j c : Nat) : State :=
  (s.set .pmcVfCntLoCount c v j).set .pmcVfCntHiCount (c / 2 ^ 32) v j

/-- Add to PF0's counter `n`; passing 2^48 − 1 wraps, sets its bit and raises PMC_OVERFLOW (R378). -/
def State.addCount (s : State) (n add : Nat) : State :=
  let v := s.count48 n + add
  let s1 := s.setCount48 n v
  if v < 2 ^ 48 then s1
  else (s1.setMaskBit .pmcOvfLoMask .pmcOvfHiMask n true).raise evPmcOverflow 0 n

def State.addVfCount (s : State) (v j add : Nat) : State :=
  let c := s.vfCount48 v j + add
  let s1 := s.setVfCount48 v j c
  if c < 2 ^ 48 then s1
  else
    let ovf := s1.get .pmcVfStatusOvf v
    (if bitAt ovf j then s1 else s1.set .pmcVfStatusOvf (ovf + 2 ^ j) v).raise evPmcOverflow v j

/-- Does a selected event count an occurrence of (block, kind, inst)? INST 127 counts every instance (R376). -/
def pmcMatches (sel block kind inst : Nat) : Bool :=
  sel / 128 == block * 8 + kind && (sel % 128 == inst || sel % 128 == 127)

/-- An occurrence of an event, in every counter that selects it (R376 to R378, R381). -/
def State.count (s : State) (block kind inst : Nat) (add : Nat := 1) : State :=
  let pf := if s.flag .pmcCtrlFreeze then [] else
    rangeWith 64 (fun n => s.flag .pmcSelEn n && pmcMatches (s.get .pmcSelEvent n) block kind inst)
  let vf := if pmcScoped block kind && 1 ≤ inst && inst < 64 then
    rangeWith 8 (fun j => s.flag .pmcVfSelEn inst j && pmcMatches (s.get .pmcVfSelEvent inst j) block kind inst) else []
  let s := pf.foldl (fun s n => s.addCount n add) s
  vf.foldl (fun s j => s.addVfCount inst j add) s

/-- Activity of a layer for the thermal model (R305). -/
def State.activity (s : State) (layer c : Nat) (n : Nat := 1) : State :=
  let k := 8 * layer + c
  { s with counters := { s.counters with activity := assocPut s.counters.activity k ((assoc s.counters.activity k).getD 0 + n) } }

/-! ### Errors of the link (R205, R206) -/

/-- Uncorrectable error bits of AER that the rules report (base specification's numbers, PRESUMED: log entry 5). -/
def aerPoisoned : Nat := 12
def aerTimeout : Nat := 14
def aerAbort : Nat := 15
def aerUnexpected : Nat := 16
def aerUnsupported : Nat := 20
def aerInternal : Nat := 22
def aerIdeCheck : Nat := 27
def aerEcrc : Nat := 19
def aerMisroutedIde : Nat := 28
def aerPcrc : Nat := 29
/-- The bit of a link error below the transaction layer. -/
def aerLink : LinkError → Nat
  | .receiver => 0 | .badTlp => 6 | .badDllp => 7 | .replayRollover => 8 | .replayTimeout => 12
  | .dlProtocol => 4 | .fcProtocol => 13 | .overflow => 17 | .malformed => 18
/-- Correctable error bits. -/
def aerAdvisory : Nat := 13
def aerCorInternal : Nat := 14
def aerHdrOverflow : Nat := 15

def State.orBit (s : State) (f : FN) (b i : Nat) : State :=
  let v := s.get f i
  if bitAt v b then s else s.set f (v + 2 ^ b) i

/-- A correctable error of a function. -/
def State.aerCorrectable (s : State) (func bit : Nat) : State :=
  let s1 := s.orBit .cfgAerCorStatus bit func
  if bitAt (s1.get .cfgAerCorMask func) bit || !s1.flag .pcxLinkStatusDlUp then s1 else s1.reply (.aer func .cor)

/-- The first error of a function is logged with its header (R191): a TLP's header is a free value, any other error's reads
0 (R206). A TLP's error while one is logged is a Header Log Overflow (R205; log entry 5). -/
def State.aerFirst (s : State) (func bit : Nat) (tlp : Bool) : State :=
  if bitAt (s.get .cfgAerUncStatus func) (s.get .cfgAerFep func) then
    (if tlp then s.aerCorrectable func aerHdrOverflow else s)
  else
    let (s, h) := if tlp then s.draw 16 else (s, zeros 16)
    (List.range 4).foldl (fun s w => s.set .cfgAerHdr (fieldAt h (4 * w) 4) func w) (s.set .cfgAerFep bit func)

/-- An uncorrectable error of a function: its status bit, and its message unless masked. `fatal` overrides severity; `tlp`:
it is an error of a TLP received. -/
def State.aerUncorrectable (s : State) (func bit : Nat) (fatal : Bool := false) (tlp : Bool := false) : State :=
  let s1 := (s.aerFirst func bit tlp).orBit .cfgAerUncStatus bit func
  if bitAt (s1.get .cfgAerUncMask func) bit then s1
  else if !s1.flag .pcxLinkStatusDlUp then s1
  else s1.reply (.aer func (if fatal || bitAt (s1.get .cfgAerUncSev func) bit then .fatal else .nonfatal))

/-- A non-fatal error of a TLP in its advisory form (R205): reported as an Advisory Non-Fatal Error unless its severity is
fatal. -/
def State.aerAdvisoryNonFatal (s : State) (func bit : Nat) : State :=
  if bitAt (s.get .cfgAerUncSev func) bit then s.aerUncorrectable func bit false true
  else ((s.aerFirst func bit true).orBit .cfgAerUncStatus bit func).aerCorrectable func aerAdvisory

/-- An error of the link (R205), logged in PF0. -/
def State.linkError (s : State) (e : LinkError) : State :=
  match e with
  | .receiver | .badTlp | .badDllp | .replayTimeout | .replayRollover => s.aerCorrectable 0 (aerLink e)
  | .dlProtocol | .fcProtocol => s.aerUncorrectable 0 (aerLink e)
  | .overflow | .malformed => s.aerUncorrectable 0 (aerLink e) false true

/-- Which function's AER logs an error of a request to `func`'s BAR (R205). -/
def State.respondUr (s : State) (func : Nat) (nonPosted : Bool) : State :=
  let s1 := if nonPosted then s.reply (.unsupported func) else s
  if !s.dlUp then s else if nonPosted then s1.aerAdvisoryNonFatal func aerUnsupported else s1.aerUncorrectable func aerUnsupported false true

def State.respondCa (s : State) (func : Nat) (nonPosted : Bool) : State :=
  let s1 := if nonPosted then s.reply (.aborted func) else s
  if !s.dlUp then s else s1.aerAdvisoryNonFatal func aerAbort

/-! ### The fault collector -/

/-- Causes of R322. -/
def causeSource : Nat := 0x00
def causeTamper : Nat := 0x01
def causeThermal : Nat := 0x02
def causeStackSuspect : Nat := 0x03
def causeClockLoss : Nat := 0x04
def causePllUnlock : Nat := 0x05
def causePowerLoss : Nat := 0x06
def causeMemoryUe : Nat := 0x07
def causeArrayUe : Nat := 0x08
def causeParity : Nat := 0x09
def causeQueueReset : Nat := 0x0A
def causeRailFault : Nat := 0x0B
def causeContainmentFailed : Nat := 0x0C
def causeRecoveryLimit : Nat := 0x0D
def causeTaskAbandoned : Nat := 0x0E
def causeIdeCheck : Nat := 0x0F
def causeSensorLoss : Nat := 0x10

def faultClassCode : FaultClass → Nat
  | .c => 1 | .u => 2 | .f => 3

/-- The LOC word of a memory fault (R322): PC, bank group and bank after the swizzle, row, column, valid. -/
def locWord (pc bg bank row col : Nat) : Nat :=
  pc + bg * 2 ^ 6 + bank * 2 ^ 8 + row * 2 ^ 11 + col * 2 ^ 27 + 2 ^ 31

/-- What a report asks the collector to record. -/
structure FaultIn where
  cls    : FaultClass
  source : Nat
  cause  : Nat := causeSource
  func   : Nat := 0xFF
  arg    : Nat := 0
  loc    : Nat := 0
  detail : Nat := 0
  rail   : Bool := false
  deriving DecidableEq, Repr

/-- The seven words of a record (R322), TIME last. -/
def recordWords (seq : Nat) (r : FaultIn) (time : Nat) : List (FN × Nat) :=
  [ (.fltRecW0, seq + 2 ^ 16 * (faultClassCode r.cls + 2 ^ 5 * b2n r.rail) + 2 ^ 24 * r.cause),
    (.fltRecSrcW1, r.source + 2 ^ 16 * r.func),
    (.fltRecArgW2, r.arg), (.fltRecLocW3, r.loc), (.fltRecDetW4, r.detail),
    (.fltRecTimeLoTime, time), (.fltRecTimeHiTime, time / 2 ^ 32) ]

/-- FAULT_N and the collector's STATE together (R327). -/
def State.setCollector (s : State) (st : Nat) : State :=
  (s.set .fltStateState st).set .fltStateFaultPin
    (b2n (st ≠ 0 || s.boot.faultHeld || s.get .bootStatusState == bootRecovery))

/-- The SEQ after `n` (R322: wraps from 65,535 to 1). -/
def seqAfter (n : Nat) : Nat := if n = 65535 then 1 else n + 1

/-- A record (R321 to R323): stored in the slot after the newest one held, or dropped with its SEQ consumed. Answers the
SEQ and the slot. -/
def State.record (s : State) (r : FaultIn) (time : Nat) : State × Contain :=
  let seq := s.collector.nextSeq
  let s := { s with collector := { s.collector with nextSeq := seqAfter seq } }
  let cnt : FN := match r.cls with
    | .c => .fltCntCCount
    | .u => .fltCntUCount
    | .f => .fltCntFCount
  let s := s.satInc cnt
  let count := s.get .fltQueueCount
  if count < 64 then
    let slot := (s.get .fltQueueHead + count) % 64
    let s := (recordWords seq r time).foldl (fun s w => s.set w.1 w.2 slot) s
    (s.set .fltQueueCount (count + 1), { seq, slot := some slot, source := r.source })
  else
    let s := s.satInc .fltOvfCount
    let s := if s.collector.ovfRaised then s
      else ({ s with collector := { s.collector with ovfRaised := true } }).raise evFltOverflow
    (s, { seq, slot := none, source := r.source })

/-- Set a bit of CLASS in a stored record that still stands in its slot. -/
def State.markRecord (s : State) (c : Contain) (bit : Nat) : State :=
  match c.slot with
  | none => s
  | some slot =>
    let w := s.get .fltRecW0 slot
    if w % 65536 = c.seq ∧ !bitAt w (16 + bit) then s.set .fltRecW0 (w + 2 ^ (16 + bit)) slot else s

/-- CLASS bits of R322. -/
def clsEscalated : Nat := 2
def clsPreempted : Nat := 3
def clsContained : Nat := 4

/-- PENDING: containments waiting. -/
def State.showPending (s : State) : State := s.set .fltStatePending s.collector.waiting.length

/-- The event of a report, after its record (R323). -/
def State.announce (s : State) (r : FaultIn) : State := s.raise r.source r.func r.arg

/-- A class F report (R324): recorded; a running containment stops with PREEMPTED, waiting ones are discarded; the
collector enters CONTAIN_F, opened by this source, unless it is there or latched. -/
def State.reportF (s : State) (r : FaultIn) : State :=
  let (s, _) := s.record r s.timer
  let s := (s.set .fltLastFCause r.cause).set .fltLastFSource r.source
  let s := if s.get .fltStateState < 3 then
      let s := match s.collector.running with
        | some c => s.markRecord c clsPreempted
        | none => s
      let s := { s with collector := { s.collector with running := none, waiting := [], quiet := false,
                                                             opened := some r.source } }
      (s.setCollector 3).showPending
    else s
  (s.aerUncorrectable 0 aerInternal true).announce r

/-- A containment fails, or one more than 32 would wait (R324): ESCALATED in the record, and an F record of its source. -/
def State.escalate (s : State) (c : Contain) : State :=
  (s.markRecord c clsEscalated).reportF
    { cls := .f, source := c.source, cause := causeContainmentFailed, detail := c.seq }

/-- A class U report (R324): a source already being contained gets a record and no second containment. -/
def State.reportU (s : State) (r : FaultIn) : State :=
  let (s, c) := s.record r s.timer
  let s := (s.aerUncorrectable 0 aerInternal).announce r
  let col := s.collector
  match s.get .fltStateState with
  | 0 => ({ s with collector := { col with running := some c, quiet := false } }).setCollector 1
  | 2 => ({ s with collector := { col with running := some c, quiet := false } }).setCollector 1
  | 1 =>
    if col.running.any (·.source == r.source) then s
    else if 32 ≤ col.waiting.length then s.escalate c
    else ({ s with collector := { col with waiting := col.waiting ++ [c] } }).showPending
  | _ => s

/-- A class C report: a record and an event, the state unchanged (R318, R324). -/
def State.reportC (s : State) (r : FaultIn) : State :=
  let (s, _) := s.record r s.timer
  (s.aerCorrectable 0 aerCorInternal).announce r

/-- A report reaches the collector (R319, R324); a source whose pair is ignored reports nothing. -/
def State.report (s : State) (r : FaultIn) : State :=
  if s.railIgnored r.source then s
  else match r.cls with
    | .c => s.reportC r
    | .u => s.reportU r
    | .f => s.reportF r

/-- An invalid pair (R319): a source of class F counts as asserted with RAIL; any other is ignored from now on, and
FLT_RAIL reports it. -/
def State.reportInvalid (s : State) (source : Nat) (r : FaultIn) : State :=
  if s.railIgnored source then s
  else if r.cls == .f then s.reportF { r with rail := true }
  else
    let s := s.orBit .fltRailbadMask (source % 32) (source / 32)
    s.report { cls := .u, source := evFltRail, cause := causeRailFault, detail := source }

/-- A containment ends (R324): CONTAINED in its record; the next one starts, or the quiet timer does. -/
def State.containmentEnd (s : State) (ok : Bool) : State :=
  match s.get .fltStateState, s.collector.running with
  | 1, some c =>
    if !ok then ({ s with collector := { s.collector with running := none } }).escalate c
    else
      let s := s.markRecord c clsContained
      match s.collector.waiting with
      | n :: rest => ({ s with collector := { s.collector with running := some n, waiting := rest } }).showPending
      | [] => ({ s with collector := { s.collector with running := none, quiet := true } }).setCollector 2
  | _, _ => s

/-- The quiet timer expires (R324): recovery to NORMAL, or the recovery limit. -/
def State.quietExpire (s : State) : State :=
  if s.get .fltStateState ≠ 2 ∨ !s.collector.quiet then s
  else
    let recent := (s.collector.recoveries.filter (fun t => s.aonTime < t + 100000000)).length
    if recent < 7 then
      let col := { s.collector with quiet := false, recoveries := (s.aonTime :: s.collector.recoveries).take 7 }
      ((({ s with collector := col }).satInc .fltRecoveriesCount).setCollector 0).raise evFltRecovered
    else
      ({ s with collector := { s.collector with quiet := false } }).reportF
        { cls := .f, source := evFltLatched, cause := causeRecoveryLimit, detail := 8 }

end Sys2Proof.Machine
end

