-- ==== Sys2Proof/WellFormed.lean ====
section
/-! DEFINITION. Which commands name units, instances and values that exist. A command that does not is refused by its
meaning (`Refusal.illFormed`): no such command reaches the device (the counts are those of R13, R18, R66, R101, R209, R236,
R246, R253, R319, R356; operands are the model's reading of each row, log entry 4). -/

namespace Sys2Proof

/-- A function: PF0 or VF 1 to 63. -/
def isFunc (f : Nat) : Bool := f < 64

/-- IN_LEN of a mailbox command has 16 bits (R165). -/
def isMboxInput (input : List Byte) : Bool := input.length < 65536

/-- A descriptor is 128 bytes (R75). -/
def isDesc (q : Nat) (desc : List Byte) : Bool := q < 256 && desc.length == 128

/-- A descriptor of the row's TYPE (R74, R75). -/
def isDescOf (q type : Nat) (desc : List Byte) : Bool := isDesc q desc && (desc.headD 0).toNat == type

/-- What a start finds names every layer's temperature (R294: 18 layers). -/
def StartEnv.wf (e : StartEnv) : Bool := e.govs.length == 18

/-- The well-formed commands. -/
def Instr.wf : Instr → Bool
  | .registerWrite _ func _ _ _ => isFunc func
  | .rcRead func _ _ => isFunc func
  | .forwardedClockFail c => c < 32
  | .lakeQuadWakeDone q => q < 4
  | .pondDomainOff p => p < 6
  | .doorbellSqTail func _ _ | .doorbellCqHead func _ _ => isFunc func
  | .descriptorFetch q => q < 256
  | .descriptorFetchFail q _ => q < 256
  | .descriptorTypeUndefined q d => isDesc q d && ((d.headD 0).toNat == 0 || 11 < (d.headD 0).toNat)
  | .copy q d _ => isDescOf q 1 d
  | .hash q d _ => isDescOf q 2 d
  | .encode q d _ => isDescOf q 3 d
  | .decode q d _ => isDescOf q 4 d
  | .repair q d _ => isDescOf q 5 d
  | .verify q d _ => isDescOf q 6 d
  | .plan q d _ => isDescOf q 7 d
  | .seal q d _ => isDescOf q 8 d
  | .query q d _ => isDescOf q 9 d
  | .fence q d _ => isDescOf q 10 d
  | .scrub q d _ => isDescOf q 11 d
  | .sealStart q slot | .fencePass q slot => q < 256 && slot < 65536
  | .taskPush p => p < 6
  | .taskPop e _ => e < 48
  | .stealVisit p _ => p < 6
  | .taskResult e _ task _ _ => e < 48 && task.q < 256 && task.slot < 65536
  | .unitDurable q slot _ _ => q < 256 && slot < 65536
  | .receiptEntryAdd q slot _ => q < 256 && slot < 65536
  | .jobComplete q slot => q < 256 && slot < 65536
  | .coalTimerExpire q => q < 256
  | .cancel func q _ => isFunc func && q < 256
  | .ringEn func q _ | .reset func q | .dropInt func q => isFunc func && q < 256
  | .flr func => isFunc func
  | .taskDeadline e _ | .engineInternalError e _ => e < 48
  | .fenceRequeue e | .engineSelftestStart e => e < 48
  | .engineSelftestDone e _ | .offlineReq e _ => e < 48
  | .selftest e => e < 48
  | .sealEpochLoWrite func _ | .epochCommit func _ => isFunc func
  | .sealEpochLoRead func => isFunc func
  | .logHeadWrite log _ | .logEnEffect log => isFunc log.func
  | .signatureDone what _ => match what with
    | .batch f => isFunc f
    | .spdm => true
  | .keyUnloadComplete func slot => isFunc func && slot < 8
  | .getNonce i | .getWrapKey i | .keyLoad i | .keyUnload i | .bistRun i => isMboxInput i
  | .lcAdvance i _ | .ownerChange i _ | .arbAdvance i _ | .udsGenerate i _ | .otpProgram i _ | .otpLock i _ => isMboxInput i
  | .mboxUnknownCmd cmd i => cmd < 256 && isMboxInput i
  | .tarnCollision addr _ _ => addr < 524288
  | .marginCommand lane _ => lane < 16
  | .busMasterEnable func _ | .memorySpaceEnable func _ => isFunc func
  | .tagQuarantineEnd tag | .cplTimeout tag => tag < 16384
  | .completionReceived tag _ _ => tag < 16384
  | .msixUnmask func vector => isFunc func && vector < (if func = 0 then 128 else 8)
  | .atomicop func bar => isFunc func && bar < 6
  | .basinEnWrite b _ => b < 64
  | .basinEnableEffect b | .basinFillDone b => b < 64
  | .controllerArbitrate p bank | .refreshDue p bank => p < 64 && bank < 32
  | .trefwEnd p => p < 64
  | .srIdleExpire c | .srEntryDone c | .srResidencyEnd c | .srExitDone c => c < 32
  | .bar2Read func _ _ _ => isFunc func
  | .bar2Write func _ _ _ _ => isFunc func
  | .lakeRequest port group p a access =>
    port < 59 && (group < 65 || (group == 65 && port == 58 && access == .read)) && p < 64 && a < 1610612736 && match access with
      | .read => true
      | .write bytes _ => 0 < bytes.length && a % 64 + bytes.length ≤ 64
  | .durableWriteAck p a => p < 64 && a < 1610612736
  | .lineDecode func p a e1 e2 => (isFunc func || func == 255) && p < 64 && a < 1610612736 && e1.length == 72 && e2.length == 72
  | .laneShift p | .laneShiftDone p => p < 64
  | .caParityError c lane row => c < 32 && lane < 24 && row < 49152
  | .eddyEnable e w _ _ _ | .clear e w => e < 48 && w < 4
  | .eddyAccess e w _ _ _ _ => e < 48 && w < 4
  | .consume e w _ | .commit e w _ => e < 48 && w < 4
  | .evtPop0Read r => r < 8
  | .weirRelease p => p < 59
  | .latencySample g _ => g < 65
  | .agePromote p _ => p < 64
  | .dredgeLine e1 e2 => e1.length == 72 && e2.length == 72
  | .sensorSample layer readings => layer < 18 && readings.all (fun r => r.sensor < 104)
  | .modelUpdate _ counts => counts.length == 17
  | .offReq d _ => d < 64
  | .domainWakeDone d => d < 64
  | .calRunStart kind index => 1 ≤ kind && kind ≤ 7 && index < 256
  | .calRunEnd kind index trim => 1 ≤ kind && kind ≤ 7 && index < 256 && trim < 65536
  | .faultReport reports => reports.all (fun r => r.source < 320)
  | .flashRead addr len => addr < 16777216 && len < 65536
  | .pmcClear func n _ | .pmcCntLoRead func n _ => isFunc func && n < (if func = 0 then 64 else 8)
  | .clearAll adds => adds.all (fun a => a.1 < 64)
  | .planResultRead func slot off _ _ => isFunc func && slot < (if func = 0 then 128 else 8) && off < 4096
  | .planLatch func slot _ | .planLaneTimeout func slot _ => isFunc func && slot < (if func = 0 then 128 else 8)
  | .planSlotWrite func slot off _ _ => isFunc func && slot < (if func = 0 then 128 else 8) && off < 4096
  | .dynamicAddressAssign addr => addr < 128
  | .coldStart env | .warmStart env | .linkDown env => env.wf
  | .boundaryApply _ | .flush | .lakeFlushDone | .stackRailLow | .vddAuxLoss | .clkXtalFail | .clkPllUnlock _ | .pciePhyPllUnlock
  | .mboxDone | .lcsTamper _ | .stackZeroingDone | .keyRequestReissue | .pairedQueueMismatch _ | .getVersion _
  | .getCapabilities _ _ | .negotiateAlgorithms _ _ | .getDigests _ | .finish _ _ _ | .keyUpdate _ _ | .endSession _ _
  | .getCertificate _ _ _ _ | .challenge _ _ _ | .getMeasurements _ _ _ _ | .keyExchange _ _ _ _ | .keyProg _ _ _ _ _ _
  | .kSetGo _ _ _ _ | .kSetStop _ _ _ _ | .chunkSend _ _ _ | .chunkGet _ _ | .vendorDefinedRequest _ _ _ | .ideKmQuery _ _ | .perstAssert
  | .linkUp _ | .linkRecovery _ | .l0pIdleExpire _ | .l0pWidthRequest _ | .l0pFullWidthRequest _
  | .l1Entry | .l1Exit | .d3hotEntry | .d0Return | .vfEnable _ | .tagEnableEffect | .doeObject _ _ _ | .doeAbort
  | .vlkShiftReq _ | .packFlushRequest _ | .packFlushDone _ | .weirTick | .weirWindowBoundary | .dredgePiece | .dredgeGo
  | .stop | .integDredgeDone | .dredgeRoundDone | .rowRetire _ _ | .rowCopy | .pcRetire _ _ | .graceExpire | .resume
  | .powerPeriodEnd _ | .force | .containmentEnd _ | .containmentTimeout | .quietTimerExpire | .fActionsEnd
  | .fltRelease _ | .fltInject _ | .railInRange _ | .startWatchdog | .read | .program | .erase
  | .flashOpDone _ | .flashOpTimeout | .regRead _ | .clearBad | .bistDone _ _ | .abort | .freeze _ | .bwWindowEnd
  | .devTimerLoRead | .vddCoreLoss | .crystalReturn | .sidebandReset | .sidebandFrameError | .stackRailWaitExpire
  | .calRecordWriteEnd _ | .loopbackEntry => true

end Sys2Proof
end

