-- ==== Sys2Proof/Machine/Counters.lean ====
section
/-! DEFINITION. Host access to a function's BARs (R192, R194), the performance counters' commands and the bandwidth
monitors (R376 to R385), and the device timer's read (R386). -/

namespace Sys2Proof.Machine

/-- Does the function exist: PF0, or a VF up to NumVFs while VF Enable is 1 (R192)? -/
def State.funcExists (s : State) (func : Nat) : Bool :=
  func == 0 || (s.flag .cfgVfEnable && func ≤ s.get .cfgNumVfs)

/-- Do the function's BARs answer: the link is up, the function exists, Memory Space Enable is 1, the device is in D0, and
no VF is asked in the failed hold or in recovery mode (R187, R192, R194, R347)? -/
def State.barOpen (s : State) (func : Nat) : Bool :=
  s.dlUp && s.funcExists func && s.flag .cfgMse func && !s.d3hot && (func == 0 || s.get .bootStatusState < bootFailed)

/-- Does a block of BAR0 answer: every one at READY; PCX, LCS, BOOT and FLT before; THM and PWR too in the failed hold and
in recovery mode (R195, R347)? -/
def State.blockOpen (s : State) (block : Nat) : Bool :=
  let early := block = 0x01 || block = 0x03 || block = 0x05 || block = 0x15
  match s.get .bootStatusState with
  | 0 => early
  | 1 => true
  | _ => early || block = 0x12 || block = 0x13

/-- A write request of `n` bytes to a BAR: performed where the BAR answers, otherwise reported as an Unsupported Request
(R194). -/
def State.barWrite (s : State) (func : Nat) (f : State → State) (n : Nat := 4) : State :=
  let s := if s.dlUp then s.received n else s
  if s.barOpen func then f s else s.respondUr func false

/-- A poisoned write to BAR0 or BAR4 is discarded and reported (R205); any other is `f`. -/
def State.unlessPoisoned (s : State) (func : Nat) (poisoned : Bool) (f : State → State) : State :=
  if poisoned then s.aerAdvisoryNonFatal func aerPoisoned else f s

/-- A read request to a BAR: performed where the BAR answers, otherwise completed with Unsupported Request (R194). -/
def State.barRead (s : State) (func : Nat) (f : State → State) : State :=
  if s.barOpen func then f s else s.respondUr func true

/-- A write to a register of a block of a function's BAR0. -/
def State.blockWrite (s : State) (block func : Nat) (f : State → State) : State :=
  s.barWrite func (fun s => if s.blockOpen block then f s else s)

/-- A 32-bit completion. -/
def State.reply32 (s : State) (func v : Nat) : State := s.reply (.data func (leBytes 4 v))

/-- A read of a register of a block of a function's BAR0: 0 where the block does not answer. -/
def State.blockRead (s : State) (block func : Nat) (f : State → State) : State :=
  s.barRead func (fun s => if s.blockOpen block then f s else s.reply32 func 0)

/-- Is VF `v`'s counter page handed to user code (R382)? -/
def State.userRead (s : State) (v : Nat) : Bool :=
  bitAt (s.get64 .pmcUserReadLoMask .pmcUserReadHiMask) v && v ≠ 0

/-- Does a counter count (R378): its EN is 1, and a PF0 counter's FREEZE is 0? -/
def State.counts (s : State) (func n : Nat) : Bool :=
  if func = 0 then s.flag .pmcSelEn n && !s.flag .pmcCtrlFreeze else s.flag .pmcVfSelEn func n

/-- An increment of the command's cycle: lost where the counter does not count (R378, R379). -/
def State.pmcAdd (s : State) (func n add : Nat) : State :=
  if !s.counts func n then s else if func = 0 then s.addCount n add else s.addVfCount func n add

/-- CLEAR of a counter (R379): the count is set to 0, then the increment of the same cycle is added. -/
def State.pmcClearOne (s : State) (func n add : Nat) : State :=
  if func = 0 then (s.setCount48 n 0).pmcAdd func n add
  else if s.userRead func then s.pmcAdd func n add
  else (s.setVfCount48 func n 0).pmcAdd func n add

/-- PMC_CLEAR (R379). -/
def execPmcClear (func n add : Nat) (s : State) : Host.Outcome State Fault Refusal :=
  whenWf "PMC_CLEAR" (Instr.wf (.pmcClear func n add)) (s.blockWrite 0x17 func (·.pmcClearOne func n add))

/-- CLEAR_ALL (R379): every PF0 counter is cleared in one cycle, then the increments of that cycle are added. -/
def State.pmcClearAll (s : State) (adds : List (Nat × Nat)) : State :=
  let s := (List.range 64).foldl (fun s n => s.setCount48 n 0) s
  adds.foldl (fun s a => s.pmcAdd 0 a.1 a.2) s

def execClearAll (adds : List (Nat × Nat)) (s : State) : Host.Outcome State Fault Refusal :=
  whenWf "CLEAR_ALL" (Instr.wf (.clearAll adds)) (s.blockWrite 0x17 0 (·.pmcClearAll adds))

/-- FREEZE (R379): stops or resumes every PF0 counter in the same cycle. -/
def execFreeze (value : Bool) (s : State) : Host.Outcome State Fault Refusal :=
  .next (s.blockWrite 0x17 0 (·.set .pmcCtrlFreeze (b2n value)))

/-- The key of a counter's latch (R380). -/
def pmcLatchKey (func n : Nat) : Nat := if func = 0 then n else 64 + 8 * func + n

/-- What a read of CNT_LO does (R379, R380): the high bits before this cycle's increment are latched. -/
def State.pmcReadLo (s : State) (func n add : Nat) : State :=
  let c := if func = 0 then s.count48 n else s.vfCount48 func n
  let s := { s with counters := { s.counters with
    hiLatch := sparsePut s.counters.hiLatch (pmcLatchKey func n) (c / 2 ^ 32) } }
  s.pmcAdd func n add

/-- The low word of a count. -/
def State.pmcLow (s : State) (func n : Nat) : Nat := (if func = 0 then s.count48 n else s.vfCount48 func n) % 2 ^ 32

/-- PMC_CNT_LO_READ (R380). -/
def execPmcCntLoRead (func n add : Nat) (s : State) : Host.Outcome State Fault Refusal :=
  whenWf "PMC_CNT_LO_READ" (Instr.wf (.pmcCntLoRead func n add)) 
    (s.blockRead 0x17 func (fun s => (s.reply32 func (s.pmcLow func n)).pmcReadLo func n add))

/-- Units of 64 bytes that port `p` released in the window (R383). -/
def State.bwUnits (s : State) (p : Nat) : Nat := (sparseGet s.counters.bwLines p).getD 0

/-- The end of a bandwidth window (R383): rates and peaks are latched, SEQ increments, a new WINDOW_US takes effect. -/
def State.bwWindowEnd (s : State) : State :=
  let win := s.eff .pmcBwCfgWindowUs
  let s := (List.range 59).foldl (fun s p =>
    let r := min (2 ^ 20 - 1) (s.bwUnits p * 16 / win)
    (s.set .pmcBwRate r p).raiseMax .pmcBwPeakRate r p) s
  let s := { s with counters := { s.counters with bwLines := [] } }
  (s.wrapInc .pmcBwSeqSeq).applyB .pmcBwCfgWindowUs

def execBwWindowEnd (s : State) : Host.Outcome State Fault Refusal := .next s.bwWindowEnd

/-- What a read of DEV_TIMER_LO does (R386): the high word is latched. -/
def State.readTimerLo (s : State) : State := s.set .devTimerHiTime (s.timer / 2 ^ 32)

/-- DEV_TIMER_LO_READ (R386). -/
def execDevTimerLoRead (s : State) : Host.Outcome State Fault Refusal :=
  .next (s.blockRead 0x00 0 (fun s => (s.reply32 0 (s.timer % 2 ^ 32)).readTimerLo))

end Sys2Proof.Machine
end

