-- ==== Sys2Proof/Machine/PcQueue.lean ====
section
/-! DEFINITION. The DRAM array and the queues in front of it: PC-local addresses and the bank swizzle (R211), lines and
poison (R275, R276), and how a line request enters its PC's queue (R214, R222, R263). -/

namespace Sys2Proof.Machine

/-! ### Addresses -/

/-- 1.5 GiB per PC (R13, R211). -/
def pcBytes : Nat := 1610612736

/-- 64-byte lines per PC. -/
def pcLines : Nat := 25165824

/-- The array's byte key of PC-local address `a`. -/
def memKey (pc a : Nat) : Nat := pc * pcBytes + a

/-- The array's line key of PC-local address `a`. -/
def lineKey (pc a : Nat) : Nat := pc * pcLines + a / 64

/-- COL, ROW, bank group and bank of a PC-local address (R211), the latter two after the swizzle. -/
def colOf (a : Nat) : Nat := bits a 9 6
def rowOf (a : Nat) : Nat := bits a 30 15
def bgOf (a : Nat) : Nat := bits a 11 10 ^^^ (rowOf a % 4)
def bankOf (a : Nat) : Nat := bits a 14 12 ^^^ (rowOf a / 4 % 8)

/-- Bank group × 8 + bank. -/
def bankIndex (a : Nat) : Nat := bgOf a * 8 + bankOf a

/-- The PC-local address of line `col` in a row of a bank, undoing the swizzle. -/
def addrOfRow (bg bank row col : Nat) : Nat :=
  row * 2 ^ 15 + (bank ^^^ (row / 4 % 8)) * 2 ^ 12 + (bg ^^^ (row % 4)) * 2 ^ 10 + col * 2 ^ 6

/-- LOC of a line (R322). -/
def locOfLine (pc a : Nat) : Nat := locWord pc (bgOf a) (bankOf a) (rowOf a) (colOf a)

/-- Is PC `p` RETIRED or FAILED (R227)? -/
def State.pcGone (s : State) (p : Nat) : Bool := 4 ≤ s.get .drcPcStateState p

/-- The PCs of a channel that are neither RETIRED nor FAILED. -/
def State.channelPcs (s : State) (c : Nat) : List Nat := [2 * c, 2 * c + 1].filter (fun p => !s.pcGone p)

/-! ### The DRAM array -/

/-- A line of the array: its data and whether it is marked poisoned (R276). A FAILED or RETIRED PC's data is not reachable
(R14): it reads as an uncorrectable line of bytes that nothing constrains. -/
def State.arrayRead (s : State) (pc a : Nat) : List Byte × Bool :=
  let base := memKey pc (a / 64 * 64)
  if s.pcGone pc then ((List.range 64).map (fun i => Config.lostByte (base + i)), true)
  else (Mem.readN 0 s.dram.mem base 64, s.dram.poison.contains (lineKey pc a))

/-- Insert into a rising list without repeats. -/
def insertRising (k : Nat) : List Nat → List Nat
  | [] => [k]
  | x :: xs => if k = x then x :: xs else if k < x then k :: x :: xs else x :: insertRising k xs

/-- A line is written to the array, marked poisoned or not (R276); a FAILED or RETIRED PC's lines are not reached (R14). -/
def State.arrayWrite (s : State) (pc a : Nat) (data : List Byte) (poison : Bool) : State :=
  let key := lineKey pc a
  if s.pcGone pc then s
  else { s with dram := { s.dram with
      mem := Mem.writeN 0 s.dram.mem (memKey pc (a / 64 * 64)) (fitBytes 64 data)
      poison := if poison then insertRising key s.dram.poison else s.dram.poison.filter (· ≠ key)
      uncorr := s.dram.uncorr.filter (· ≠ key) } }

/-- Zero every line of the stack (R172, R340 step 8): nothing listed, nothing poisoned, no owner recorded (R213). -/
def State.zeroStack (s : State) : State :=
  { s with dram := { s.dram with mem := [], poison := [], owners := [], lost := false } }

/-! ### Line requests -/

/-- A DRAM line request of a Lake access (R214); rank and time are set at the queue. -/
def dramReqOf (pc a group : Nat) (write durable rt : Bool) (time : Nat) : DramReq :=
  { pc, bank := bankIndex a, row := rowOf a, col := colOf a, write, durable, group, rt, prio := 0, guar := false,
    posted := false, aged := false, arrival := time }

/-- The PC-local address of the line that a request names (R211). -/
def DramReq.addr (r : DramReq) : Nat := addrOfRow (r.bank / 8) (r.bank % 8) r.row r.col

/-- Is the request a read? -/
def PortReq.read (r : PortReq) : Bool := match r.op with
  | .read | .reply _ _ | .fence => true
  | .array w => !w
  | .write _ _ _ | .settled _ => false

/-- Does an RT read of group `g` wait at port 54: the function's posted BAR2 writes ahead of it are RT until it is released
(R252)? -/
def State.rtBehind (s : State) (g : Nat) : Bool := s.weirs.queue.any (fun x => x.port == 54 && x.group == g && x.rt && x.read)

/-- Does RT precedence hold for the request now: its own class, or what a posted BAR2 write inherits (R252)? -/
def State.effRt (s : State) (r : DramReq) : Bool := r.rt || (r.posted && s.rtBehind r.group)

/-- The same of a request that has not reached its controller. -/
def State.portRt (s : State) (r : PortReq) : Bool := r.rt || (r.port == 54 && !r.read && s.rtBehind r.group)

/-! ### PC queues -/

/-- Requests in PC `p`'s queue. -/
def State.pcQueue (s : State) (p : Nat) : List DramReq := s.dram.queue.filter (·.pc == p)

/-- Entries of a group in PC `p`'s queue, RT entries aside. -/
def State.groupHeld (s : State) (p g : Nat) : Nat :=
  ((s.pcQueue p).filter (fun r => r.group == g && !r.rt)).length

/-- May the request enter its PC's queue (R214, R263)? -/
def State.mayEnter (s : State) (r : DramReq) : Bool :=
  let q := s.pcQueue r.pc
  if 64 ≤ q.length then false
  else if s.effRt r && (q.filter s.effRt).length < 4 then true
  else if r.rt then false
  else
    let held := s.groupHeld r.pc r.group
    let unused := ((List.range 65).map (fun g => s.get .weirGrpCfgQmin g - s.groupHeld r.pc g)).foldl (· + ·) 0
    let taken := (q.filter (fun x => !x.rt)).length
    taken < 60 && (held < s.get .weirGrpCfgQmin r.group || (taken + unused < 60 && held < s.get .weirGrpCfgQmax r.group))

/-- Write draining of a PC (R214): it starts at WR_HI queued writes and ends at WR_LO; with no read queued, writes drain. -/
def State.updateDrain (s : State) (p : Nat) : State :=
  let q := s.pcQueue p
  let w := (q.filter (·.write)).length
  let on := s.dram.draining.contains p
  let on' := if q.all (·.write) then 0 < w
    else if on then s.get .drcWrqWrLo < w else 0 < w && s.get .drcWrqWrHi ≤ w
  { s with dram := { s.dram with
      draining := if on' then (if on then s.dram.draining else p :: s.dram.draining)
                  else s.dram.draining.filter (· ≠ p) } }

/-- A request enters the queue. -/
def State.enqueue (s : State) (r : DramReq) : State :=
  let s := { s with dram := { s.dram with queue := s.dram.queue ++ [{ r with arrival := s.timer }] } }
  (s.raiseMax .drcPcQmaxMax (s.pcQueue r.pc).length r.pc).updateDrain r.pc

/-- Is PC `p` held by a maintenance slot (R282, R284)? -/
def State.slotHold (s : State) (p : Nat) : Bool :=
  s.vlink.running.any (fun x => if x.ca then x.unit == p / 2 else x.unit == p)

/-- Is PC `p` held by a maintenance slot, or by a calibration of kind 5 or 6 (R310)? -/
def State.laneHold (s : State) (p : Nat) : Bool :=
  s.slotHold p || s.cal.running.any (fun t => (t.1 == 5 && t.2 == p / 2) || (t.1 == 6 && t.2 == p))

/-- Of two requests, does the later one keep behind the earlier while both wait in their slice (R263: arrival order per
group; RT apart)? -/
def State.follows (s : State) (r x : DramReq) : Bool := x.pc == r.pc && x.group == r.group && s.effRt x == s.effRt r

/-- The channel's residency is over and only SR_AUTO keeps it in self-refresh: a request starts its exit (R222). -/
def State.wakeChannel (s : State) (p : Nat) : State :=
  let c := p / 2
  if s.get .drcPcStateState p = 2 ∧ s.dram.srOver.contains c ∧ assoc s.dram.srCause c = some .idle then
    ([2 * c, 2 * c + 1].filter (fun p => !s.pcGone p)).foldl (fun s p => s.set .drcPcStateState 3 p) s
  else s

/-- A line request reaches PC `r.pc`'s controller (R214, R222, R263): answered from a queued write to the same line, held
while the channel is not ACTIVE or in a maintenance hold, queued, or left waiting in its slice. -/
def State.submit (s : State) (r : DramReq) : State :=
  let st := s.get .drcPcStateState r.pc
  let same (x : DramReq) : Bool := x.pc == r.pc && x.bank == r.bank && x.row == r.row && x.col == r.col && x.write
  if 4 ≤ st then s
  else if st ≠ 0 then
    (({ s with dram := { s.dram with held := s.dram.held ++ [r] } }).satInc .drcPcSrheldCount r.pc).wakeChannel r.pc
  else if s.laneHold r.pc then { s with dram := { s.dram with held := s.dram.held ++ [r] } }
  else if !r.write && s.dram.queue.any same then s
  else if !s.dram.waiting.any (s.follows r) && s.mayEnter r then s.enqueue r
  else { s with dram := { s.dram with waiting := s.dram.waiting ++ [r] } }

/-- Requests that wait in their slice and may enter now do so, in arrival order per group (R263). -/
def State.admitWaiting (s : State) : State :=
  (s.dram.waiting.foldl (fun (acc : State × List DramReq) r =>
    let (s, left) := acc
    if !left.any (s.follows r) && s.mayEnter r then (s.enqueue r, left)
    else (s, left ++ [r])) ({ s with dram := { s.dram with waiting := [] } }, [])) |>
    fun (s, left) => { s with dram := { s.dram with waiting := left } }

/-- Requests held at the PCs that `on` names proceed in order (R222, R282). -/
def State.releaseHeld (s : State) (on : Nat → Bool) : State :=
  let go := s.dram.held.filter (fun r => on r.pc)
  let s := { s with dram := { s.dram with held := s.dram.held.filter (fun r => !on r.pc) } }
  go.foldl State.submit s

end Sys2Proof.Machine
end

