-- ==== Sys2Proof/Machine/Memory.lean ====
section
/-! DEFINITION. Stack memory as every master reaches it: PC-local addresses and the bank swizzle (R211), basins and their
translation (R209, R210, R213), the DRAM array's lines and poison (R275, R276), and the Lake's lines (R228 to R234). -/

namespace Sys2Proof.Machine

/-! ### Basins (R209 to R213) -/

/-- PCMASK of a basin. -/
def State.basinMask (s : State) (b : Nat) : Nat := s.get64 .drcBasinPcmaskLoMask .drcBasinPcmaskHiMask b

def State.basinP (s : State) (b : Nat) : Nat := popCount 64 (s.basinMask b)

/-- SIZE in bytes: P · EXT · 64 KiB (R209). -/
def State.basinSize (s : State) (b : Nat) : Nat := s.basinP b * s.get .drcBasinLocExt b * 65536

/-- The basin's start in its function's BAR2 window, in bytes. -/
def State.basinBase (s : State) (b : Nat) : Nat := s.get .drcBasinBaseBase b * 65536

/-- Is the basin enabled in effect, for new jobs and BAR2 requests (R213; a write of EN = 0 counts at once)? -/
def State.basinOn (s : State) (b : Nat) : Bool :=
  b < 64 && s.flag .drcBasinCfgEn b && s.eff .drcBasinCfgEn b == 1 && !s.dram.filling.contains b

/-- XOR-fold in 6-bit pieces (R210); `fuel` covers any 36-bit quotient. -/
def xorFold6 : Nat → Nat → Nat
  | 0, _ => 0
  | n + 1, x => (x % 64) ^^^ xorFold6 n (x / 64)

/-- The `n`-th set bit of a mask, counting from bit 0 as the 0th. -/
def nthSet (mask n : Nat) : Nat := (rangeWith 64 (bitAt mask)).getD n 0

/-- locate(b, off) of R210: the PC and the PC-local byte address. -/
def State.locate (s : State) (b off : Nat) : Nat × Nat :=
  let gb := s.get .drcBasinCfgGrain b
  let p := s.basinP b
  let c := off >>> gb
  let q := c / p
  let slot := (c % p + xorFold6 12 q) % p
  (nthSet (s.basinMask b) slot, s.get .drcBasinLocLbase b * 65536 + q * 2 ^ gb + off % 2 ^ gb)

/-- A stack offset of SCRUB with BASIN 0xFF (R210). -/
def locateStack (off : Nat) : Nat × Nat := (off / pcBytes, off % pcBytes)

/-- The pieces of a byte range that lie in one block of `size` bytes each: start offset and length; `fuel` bounds their
number. -/
def piecesOf (size : Nat) : Nat → Nat → Nat → List (Nat × Nat)
  | 0, _, _ => []
  | _, _, 0 => []
  | fuel + 1, off, n =>
    let k := min n (size - off % size)
    (off, k) :: piecesOf size fuel (off + k) (n - k)

/-- The pieces in 64-byte lines, and those in 128-byte Lake lines, which are the words of a Pack queue (R241). -/
abbrev linePieces : Nat → Nat → Nat → List (Nat × Nat) := piecesOf 64
abbrev wordPieces : Nat → Nat → Nat → List (Nat × Nat) := piecesOf 128

/-- Owners recorded per basin (R213). -/
def State.basinOwner (s : State) (b : Nat) : Option Nat := assoc s.dram.owners b

/-- Do the ranges [a, a + n) and [b, b + m) overlap? -/
def overlaps (a n b m : Nat) : Bool := a < b + m && b < a + n

/-- The conditions of R212 that do not concern FAILED PCs, for basin `b` against every other basin that `on` names. -/
def State.basinOk (s : State) (vfCount : Nat) (on : Nat → Bool) (badPc : Nat → Bool) (b : Nat) : Bool :=
  let lbase := s.get .drcBasinLocLbase b
  let ext := s.get .drcBasinLocExt b
  let grain := s.get .drcBasinCfgGrain b
  let owner := s.get .drcBasinCfgOwner b
  let journal := s.flag .drcBasinCfgJournal b
  let mask := s.basinMask b
  let others := rangeWith 64 (fun c => c ≠ b && on c)
  1 ≤ s.basinP b && 8 ≤ grain && grain ≤ 16 && lbase ≤ 24575 && 1 ≤ ext && ext + lbase ≤ 24576 &&
  (if journal then owner == 64 else owner == 0 || owner ≤ vfCount) &&
  (List.range 64).all (fun p => !bitAt mask p || !badPc p) &&
  others.all (fun c =>
    (mask &&& s.basinMask c) == 0
      || !overlaps lbase ext (s.get .drcBasinLocLbase c) (s.get .drcBasinLocExt c)) &&
  (journal || others.all (fun c =>
    s.get .drcBasinCfgOwner c ≠ owner
      || !overlaps (s.basinBase b) (s.basinSize b) (s.basinBase c) (s.basinSize c)))

/-! ### The Lake -/

/-- Set index (R228). -/
def lakeSet (a : Nat) : Nat := bits a 16 7 ^^^ bits a 26 17

/-- Tag (R228). -/
def lakeTag (a : Nat) : Nat := bits a 30 17

/-- Sector number (R228). -/
def lakeSector (a : Nat) : Nat := bits a 6 6

def emptySector : Sector := { valid := false, dirty := false, poison := false, data := zeros 64 }

def LakeLine.sector (l : LakeLine) (n : Nat) : Sector := if n = 0 then l.s0 else l.s1

def LakeLine.setSector (l : LakeLine) (n : Nat) (x : Sector) : LakeLine :=
  if n = 0 then { l with s0 := x } else { l with s1 := x }

/-- The PC-local address of a line's sector `n`, from its set and tag (R228). -/
def LakeLine.addr (l : LakeLine) (n : Nat) : Nat := l.tag * 2 ^ 17 + (l.set ^^^ (l.tag % 1024)) * 2 ^ 7 + n * 64

/-- The line that holds address `a` of PC `pc`. -/
def State.lakeFind (s : State) (pc a : Nat) : Option LakeLine :=
  s.lake.lines.find? (fun l => l.slice == pc && l.set == lakeSet a && l.tag == lakeTag a)

/-- Put a line in its way. -/
def State.lakePut (s : State) (l : LakeLine) : State :=
  let others := s.lake.lines.filter (fun x => !(x.slice == l.slice && x.set == l.set && x.way == l.way))
  { s with lake := { s.lake with lines := others ++ [l] } }

/-- The pseudo-LRU tree after way `w` is used: each of the four nodes on its path points away from it. Node n's children
are 2n + 1 and 2n + 2; bit 1 points to the right half (DESIGN CHOICE, log entry 14). -/
def plruTouch (tree w : Nat) : Nat :=
  let step (acc : Nat × Nat) (bit : Nat) : Nat × Nat :=
    let (tree, node) := acc
    let right := bitAt w bit
    let cleared := if bitAt tree node then tree - 2 ^ node else tree
    (if right then cleared else cleared + 2 ^ node, 2 * node + 1 + b2n right)
  ([3, 2, 1, 0].foldl step (tree, 0)).1

/-- The allowed way the tree points to: at each node the half it points to, unless only the other half has an allowed
way (R232). -/
def plruVictim (tree : Nat) (allowed : List Nat) : Option Nat :=
  let step (acc : Nat × List Nat) (bit : Nat) : Nat × List Nat :=
    let (node, ways) := acc
    let right := ways.filter (fun w => bitAt w bit)
    let left := ways.filter (fun w => !bitAt w bit)
    if (bitAt tree node && !right.isEmpty) || left.isEmpty then (2 * node + 2, right) else (2 * node + 1, left)
  (([3, 2, 1, 0].foldl step (0, allowed)).2).head?

def State.plruUse (s : State) (slice set way : Nat) : State :=
  let k := slice * 1024 + set
  let t := plruTouch ((sparseGet s.lake.plru k).getD 0) way
  { s with lake := { s.lake with
      plru := if t = 0 then sparseDel s.lake.plru k else sparsePut s.lake.plru k t } }

/-- The way mask of a share group, SYS included (R232). -/
def State.wayMask (s : State) (group : Nat) : Nat :=
  if group < 64 then s.get .lakeWaysMask group else s.get .lakeSysWaysMask

/-- The usable ways of a set for a group: in its mask, not disabled; none in a blocked set (R232, R235). -/
def State.usableWays (s : State) (slice set group : Nat) : List Nat :=
  if s.lake.blocked.contains (slice * 1024 + set) then []
  else rangeWith 16 (fun w => bitAt (s.wayMask group) w && !s.lake.offWays.contains (slice * 16 + w))

/-! ### The write-back buffer (R231) -/

/-- Is the write-back that of the sector at `a` of PC `pc`? -/
def WriteBack.is (x : WriteBack) (pc a : Nat) : Bool := x.pc == pc && x.a / 64 == a / 64

/-- Is a write-back of the sector in flight? -/
def State.buffered (s : State) (pc a : Nat) : Bool := s.lake.wbuf.any (·.is pc a)

/-- What lies below the slice: the newest write-back in flight, else the array's line as its read decodes (R231, R278). -/
def State.lineBelow (s : State) (pc a : Nat) : List Byte × Bool :=
  match (s.lake.wbuf.filter (·.is pc a)).getLast? with
  | some x => (x.data, x.poison)
  | none =>
    let (d, p) := s.arrayRead pc a
    (d, p || s.dram.uncorr.contains (lineKey pc a))

/-- Is a write-back of the Lake line that holds `a` in flight? -/
def State.lineBuffered (s : State) (pc a : Nat) : Bool := s.lake.wbuf.any (fun x => !x.clean && x.pc == pc && x.a / 128 == a / 128)

/-- The clean sectors of a line none of whose write-backs is in flight leave the buffer. -/
def State.wbTidy (s : State) (pc a : Nat) : State :=
  if s.lineBuffered pc a then s
  else { s with lake := { s.lake with wbuf := s.lake.wbuf.filter (fun x => !(x.pc == pc && x.a / 128 == a / 128)) } }

/-- The sector's oldest write-back reaches the array. -/
def State.wbDone (s : State) (pc a : Nat) : State :=
  let mine (x : WriteBack) : Bool := !x.clean && x.is pc a
  match s.lake.wbuf.find? mine with
  | none => s
  | some x => { s.arrayWrite pc a x.data x.poison with lake := { s.lake with wbuf := s.lake.wbuf.eraseP mine } }.wbTidy pc a

/-- Newer data of the sector stands in the array: write-backs in flight carry nothing to it any more. -/
def State.wbDrop (s : State) (pc a : Nat) : State :=
  { s with lake := { s.lake with wbuf := s.lake.wbuf.filter (fun x => !x.is pc a) } }.wbTidy pc a

/-- The line request that a fetch makes: none where the sector is served from the write-back buffer (R231). -/
def State.fetchReq (s : State) (pc a group : Nat) : List DramReq :=
  if s.buffered pc a then [] else [dramReqOf pc a group false false false s.timer]

/-- A dirty sector is written back for a request or a flush of `group`: it stays VALID and clean, its data and its poison
marker stand in the write-back buffer, and its line request goes to the controller. Counted as a WRITEBACK (R377). -/
def State.writeBack (s : State) (l : LakeLine) (n group : Nat) : State × List DramReq :=
  let x := l.sector n
  if !x.dirty then (s, [])
  else
    let s := (s.lakePut (l.setSector n { x with dirty := false })).count 0x0C 2 l.slice
    ({ s with lake := { s.lake with
        wbuf := s.lake.wbuf ++ [{ pc := l.slice, a := l.addr n, data := x.data, poison := x.poison }] } },
      [dramReqOf l.slice (l.addr n) group true false false s.timer])

/-- A clean VALID sector of a line that is being evicted stands in the buffer beside the line's write-back (R231). -/
def State.keepClean (s : State) (l : LakeLine) (n : Nat) : State :=
  let x := l.sector n
  if !x.valid || x.dirty then s
  else { s with lake := { s.lake with
    wbuf := s.lake.wbuf ++ [{ pc := l.slice, a := l.addr n, data := x.data, poison := x.poison, clean := true }] } }

/-- Both sectors of the line that holds `a`, written back where DIRTY. -/
def State.writeBackLine (s : State) (pc a group : Nat) : State × List DramReq :=
  match s.lakeFind pc a with
  | none => (s, [])
  | some l =>
    let (s, r0) := s.writeBack l 0 group
    match s.lakeFind pc a with
    | none => (s, r0)
    | some l =>
      let (s, r1) := s.writeBack l 1 group
      (s, r0 ++ r1)

/-- A dirty sector's data and poison marker are in the array; it stays VALID and clean (R230). -/
def State.sectorToArray (s : State) (pc a : Nat) : State :=
  match s.lakeFind pc a with
  | none => s
  | some l =>
    let n := lakeSector a
    let x := l.sector n
    if !x.dirty then s
    else (((s.arrayWrite pc a x.data x.poison).wbDrop pc a).lakePut (l.setSector n { x with dirty := false })).count 0x0C 2 pc

/-! ### Accesses of a slice (R229 to R234) -/

/-- Allocate a way for address `a` (R232): the lowest with no VALID sector, else the pseudo-LRU one, whose dirty sectors are
written back first, in the group of the request (R253). -/
def State.lakeAllocate (s : State) (pc a group : Nat) : State × Option LakeLine × List DramReq :=
  let set := lakeSet a
  let usable := s.usableWays pc set group
  let held (w : Nat) : Option LakeLine := s.lake.lines.find? (fun l => l.slice == pc && l.set == set && l.way == w)
  let isFree (w : Nat) : Bool := match held w with
    | none => true
    | some l => !l.s0.valid && !l.s1.valid
  let victim := match usable.find? isFree with
    | some w => some w
    | none => plruVictim ((sparseGet s.lake.plru (pc * 1024 + set)).getD 0) usable
  match victim with
  | none => (s, none, [])
  | some w =>
    let (s, wb) := match held w with
      | none => (s, [])
      | some l =>
        let (t, wb) := s.writeBackLine pc (l.addr 0) group
        (if wb.isEmpty then t else (t.keepClean l 0).keepClean l 1, wb)
    let line : LakeLine := { slice := pc, set, way := w, tag := lakeTag a, s0 := emptySector, s1 := emptySector }
    (s.lakePut line, some line, wb)

/-- A sector filled from below the slice; a poisoned line restores POISON (R234). -/
def State.fillSector (s : State) (pc a : Nat) : Sector :=
  let (d, p) := s.lineBelow pc a
  { valid := true, dirty := false, poison := p, data := d }

/-- `bytes` merged into a sector's data from byte `o` (R229). -/
def mergeBytes (old : List Byte) (o : Nat) (bytes : List Byte) : List Byte :=
  (old.take o ++ bytes ++ old.drop (o + bytes.length)).take 64

/-- The sector of a held line is read: fetched first if it is not VALID (R229). -/
def State.readSector (s : State) (pc a group : Nat) : State × List DramReq :=
  match s.lakeFind pc a with
  | none => (s, [])
  | some l =>
    let n := lakeSector a
    let s := s.activity 1 (pc / 16)
    if (l.sector n).valid then (s.plruUse pc l.set l.way, [])
    else ((s.lakePut (l.setSector n (s.fillSector pc a))).plruUse pc l.set l.way, s.fetchReq pc a group)

/-- A read of the sector at `a`, or of its whole line (R229, R232, R234); its line requests, the requested sector first. A line
whose eviction write-back is in flight is allocated anew without a fetch of what nobody asked for (R231). -/
def State.lakeRead (s : State) (pc a group units : Nat) : State × List DramReq :=
  let other := if a / 64 % 2 = 0 then a + 64 else a - 64
  match s.lakeFind pc a with
  | some _ =>
    let (s, r0) := (s.count 0x0C 0 pc).readSector pc a group
    if units = 2 then
      let (s, r1) := s.readSector pc other group
      (s, r0 ++ r1)
    else (s, r0)
  | none =>
    let s := s.count 0x0C 1 pc
    match s.lakeAllocate pc a group with
    | (s, none, _) => (s.count 0x0C 3 pc, s.fetchReq pc a group ++ (if units = 2 then s.fetchReq pc other group else []))
    | (s, some l, wb) =>
      let alone := s.lineBuffered pc a && !s.buffered pc other && units ≠ 2
      let l := l.setSector (lakeSector a) (s.fillSector pc a)
      let filled := if alone then l else l.setSector (lakeSector other) (s.fillSector pc other)
      (((s.activity 1 (pc / 16) units).lakePut filled).plruUse pc l.set l.way,
        wb ++ s.fetchReq pc a group ++ (if alone then [] else s.fetchReq pc other group))

/-- A write of `bytes` from `a` on, inside one sector (R229, R230, R232, R234): merged in the slice's line, or performed on
the array where no line was allocated. `poisoned` marks what it touches. A durable write's sector is written back by its own
line request (R230); the sector is DIRTY until that ends. -/
def State.writeSector (s : State) (pc a group : Nat) (bytes : List Byte) (poisoned durable : Bool) : State × List DramReq :=
  let n := lakeSector a
  let whole := bytes.length == 64
  let wr := dramReqOf pc a group true true false s.timer
  let merge (x : Sector) : Sector :=
    { valid := true, dirty := true, poison := poisoned || (x.poison && !whole), data := mergeBytes x.data (a % 64) bytes }
  match s.lakeFind pc a with
  | some l =>
    let x := l.sector n
    let rd := if x.valid || whole then [] else s.fetchReq pc a group
    let x := merge (if x.valid then x else if whole then emptySector else s.fillSector pc a)
    let s := (if poisoned && !(l.sector n).poison then s.satInc .lakePoisonSetCount else s).activity 1 (4 + pc / 16)
    ((s.lakePut (l.setSector n x)).plruUse pc l.set l.way, rd ++ (if durable then [wr] else []))
  | none =>
    let x := merge (s.fillSector pc a)
    ((s.arrayWrite pc a x.data x.poison).wbDrop pc a, (if whole then [] else s.fetchReq pc a group) ++ [wr])

/-- The parts of a write of `bytes` from `a` on, one for each sector. -/
def sectorParts (a : Nat) (bytes : List Byte) (poisoned : Bool) : List (Nat × List Byte × Bool) :=
  (linePieces (bytes.length + 1) a bytes.length).map (fun x => (x.1, (bytes.drop (x.1 - a)).take x.2, poisoned))

/-- A write inside one Lake line, given by its parts in the sectors: address, bytes, poison (R229, R232). -/
def State.lakeWrite (s : State) (pc a group : Nat) (parts : List (Nat × List Byte × Bool)) (durable : Bool) :
    State × List DramReq :=
  let (s, wb) := match s.lakeFind pc a with
    | some _ => (s.count 0x0C 0 pc, [])
    | none =>
      match (s.count 0x0C 1 pc).lakeAllocate pc a group with
      | (s, none, _) => (s.count 0x0C 3 pc, [])
      | (s, some _, wb) => (s, wb)
  parts.foldl (fun (acc : State × List DramReq) x =>
    let (s, reqs) := acc.1.writeSector pc x.1 group x.2.1 x.2.2 durable
    (s, acc.2 ++ reqs)) (s, wb)

/-- Every sector that is DIRTY now is written back, on the slices that `on` names; a flush's write-backs are SYS's (R233). -/
def State.lakeFlush (s : State) (on : Nat → Bool) : State :=
  s.lake.lines.foldl (fun s l =>
    if !on l.slice then s
    else
      let (s, reqs) := s.writeBackLine l.slice (l.addr 0) 64
      reqs.foldl State.submit s) s

/-- The same where nothing may wait: the data of every DIRTY sector and of every write-back is in the array (R17, R371). -/
def State.lakeEmpty (s : State) (on : Nat → Bool) : State :=
  let s := (s.lake.wbuf.filter (fun x => on x.pc && !x.clean)).foldl (fun s x => s.wbDone x.pc x.a) s
  s.lake.lines.foldl (fun s l =>
    if !on l.slice then s else (s.sectorToArray l.slice (l.addr 0)).sectorToArray l.slice (l.addr 1)) s

/-- Write-backs that have not reached the array. -/
def State.writeBacks (s : State) : Nat := (s.lake.wbuf.filter (fun x => !x.clean)).length

/-- How many sectors are DIRTY. -/
def State.dirtySectors (s : State) : Nat :=
  (s.lake.lines.map (fun l => b2n l.s0.dirty + b2n l.s1.dirty)).foldl (· + ·) 0

/-- Every Lake line invalid, and nothing on its way to the array (R233: a warm start; R172). -/
def State.lakeInvalidate (s : State) : State := { s with lake := { s.lake with lines := [], plru := [], wbuf := [] } }

/-- Nothing is on its way to the stack any more: at the ports, in the Pack queues, at the slices and at the controllers (R172,
R304). -/
def State.dropTraffic (s : State) : State :=
  { s with
    weirs := { s.weirs with queue := [] }, packs := [], pcie := { s.pcie with replies := [] }
    lake := { s.lake with held := [], decodes := [], wbuf := [] }
    dram := { s.dram with queue := [], waiting := [], held := [] } }

/-- The slices of the PCs that `on` names hold nothing any more, nor do their queues (R14, R371). -/
def State.dropSlices (s : State) (on : Nat → Bool) : State :=
  { s with
    lake := { s.lake with
      lines := s.lake.lines.filter (fun l => !on l.slice), wbuf := s.lake.wbuf.filter (fun x => !on x.pc) }
    dram := { s.dram with
      queue := s.dram.queue.filter (fun r => !on r.pc), waiting := s.dram.waiting.filter (fun r => !on r.pc)
      held := s.dram.held.filter (fun r => !on r.pc) } }

/-! ### Pack queues in front of ports (R241, R242, R245) -/

def State.pack (s : State) (q : Nat) : PackQueue := (s.packs.find? (·.queue == q)).getD { queue := q }

def State.setPack (s : State) (x : PackQueue) : State :=
  { s with packs := if s.packs.any (·.queue == x.queue) then s.packs.map (fun y => if y.queue == x.queue then x else y)
                    else s.packs ++ [x] }

/-- Does the word carry a packet of queue `q` that `mine` names? -/
def PortReq.inPacket (r : PortReq) (q : Nat) (mine : Nat → Bool) : Bool :=
  r.port == q && match r.packet with
    | some k => mine k
    | none => false

/-- Words of queue `q`'s packets that `mine` names which the Lake side has not accepted yet. -/
def State.packWords (s : State) (q : Nat) (mine : Nat → Bool) : List PortReq :=
  (s.lake.held ++ s.weirs.queue ++ (s.pack q).held).filter (·.inPacket q mine)

/-- Held words that a credit is there for, and that no flush holds back, enter the queue in order (R242, R245). -/
def State.packPump (s : State) (q : Nat) : State :=
  let x := s.pack q
  let go := (x.held.takeWhile (fun r => !(x.flush && x.boundary ≤ r.packet.getD 0))).take x.credits
  if go.isEmpty then s
  else
    let s := s.setPack { x with credits := x.credits - go.length, held := x.held.drop go.length }
    { s with weirs := { s.weirs with queue := s.weirs.queue ++ go } }

/-- The Lake side has accepted a word: its credit returns, for the next send (R245), and a packet none of whose words is left
leaves the queue. -/
def State.packAccepted (s : State) (r : PortReq) : State :=
  match r.packet with
  | none => s
  | some k =>
    let x := s.pack r.port
    let left := !(s.packWords r.port (· == k)).isEmpty
    let x := { x with credits := x.credits + 1, packets := if left then x.packets else x.packets.filter (·.id ≠ k) }
    (s.setPack x).packPump r.port

/-- A new packet of a unit's data entry: its number (R241). -/
def State.packOpen (s : State) (q : Nat) (p : Packet) : State × Nat :=
  let x := s.pack q
  (s.setPack { x with packets := x.packets ++ [{ p with id := x.nextId }], nextId := x.nextId + 1 }, x.nextId)

/-- Sectors that the `n` bytes from `a` on touch in one Lake line: 1 or 2 (R250). -/
def unitsOf (a n : Nat) : Nat := if a / 64 = (a + n - 1) / 64 then 1 else 2

/-- The sector as its slice serves it (R229, R231). -/
def State.sectorBase (s : State) (pc a : Nat) : List Byte × Bool :=
  match if s.pcGone pc then none else s.lakeFind pc a with
  | none => s.lineBelow pc a
  | some l =>
    let x := l.sector (lakeSector a)
    if x.valid then (x.data, x.poison) else s.lineBelow pc a

/-! ### A port's request at its slice (R16, R17, R231, R262) -/

/-- The bytes of one Lake line that a read finds at its slice, and whether any of it is poisoned. -/
def State.sliceRead (s : State) (pc a n : Nat) : List Byte × Bool :=
  let (d, p) := s.sectorBase pc a
  let (d', p') := if unitsOf a n = 2 then s.sectorBase pc (a / 64 * 64 + 64) else ([], false)
  (((d ++ d').drop (a % 64)).take n, p || p')

/-- A request takes what the decodes of its lines found (R278). -/
def State.takeLines (s : State) (keys : List Nat) : State :=
  { s with dram := { s.dram with
    corrected := s.dram.corrected.filter (fun k => !keys.contains k), uncorr := s.dram.uncorr.filter (fun k => !keys.contains k) } }

/-- Completions that are ready, each behind those of its read that come before it in address order (R223): what goes out and
what stays. -/
def readyReplies : List Nat → List Reply → List Reply × List Reply
  | _, [] => ([], [])
  | held, x :: xs =>
    if x.answer.isSome && !held.contains x.read then (x :: (readyReplies held xs).1, (readyReplies held xs).2)
    else ((readyReplies (x.read :: held) xs).1, x :: (readyReplies (x.read :: held) xs).2)

/-- The first open completion of read `n` is answered. -/
def answerFirst (n : Nat) (a : List Byte × Bool) : List Reply → List Reply
  | [] => []
  | x :: xs => if x.read == n && x.answer.isNone then { x with answer := some a } :: xs else x :: answerFirst n a xs

/-- A completion of a BAR2 read, poisoned where its line is (R223). -/
def Reply.out (x : Reply) : Out :=
  let (d, bad) := x.answer.getD ([], false)
  if bad then .poisoned x.func d else .data x.func d

/-- A BAR2 read is answered with what its slice holds; its completions go out in address order (R223). -/
def State.replyRead (s : State) (r : PortReq) : State :=
  match r.op with
  | .reply n len =>
    let (out, left) := readyReplies [] (answerFirst n (s.sliceRead r.pc r.a len) s.pcie.replies)
    out.foldl (fun s x => s.reply x.out) { s.takeLines [lineKey r.pc r.a] with pcie := { s.pcie with replies := left } }
  | .read | .fence | .write _ _ _ | .settled _ | .array _ => s

/-- The slice serves a request: its line requests go to the controller with the request's class and priority (R251, R258). A
word with a poison tag from any port but BAR2's is a class U fault of the slice (R243). A FAILED or RETIRED PC serves none
(R14). -/
def State.lakeServe (s : State) (r : PortReq) : State :=
  let s := (s.packAccepted r).replyRead r
  if s.pcGone r.pc then s
  else
    let s := { s with lake := { s.lake with lastPort := assocPut s.lake.lastPort r.pc r.port } }
    let (s, reqs) : State × List DramReq := match r.op with
      | .read => s.lakeRead r.pc r.a r.group r.units
      | .reply _ _ => s.lakeRead r.pc r.a r.group r.units
      | .fence => (s, [])
      | .write bytes poisoned durable => s.lakeWrite r.pc r.a r.group (sectorParts r.a bytes poisoned) durable
      | .settled n =>
        let parts := (linePieces (n + 1) r.a n).map (fun (x : Nat × Nat) =>
          let (d, p) := s.sectorBase r.pc x.1
          (x.1, (d.drop (x.1 % 64)).take x.2, p))
        s.lakeWrite r.pc r.a r.group parts true
      | .array w => (s, [dramReqOf r.pc r.a r.group w w false s.timer])
    let s := reqs.foldl (fun s d => s.submit { d with
      port := r.port, rt := r.rt && !d.write, prio := r.prio, guar := r.guar, aged := r.aged
      posted := r.port == 54 && !r.read && (!d.write || d.durable) }) s
    match r.op with
    | .write _ true _ =>
      if r.port = 54 then s
      else s.report { cls := .u, source := evSliceErr r.pc, cause := causeParity, arg := 5, detail := r.port }
    | _ => s

/-- A Lake quadrant that is off wakes for a request to a PC that is not retired (R17). -/
def State.wakeQuad (s : State) (pc : Nat) : State :=
  let q := pc / 16
  if bitAt (s.get .lakeStatusQuadOn) q || s.lake.waking.contains q || s.get .drcPcStateState pc == 4 then s
  else (({ s with lake := { s.lake with waking := s.lake.waking ++ [q] } }).set .pwrDomState 1 (54 + q)).satInc
    .pwrWakeCount (54 + q)

/-- The quadrant of PC `p` is on, or its PC is retired. -/
def State.quadReady (s : State) (p : Nat) : Bool :=
  bitAt (s.get .lakeStatusQuadOn) (p / 16) || s.get .drcPcStateState p == 4

/-- A request reaches its slice: served, or held while its quadrant wakes (R17, R309). -/
def State.present (s : State) (r : PortReq) : State :=
  if s.quadReady r.pc then s.lakeServe r
  else
    let s := s.wakeQuad r.pc
    ({ s with lake := { s.lake with held := s.lake.held ++ [r] } }).satInc .pwrHeldCount (54 + r.pc / 16)

/-- The fabric arbiter's order among the requests presented at a slice (R262): RT first, then the highest Weir priority, then
rotation after the port served last. -/
def State.fabricKey (s : State) (r : PortReq) : Nat :=
  let last := (assoc s.lake.lastPort r.pc).getD 58
  b2n (!s.portRt r) * 1000 + (7 - r.prio) * 100 + (r.port + 58 - last) % 59

/-- Of the requests held at slice `p`, each port presents its oldest; the one the arbiter picks, or of those to its line the
lowest port's (R231). -/
def State.fabricPick (s : State) (p : Nat) : Option PortReq :=
  let mine := s.lake.held.filter (·.pc == p)
  let heads := (List.range 59).filterMap (fun port => mine.find? (·.port == port))
  let best := heads.foldl (fun (b : Option PortReq) r => match b with
    | none => some r
    | some x => if s.fabricKey r < s.fabricKey x then some r else some x) none
  best.bind (fun x => heads.find? (fun r => r.a / 128 == x.a / 128))

/-- The requests held at slice `p` are served one by one; `fuel` bounds their number. -/
def State.serveSlice (p : Nat) : Nat → State → State
  | 0, s => s
  | fuel + 1, s =>
    match s.fabricPick p with
    | none => s
    | some r => State.serveSlice p fuel ({ s with lake := { s.lake with held := s.lake.held.erase r } }.lakeServe r)

/-! ### Accesses of masters through their ports (R16, R18) -/

/-- What a write that has not reached its slice yet changes of the sector at `a`. -/
def PortReq.over (r : PortReq) (pc a : Nat) (x : List Byte × Bool) : List Byte × Bool :=
  match r.op with
  | .write bytes poisoned _ =>
    let base := a / 64 * 64
    if r.pc == pc && overlaps r.a bytes.length base 64 then
      let cut := (bytes.drop (base - r.a)).take (64 - (r.a - base))
      (mergeBytes x.1 (r.a - base) cut, poisoned || (x.2 && cut.length != 64))
    else x
  | .read | .reply _ _ | .fence | .settled _ | .array _ => x

/-- Every request that has not reached its slice, oldest first. -/
def State.inFlight (s : State) : List PortReq :=
  s.lake.held ++ s.weirs.queue ++ (s.packs.map (·.held)).flatten

/-- The sector with every write that was issued before (R16; log entry 15). -/
def State.sectorNow (s : State) (pc a : Nat) : List Byte × Bool :=
  if s.pcGone pc then s.lineBelow pc a
  else s.inFlight.foldl (fun x r => r.over pc a x) (s.sectorBase pc a)

/-- A request takes its place at its port (R250); a word of a packet that no credit is there for, or that stands behind a
flush, waits with its producer (R242, R245). -/
def State.portSend (s : State) (r : PortReq) : State :=
  match r.packet with
  | none => { s with weirs := { s.weirs with queue := s.weirs.queue ++ [r] } }
  | some _ =>
    let x := s.pack r.port
    (s.setPack { x with held := x.held ++ [r] }).packPump r.port

/-- Bytes of one Lake line read by a master, and whether any of it is poisoned. -/
def State.masterRead (s : State) (port group pc a n : Nat) (rt : Bool) : State × List Byte × Bool :=
  let base := a / 64 * 64
  let (d, p) := s.sectorNow pc a
  let (d', p') := if unitsOf a n = 2 then s.sectorNow pc (base + 64) else ([], false)
  let keys := [lineKey pc a] ++ (if unitsOf a n = 2 then [lineKey pc (base + 64)] else [])
  let s := s.takeLines keys
  (s.portSend { port, group, rt, units := unitsOf a n, pc, a, op := .read }, ((d ++ d').drop (a % 64)).take n, p || p')

/-- Bytes of one Lake line written by a master. -/
def State.masterWrite (s : State) (port group pc a : Nat) (bytes : List Byte) (poisoned durable : Bool)
    (packet : Option Nat := none) : State :=
  s.portSend { port, group, rt := false, units := unitsOf a bytes.length, pc, a, op := .write bytes poisoned durable, packet }

/-- A byte range of a basin read by a master: the bytes, and whether any line of it is poisoned. -/
def State.basinRead (s : State) (port group b off n : Nat) (rt : Bool := false) : State × List Byte × Bool :=
  (wordPieces (n + 1) off n).foldl (fun (acc : State × List Byte × Bool) (pc : Nat × Nat) =>
    let (s, bs, bad) := acc
    let (p, a) := s.locate b pc.1
    let (s, d, x) := s.masterRead port group p a pc.2 rt
    (s, bs ++ d, bad || x)) (s, [], false)

/-- A byte range of a basin written by a master, one request for each Lake line; as words of a packet where it is one
(R241). -/
def State.basinWrite (s : State) (port group b off : Nat) (bytes : List Byte) (poisoned : Bool := false)
    (durable : Bool := true) (packet : Option Nat := none) : State :=
  ((wordPieces (bytes.length + 1) off bytes.length).foldl (fun (acc : State × List Byte) (pc : Nat × Nat) =>
    let (s, rest) := acc
    let (p, a) := s.locate b pc.1
    (s.masterWrite port group p a (rest.take pc.2) poisoned durable packet, rest.drop pc.2)) (s, bytes)).1

/-! ### Durability points (R84, R118) -/

/-- The same request once its data stands in the array. -/
def PortReq.settle (pc a : Nat) (r : PortReq) : PortReq :=
  match r.op with
  | .write bytes _ _ => if r.pc == pc && r.a / 128 == a / 128 then { r with op := .settled bytes.length } else r
  | .read | .reply _ _ | .fence | .settled _ | .array _ => r

/-- The sector as every write issued before leaves it is in the array; the slice's copy is VALID and clean. -/
def State.settleSector (s : State) (pc a : Nat) : State :=
  let pend := s.inFlight.any (fun r => r.over pc a ([], false) ≠ ([], false))
  let dirty := match s.lakeFind pc a with
    | some l => (l.sector (lakeSector a)).dirty
    | none => false
  if !pend && !dirty && !s.buffered pc a then s
  else
    let (d, p) := s.sectorNow pc a
    let s := ((s.arrayWrite pc a d p).wbDrop pc a).count 0x0C 2 pc
    match s.lakeFind pc a with
    | none => s
    | some l =>
      if (l.sector (lakeSector a)).valid then
        let s := if p && !(l.sector (lakeSector a)).poison then s.satInc .lakePoisonSetCount else s
        s.lakePut (l.setSector (lakeSector a) { valid := true, dirty := false, poison := p, data := d })
      else s

/-- Every write issued to the Lake line of `a` is in the array (R84: the write-back is not deferred). Requests that have not
reached the slice keep their place at their ports. -/
def State.settleLine (s : State) (pc a : Nat) : State :=
  if s.pcGone pc then s
  else
    let base := a / 128 * 128
    let s := (s.settleSector pc base).settleSector pc (base + 64)
    { s with
      lake := { s.lake with held := s.lake.held.map (PortReq.settle pc a) }
      weirs := { s.weirs with queue := s.weirs.queue.map (PortReq.settle pc a) }
      packs := s.packs.map (fun x => { x with held := x.held.map (PortReq.settle pc a) }) }

/-- Every write issued to a byte range of a basin is in the array. -/
def State.settleRange (s : State) (b off n : Nat) : State :=
  (wordPieces (n + 1) off n).foldl (fun s pc =>
    let (p, a) := s.locate b pc.1
    s.settleLine p a) s

end Sys2Proof.Machine
end

