-- ==== Sys2Proof/Machine/OnChip.lean ====
section
/-! DEFINITION. The on-chip blocks (10_onchip.md): event ring pops, the start of a Lake flush, Eddy windows. -/

namespace Sys2Proof.Machine

/-! ### Event rings (R246, R249) -/

/-- The four words of an entry (R247). -/
def EventEntry.words (e : EventEntry) : List Nat :=
  [1 + 2 ^ 8 * e.func + 2 ^ 16 * e.event, e.arg, e.time % 2 ^ 32, e.time / 2 ^ 32]

/-- A read of EVT_POP0_r (R246): the oldest entry is removed, its words latched, word 0 being the one returned; an empty
ring gives the idle entry. -/
def State.popEvent (s : State) (r : Nat) : State :=
  let ws := match (s.ringEntries r).head? with
    | none => [0, 0, 0, 0]
    | some e => e.words
  let entries := s.events.entries.eraseP (·.ring == r)
  let empty := !(entries.any (·.ring == r))
  let s := { s with events := { s.events with
    entries
    lostMark := if empty then s.events.lostMark.filter (· ≠ r) else s.events.lostMark } }
  (((s.set .evtPop0Word0 (ws.getD 0 0) r).set .evtPop1Word1 (ws.getD 1 0) r).set .evtPop2Word2 (ws.getD 2 0) r).set
    .evtPop3Word3 (ws.getD 3 0) r

/-- EVT_POP0_READ (R246). -/
def execEvtPop0Read (ring : Nat) (s : State) : Host.Outcome State Fault Refusal :=
  whenWf "EVT_POP0_READ" (Instr.wf (.evtPop0Read ring)) 
    (s.blockRead 0x16 0 (fun s =>
      let s := s.popEvent ring
      s.reply32 0 (s.get .evtPop0Word0 ring)))

/-! ### Lake flush (R233) -/

/-- A flush starts, unless one runs: the sectors that are DIRTY now are written back (R233). The device starts the same flush
itself at a thermal shutdown, at PERST# with STACK_RETAIN and at entry to D3hot. -/
def State.startFlush (s : State) : State :=
  if s.flag .lakeStatusFlushing then s else (s.lakeFlush (fun _ => true)).set .lakeStatusFlushing 1

/-- FLUSH (R233). -/
def execFlush (s : State) : Host.Outcome State Fault Refusal := .next (s.blockWrite 0x0C 0 State.startFlush)

/-! ### Eddy windows (R236 to R238) -/

def State.eddy (s : State) (e w : Nat) : Eddy := (assoc s.eddies (4 * e + w)).getD {}

def State.setEddy (s : State) (e w : Nat) (x : Eddy) : State := { s with eddies := assocPut s.eddies (4 * e + w) x }

/-- Fill of a window (R236). -/
def Eddy.fill (x : Eddy) : Nat := if x.hwrap == x.twrap then x.tail - x.head else x.len + x.tail - x.head

/-- Do two windows overlap in scratch? -/
def Eddy.meets (x y : Eddy) : Bool := overlaps x.base x.len y.base y.len

/-- BASE and LEN as their fields take them: bits 18:6 and 19:6 of what is written, in 64-byte units (R236). -/
def eddyBase (v : Nat) : Nat := v % 524288 / 64 * 64

def eddyLen (v : Nat) : Nat := v % 1048576 / 64 * 64

/-- Byte of scratch at position `p` of window `x` of engine `e`: BASE + (p mod LEN) (R237); a window that passes the end of
scratch goes on at its start (log 25). -/
def scratchAt (e : Nat) (x : Eddy) (p : Nat) : Nat := e * 524288 + (x.base + p % x.len) % 524288

/-- Scratch bytes of a window access of `n` bytes that starts at window position `p`: offset order, wrapping at LEN
(R237). -/
def State.scratchRead (s : State) (e : Nat) (x : Eddy) (p n : Nat) : List Byte :=
  (List.range n).map (fun i => Mem.read 0 s.scratch (scratchAt e x (p + i)))

def State.scratchWriteGo (s : State) (e : Nat) (x : Eddy) (p : Nat) : List Byte → State
  | [] => s
  | b :: bs =>
    State.scratchWriteGo { s with scratch := Mem.write 0 s.scratch (scratchAt e x p) b } e x (p + 1) bs

/-- A pointer advanced by `n` modulo LEN, its wrap bit toggled when it passes LEN (R237). -/
def advance (p : Nat) (wrap : Bool) (n len : Nat) : Nat × Bool :=
  if len ≤ p + n then (p + n - len, !wrap) else (p + n, wrap)

end Sys2Proof.Machine
end

