-- ==== Sys2Proof/Machine/Weirs.lean ====
section
/-! DEFINITION. The Weirs (11_weirs.md): buckets, release, priority, latency, age, admission, scaling and the clamp. -/

namespace Sys2Proof.Machine

/-! ### Buckets and release (R252, R255, R256, R258, R261) -/

def State.portBucket (s : State) (p : Nat) : Int := (assoc s.weirs.bucket p).getD 0

def State.setPortBucket (s : State) (p : Nat) (v : Int) : State :=
  { s with weirs := { s.weirs with bucket := assocPut s.weirs.bucket p v } }

def State.grpBucket (s : State) (g : Nat) : Nat := (assoc s.weirs.grpBucket g).getD 0

def State.setGrpBucket (s : State) (g v : Nat) : State :=
  { s with weirs := { s.weirs with grpBucket := assocPut s.weirs.grpBucket g v } }

/-- A zero-length BAR2 read waits while a posted write of its function is not accepted by its slice (R223). -/
def State.fenced (s : State) (r : PortReq) : Bool :=
  decide (r.op = .fence) && s.lake.held.any (fun x => x.port == 54 && x.group == r.group && !x.read)

/-- The request of a port that leaves it next: its oldest RT one, else its oldest one (R270: nothing that regulation holds adds
time to an RT request). The posted writes that an RT read must not pass are RT with it (R252). -/
def State.portHead (s : State) (p : Nat) : Option PortReq :=
  let mine := s.weirs.queue.filter (fun r => r.port == p && !s.fenced r)
  (mine.find? s.portRt).or mine.head?

/-- A BAR2 write of a function ahead of its RT read takes RT class (R252). -/
def State.inheritsRt (s : State) (r : PortReq) : Bool := !r.rt && s.portRt r

/-- Is it a request of the scheduled round while that round lies behind (R261, R288)? -/
def State.behind (s : State) (r : PortReq) : Bool := r.sched && s.flag .integStatusBehind

/-- A request of a round behind schedule with SYS not admitted: never held (R261). -/
def State.unheld (s : State) (r : PortReq) : Bool := s.behind r && !s.flag .weirGrpCfgAdmitted 64

/-- Is the request held at its port for lack of a port token (R255, R261)? -/
def State.heldForToken (s : State) (r : PortReq) : Bool :=
  !r.rt && !s.inheritsRt r && !s.unheld r && s.portBucket r.port < 256

/-- One tick (R255, R256): every port bucket and every admitted group's bucket is refilled; held heads are counted. -/
def State.weirTick (s : State) : State :=
  let s := (List.range 59).foldl (fun s p =>
    let s := s.setPortBucket p (min (s.portBucket p + s.get .weirPortEffEff p) (s.get .weirPortBurstBurst p * 256))
    match s.portHead p with
    | some r => if s.heldForToken r then (s.satInc .weirPortHeldCount p).count 0x0D 1 p else s
    | none => s) s
  (List.range 65).foldl (fun s g =>
    if s.flag .weirGrpCfgAdmitted g then
      let e := s.get .weirGrpEffGEff g
      s.setGrpBucket g (min (s.grpBucket g + e) (max (e * 256 / 160) 512))
    else s) s

def execWeirTick (s : State) : Host.Outcome State Fault Refusal := .next s.weirTick

/-- GUARANTEED priority of a group for this window (R258). -/
def State.grpPrio (s : State) (g : Nat) : Nat :=
  if s.get .weirGrpLatLatTarget g = 0 then s.get .weirGrpCfgPrioBase g else s.get .weirGrpLatavgPrio g

/-- What the request draws on a group's bucket (R256, R261): nothing for RT and for a round that is not behind. -/
def State.drawsGroup (s : State) (r : PortReq) : Bool :=
  !r.rt && !s.inheritsRt r && s.flag .weirGrpCfgAdmitted r.group && (!r.round || s.behind r)

/-- A request leaves its port (R255, R256, R258, R261): tokens are spent, units counted; the request with the class and
priority it leaves with. -/
def State.leavePort (s : State) (r : PortReq) : State × PortReq :=
  let rt := r.rt || s.inheritsRt r
  let draws := s.drawsGroup r
  let free := rt || s.unheld r
  let unheld := s.unheld r
  let s := { s with weirs := { s.weirs with queue := s.weirs.queue.erase r } }
  let s := if free then s else s.setPortBucket r.port (s.portBucket r.port - 256 * r.units)
  let s := (s.wrapInc .weirPortLinesCount r.port 0 r.units).count 0x0D 0 r.port r.units
  let s := { s with counters := { s.counters with
    bwLines := sparsePut s.counters.bwLines r.port (s.bwUnits r.port + r.units) } }
  let guar := draws && 256 * r.units ≤ s.grpBucket r.group
  let s := if guar then
      (s.setGrpBucket r.group (s.grpBucket r.group - 256 * r.units)).count 0x0D 2 r.group r.units
    else if draws then (s.satInc .weirGrpSpillCount r.group).count 0x0D 3 r.group
    else s
  (s, { r with guar, prio := if guar then s.grpPrio r.group else if unheld then 4 else 0, aged := unheld })

/-- Line reads of port `p` that have left it and are not answered yet. -/
def State.readsOut (s : State) (p : Nat) : Nat :=
  let reads (l : List DramReq) : Nat := (l.filter (fun r => r.port == p && !r.write)).length
  reads s.dram.queue + reads s.dram.waiting + reads s.dram.held
    + ((s.lake.held.filter (fun r => r.port == p && r.read)).map (·.units)).foldl (· + ·) 0

/-- Does a read of an engine wait because 64 of its line reads are out (R101)? -/
def State.portClosed (s : State) (r : PortReq) : Bool := r.port < 48 && r.read && 64 < s.readsOut r.port + r.units

/-- The head of port `p` leaves for its slice, unless it waits for a port token (R255) or for its engine's reads (R101). A
zero-length BAR2 read is answered with one DW of 0 (R223). -/
def State.weirRelease (s : State) (p : Nat) : State :=
  match s.portHead p with
  | none => s
  | some r =>
    if r.op = .fence then { s with weirs := { s.weirs with queue := s.weirs.queue.erase r } }.reply (.data r.group (zeros 4))
    else if s.heldForToken r || s.portClosed r then s
    else
      let (s, r) := s.leavePort r
      s.present r

/-- WEIR_RELEASE (R255). -/
def execWeirRelease (port : Nat) (s : State) : Host.Outcome State Fault Refusal :=
  whenWf "WEIR_RELEASE" (Instr.wf (.weirRelease port)) (s.weirRelease port)

/-! ### Latency and age (R259, R260) -/

/-- AVG with 8 fractional bits. -/
def State.avg256 (s : State) (g : Nat) : Nat := (assoc s.weirs.avg g).getD 0

/-- One latency sample: AVG ← AVG + (sample − AVG)/256 (R259). -/
def State.latencySample (s : State) (g sample : Nat) : State :=
  let a := s.avg256 g
  let a' := ((a : Int) + (sample * 256 - a) / 256).toNat
  let s := { s with weirs := { s.weirs with avg := assocPut s.weirs.avg g a' } }
  ((s.set .weirGrpLatavgAvg (min 65535 (a' / 256)) g).count 0x0D 5 g sample).count 0x0D 6 g

/-- LATENCY_SAMPLE (R259). -/
def execLatencySample (group sample : Nat) (s : State) : Host.Outcome State Fault Refusal :=
  whenWf "LATENCY_SAMPLE" (Instr.wf (.latencySample group sample)) (s.latencySample group sample)

/-- A list of requests with the `k`-th of PC `p` promoted, if it is BEST_EFFORT and was not promoted before, and the group
of the promoted request (R260). -/
def promoteNth (p : Nat) : List DramReq → Nat → List DramReq × Option Nat
  | [], _ => ([], none)
  | r :: rs, k =>
    if r.pc ≠ p then (r :: (promoteNth p rs k).1, (promoteNth p rs k).2)
    else match k with
      | 0 =>
        if !r.rt && !r.guar && r.prio == 0 && !r.aged then ({ r with prio := 4, aged := true } :: rs, some r.group)
        else (r :: rs, none)
      | k + 1 => (r :: (promoteNth p rs k).1, (promoteNth p rs k).2)

/-- The same in fabric arbitration, for the requests held at PC `p`'s slice. -/
def promoteHeld (p : Nat) : List PortReq → Nat → List PortReq × Option Nat
  | [], _ => ([], none)
  | r :: rs, k =>
    if r.pc ≠ p then (r :: (promoteHeld p rs k).1, (promoteHeld p rs k).2)
    else match k with
      | 0 =>
        if !r.rt && !r.guar && r.prio == 0 && !r.aged then ({ r with prio := 4, aged := true } :: rs, some r.group)
        else (r :: rs, none)
      | k + 1 => (r :: (promoteHeld p rs k).1, (promoteHeld p rs k).2)

/-- One promotion, counted (R260). -/
def State.countAged (s : State) (g : Nat) : State := (s.wrapInc .weirGrpAgedCount g).count 0x0D 4 g

/-- The `index`-th request of PC `p`, counted over those in its queue, those that wait in their slice, those held at the
controller and those held at the slice for its quadrant, is promoted to priority 4 where it stands (R260). -/
def State.agePromote (s : State) (p index : Nat) : State :=
  let d := s.dram
  let all := d.queue ++ d.waiting ++ d.held
  let n := (all.filter (·.pc == p)).length
  if index < n then
    let r := promoteNth p all index
    match r.2 with
    | none => s
    | some g =>
      let rest := r.1.drop d.queue.length
      ({ s with dram := { d with
          queue := r.1.take d.queue.length
          waiting := rest.take d.waiting.length
          held := rest.drop d.waiting.length } }).countAged g
  else
    let r := promoteHeld p s.lake.held (index - n)
    match r.2 with
    | none => s
    | some g => ({ s with lake := { s.lake with held := r.1 } }).countAged g

/-- AGE_PROMOTE (R260). -/
def execAgePromote (p index : Nat) (s : State) : Host.Outcome State Fault Refusal :=
  whenWf "AGE_PROMOTE" (Instr.wf (.agePromote p index)) (s.agePromote p index)

/-! ### The window boundary (R264 to R269) -/

/-- Live PCs: neither RETIRED nor FAILED (R264). -/
def State.livePcs (s : State) : List Nat := rangeWith 64 (fun p => !s.pcGone p)

/-- D_NOM in Weir units (R264): 29.0 GB/s per live PC. -/
def State.dNom (s : State) : Nat := s.livePcs.length * 7250

/-- D_NOW in Weir units (R264): TF in sixteenths times the sum over live PCs of 30.0 GB/s less the refresh overhead. -/
def State.dNow (s : State) (tf : Nat) : Nat :=
  (s.livePcs.map (fun p => if s.flag .drcPcStateRef2x p then 7000 else 7250)).foldl (· + ·) 0 * tf / 16

/-- Sum of admitted G_RATE values. -/
def State.gSum (s : State) : Nat :=
  ((rangeWith 65 (fun g => s.flag .weirGrpCfgAdmitted g)).map (s.eff .weirGrpRateGRate ·)).foldl (· + ·) 0

/-- A group's demoted mark: its bit, or SYS_DEMOTED for SYS. -/
def State.setDemoted (s : State) (g : Nat) (v : Bool) : State :=
  if g < 64 then s.setMaskBit .weirDemotedLoMask .weirDemotedHiMask g v else s.set .weirStatusSysDemoted (b2n v)

/-- SYS first, then groups 0 to 63 (R265). -/
def groupOrder : List Nat := 64 :: List.range 64

/-- One group's admission against D_NOM (R265, R266); answers whether it was demoted. -/
def State.admitGroup (s : State) (g : Nat) : State × Bool :=
  let s := (s.applyB .weirGrpCfgGuar g).applyB .weirGrpRateGRate g
  let s := (s.set .weirGrpCfgAdmitted 0 g).set .weirGrpEffGEff 0 g
  let rate := s.get .weirGrpRateGRate g
  if !s.flag .weirGrpCfgGuar g || rate = 0 then (s.setDemoted g false, false)
  else if s.gSum + rate ≤ s.get .weirDnomD then ((s.set .weirGrpCfgAdmitted 1 g).setDemoted g false, false)
  else ((s.setDemoted g true).set .weirStatusAdmitDemoted 1, true)

/-- Admission at a configuration load (R265): every group in order; one event for all that were demoted. -/
def State.admitAll (s : State) : State :=
  let s := { s with weirs := { s.weirs with pendAdmit := [] } }
  let s := groupOrder.foldl (fun s g => s.set .weirGrpCfgAdmitted 0 g) s
  let (s, n) := groupOrder.foldl (fun (acc : State × Nat) g =>
    let (s, d) := acc.1.admitGroup g
    (s, acc.2 + b2n d)) (s, 0)
  let s := s.set .weirGsumSum s.gSum
  if n = 0 then s else s.raise evWeirAdmitDemote 0xFF n

/-- Pending admission writes, in the order of R265 (R266). -/
def State.admitPending (s : State) : State :=
  let gs := groupOrder.filter s.weirs.pendAdmit.contains
  let s := { s with weirs := { s.weirs with pendAdmit := [] } }
  gs.foldl (fun s g =>
    let (s, d) := s.admitGroup g
    let s := s.set .weirGsumSum s.gSum
    if d then s.raise evWeirAdmitDemote 0xFF 1 else s) s

/-- Scaling (R267). -/
def State.weirScale (s : State) : State :=
  let gsum := s.gSum
  let now := s.get .weirDnowD
  let scale := if gsum ≤ now then 1024 else 1024 * now / gsum
  let was := s.get .weirScaleScale
  let s := (s.set .weirScaleScale scale).set .weirStatusGuarScaled (b2n (scale < 1024))
  let s := s.set .weirGsumSum gsum
  let s := (List.range 65).foldl (fun s g =>
    s.set .weirGrpEffGEff (if s.flag .weirGrpCfgAdmitted g then s.get .weirGrpRateGRate g * scale / 1024 else 0) g) s
  if scale < 1024 && was == 1024 then (s.wrapInc .weirScaleEventsCount).raise evWeirGuarScaled 0xFF scale
  else if scale == 1024 && was < 1024 then s.raise evWeirGuarRestored
  else s

/-- Latency steps for the coming window (R259). -/
def State.latencySteps (s : State) (g : Nat) : State :=
  let t := s.get .weirGrpLatLatTarget g
  let base := s.get .weirGrpCfgPrioBase g
  if t = 0 then s.set .weirGrpLatavgPrio base g
  else
    let a := s.avg256 g
    let steps := ([4, 5, 6, 7, 8].filter (fun c => c * t * 256 ≤ a * 8)).length
    let s := s.set .weirGrpLatavgPrio (min 7 (base + steps)) g
    if t * 256 ≤ a then s.satInc .weirGrpMissCount g else s

/-- Ports that the clamp acts on (R268). -/
def clampPort (p : Nat) : Bool := p < 54 || p == 55

/-- Port EFF from pending RATE writes and the clamp (R268, R269). -/
def State.portEff (s : State) (clamp : Option Nat) (p : Nat) : State :=
  let s := s.applyB .weirPortRateRate p
  let on := clamp.isSome && clampPort p
  let rate := s.get .weirPortRateRate p
  (s.set .weirPortEffEff (if on then rate * clamp.getD 16 / 16 else rate) p).set .weirPortEffClamped (b2n on) p

/-- The fixed order of R269; `clamp` is the throttle fraction in sixteenths while the clamp of R268 is in force. -/
def State.weirBoundary (s : State) (clamp : Option Nat) : State :=
  let tf := clamp.getD 16
  let s := (s.set .weirDnomD s.dNom).set .weirDnowD (s.dNow tf)
  let s := s.set .weirStatusClamp (b2n clamp.isSome)
  let s := s.admitPending.weirScale
  let s := (List.range 65).foldl State.latencySteps s
  (List.range 59).foldl (fun s p => s.portEff clamp p) s

end Sys2Proof.Machine
end

