-- ==== Sys2Proof/Machine/Controllers.lean ====
section
/-! DEFINITION. The DRAM controllers' commands (09_stack_memory.md): arbitration, refresh, targeted refresh, self-refresh;
quadrant wakes, the acknowledgement of durable writes and the end of a flush (10_onchip.md, R17); basins (R212, R213); a
failed forwarded clock (R14). -/

namespace Sys2Proof.Machine

/-! ### Banks and arbitration (R214, R215, R218, R219) -/

def State.bank (s : State) (p b : Nat) : Bank := (assoc s.dram.banks (p * 32 + b)).getD {}

def State.setBank (s : State) (p b : Nat) (x : Bank) : State :=
  { s with dram := { s.dram with banks := assocPut s.dram.banks (p * 32 + b) x } }

/-- URGENT of PC `p`: some bank is urgent. -/
def State.showUrgent (s : State) (p : Nat) : State :=
  s.set .drcPcStateUrgent (b2n ((List.range 32).any (fun b => (s.bank p b).urgent))) p

/-- One REFpb (R218): the debt falls, the row is closed; an urgent bank with d ≤ 4 is urgent no more. -/
def State.refpb (s : State) (p b : Nat) : State :=
  let x := s.bank p b
  let d := x.debt - 1
  let s := s.setBank p b { x with debt := d, openRow := none, hits := 0, urgent := x.urgent && 4 < d }
  (((s.wrapInc .drcPcRefsCount p).count 0x0E 2 p).activity (p / 4 + 2) 3).showUrgent p

/-- The tracker after an activate of `row`: its count rises; a new row takes a free entry of the eight, else replaces the
lowest count and goes on from it (DESIGN CHOICE, log entry 14). -/
def trackerAdd (t : List (Nat × Nat)) (row : Nat) : List (Nat × Nat) :=
  if t.any (·.1 == row) then t.map (fun e => if e.1 == row then (row, e.2 + 1) else e)
  else if t.length < 8 then t ++ [(row, 1)]
  else
    let low := (t.map (·.2)).foldl min (t.headD (0, 0)).2
    t.eraseP (·.2 == low) ++ [(row, low + 1)]

/-- The most activated row of a tracker. -/
def trackerTop (t : List (Nat × Nat)) : Option Nat :=
  let m := (t.map (·.2)).foldl max 0
  (t.find? (·.2 == m)).map (·.1)

/-- A targeted refresh of the bank (R219): the entry of its most activated row is cleared, the count starts anew. -/
def State.targetedRefresh (s : State) (p b : Nat) : State :=
  let x := s.bank p b
  let t := match trackerTop x.tracker with
    | none => x.tracker
    | some row => x.tracker.filter (·.1 ≠ row)
  (((s.setBank p b { x with acts := 0, tracker := t, openRow := none, hits := 0 }).wrapInc .drcPcRfmCount p).count 0x0E 5 p).activity
    (p / 4 + 2) 4

/-- Has the request been queued longer than AGE_CAP (R215, rule 3)? -/
def State.overAge (s : State) (r : DramReq) : Bool := s.get .drcCtrlAgeCap * 25 < s.timer - r.arrival

/-- May the request be issued now: writes while writes drain, reads otherwise; while writes drain, only reads that rules 2
and 3 select (R214)? -/
def State.issuable (s : State) (r : DramReq) : Bool :=
  if s.dram.draining.contains r.pc then r.write || s.effRt r || s.overAge r else !r.write

/-- The rules 2 to 6 of R215 as an order: the smaller list goes first. -/
def State.arbKey (s : State) (r : DramReq) : List Nat :=
  let old := s.overAge r
  [ b2n (!s.effRt r), b2n (!old), if old then r.arrival else 0, b2n (r.prio < 4),
    b2n ((s.bank r.pc r.bank).openRow ≠ some r.row), r.arrival ]

/-- Lexicographic order of equally long keys. -/
def keyLt : List Nat → List Nat → Bool
  | a :: as, b :: bs => a < b || (a == b && keyLt as bs)
  | _, _ => false

/-- The request R215 picks for the bank; the earlier queued one where nothing separates two. -/
def State.pick (s : State) (p b : Nat) : Option DramReq :=
  ((s.pcQueue p).filter (fun r => r.bank == b && s.issuable r)).foldl (fun (best : Option DramReq) r =>
    match best with
    | none => some r
    | some x => if keyLt (s.arbKey r) (s.arbKey x) then some r else some x) none

/-- What a write that reaches the array leaves there: a durable write's sector (R230), or an eviction's or a flush's (R231,
R233). -/
def State.lineWritten (s : State) (r : DramReq) : State :=
  if !r.write then s else if r.durable then s.sectorToArray r.pc r.addr else s.wbDone r.pc r.addr

/-- The request's command is issued: a column command to the open row, or an activate first (R215); the row is then closed
when no queued request hits it, or after 16 hits in a row while another row of the bank waits. -/
def State.issueReq (s : State) (r : DramReq) : State :=
  let x := s.bank r.pc r.bank
  let hit := x.openRow == some r.row
  let byAge := !s.effRt r && s.overAge r
  let s := { (s.lineWritten r) with dram := { s.dram with queue := s.dram.queue.erase r } }
  let s := if hit then (s.wrapInc .drcPcRowhitCount r.pc).count 0x0E 0 r.pc
    else ((s.wrapInc .drcPcRowmissCount r.pc).count 0x0E 1 r.pc).activity (r.pc / 4 + 2) 0
  let s := s.activity (r.pc / 4 + 2) (if r.write then 2 else 1)
  let s := if byAge then s.wrapInc .drcPcAgedCount r.pc else s
  let hits := if hit then x.hits + 1 else 0
  let rest := (s.pcQueue r.pc).filter (·.bank == r.bank)
  let close := !(rest.any (·.row == r.row)) || (16 ≤ hits && rest.any (·.row ≠ r.row))
  let x := { x with
    openRow := if close then none else some r.row
    hits := if close then 0 else hits
    acts := if hit then x.acts else x.acts + 1
    tracker := if hit then x.tracker else trackerAdd x.tracker r.row }
  (((s.setBank r.pc r.bank x).updateDrain r.pc).admitWaiting).updateDrain r.pc

/-- A bank is free to take a command (R215, R219): urgent refresh, RT requests, a due targeted refresh, then rules 3 to 6. -/
def State.arbitrate (s : State) (p b : Nat) : State :=
  if s.get .drcPcStateState p ≠ 0 || s.laneHold p then s
  else
    let s := s.updateDrain p
    let x := s.bank p b
    if x.urgent then s.refpb p b
    else
      let next := s.pick p b
      let rt := (next.map s.effRt).getD false
      if !rt && s.get .drcRfmRfmTh ≤ x.acts then s.targetedRefresh p b
      else match next with
        | none => s
        | some r => s.issueReq r

/-- CONTROLLER_ARBITRATE (R215). -/
def execControllerArbitrate (p bank : Nat) (s : State) : Host.Outcome State Fault Refusal :=
  whenWf "CONTROLLER_ARBITRATE" (Instr.wf (.controllerArbitrate p bank)) (s.arbitrate p bank)

/-! ### Refresh (R217 to R219) -/

/-- The temperature that governs die `n`'s refresh, in 0.125 °C (R217, R295): its refresh sensor's, or the layer's governing
value where that sensor has failed; the higher of model and sensor while the layer is SUSPECT. -/
def State.dieTemp (s : State) (n : Nat) : Int :=
  if s.flag .thmRefsFailed n then sint16 (s.get .thmLayerGGov (n + 2))
  else
    let t := sint16 (s.get .thmRefsTemp n)
    if s.flag .thmLayerGSuspect (n + 2) then max t (sint16 (s.get .thmLayerTModel (n + 2))) else t

/-- Does the die of PC `p` refresh at the doubled rate (R217; R359, R367: REF_MODE, or no valid trims)? -/
def State.wants2x (s : State) (p : Nat) : Bool :=
  let t := s.dieTemp (p / 4)
  s.flag .drcCtrlRefForce2x || s.flag .otpTrimRefConservative || t > 680 || (t > 656 && s.flag .drcPcStateRef2x p)

/-- The rate of a die takes effect at its next due time, for both its channels together (R217). -/
def State.applyRate (s : State) (p : Nat) : State :=
  let want := s.wants2x p
  let s := s.applyB .drcCtrlRefForce2x
  (List.range 4).foldl (fun s k =>
    let q := p / 4 * 4 + k
    (s.set .drcPcStateRef2x (b2n want) q).setMaskBit .drcRef2xLoMask .drcRef2xHiMask q want) s

/-- A bank's refresh is due (R218). A channel in self-refresh refreshes itself, at the rate its own temperature gives (R217,
R221). -/
def State.refreshDue (s : State) (p b : Nat) : State :=
  if s.pcGone p then s
  else if s.get .drcPcStateState p ≠ 0 then s.applyRate p
  else
    let s := s.applyRate p
    let x := s.bank p b
    let d := x.debt + 1
    let s := s.setBank p b { x with debt := d }
    if !((s.pcQueue p).any (·.bank == b)) && !s.laneHold p then s.refpb p b
    else
      let s := s.raiseMax .drcPcPpmaxMax d.toNat p
      if d < 9 || x.urgent then s
      else
        let s := ((s.setBank p b { x with debt := d, urgent := true }).satInc .drcPcUrgentCount p).showUrgent p
        match s.dram.urgentAt with
        | some t => if s.timer < t + 100000000 then s
                    else ({ s with dram := { s.dram with urgentAt := some s.timer } }).raise evDrcRefUrgent 0xFF p
        | none => ({ s with dram := { s.dram with urgentAt := some s.timer } }).raise evDrcRefUrgent 0xFF p

/-- REFRESH_DUE (R218). -/
def execRefreshDue (p bank : Nat) (s : State) : Host.Outcome State Fault Refusal :=
  whenWf "REFRESH_DUE" (Instr.wf (.refreshDue p bank)) (s.refreshDue p bank)

/-- The end of a refresh window (R219): activate counts and trackers clear. -/
def State.trefwEnd (s : State) (p : Nat) : State :=
  { s with dram := { s.dram with
      banks := s.dram.banks.map (fun e => if e.1 / 32 == p then (e.1, { e.2 with acts := 0, tracker := [] }) else e) } }

/-- TREFW_END (R219). -/
def execTrefwEnd (p : Nat) (s : State) : Host.Outcome State Fault Refusal :=
  whenWf "TREFW_END" (Instr.wf (.trefwEnd p)) (s.trefwEnd p)

/-! ### Self-refresh (R17, R221, R222) -/

def State.setChannel (s : State) (c st : Nat) : State :=
  (s.channelPcs c).foldl (fun s p => s.set .drcPcStateState st p) s

def State.channelIs (s : State) (c st : Nat) : Bool :=
  !(s.channelPcs c).isEmpty && (s.channelPcs c).all (fun p => s.get .drcPcStateState p == st)

/-- Every write queued, waiting or held for the PCs that `on` names, and that `which` names, is issued now. -/
def State.drainWrites (s : State) (on : Nat → Bool) (which : DramReq → Bool) : State :=
  let mine (r : DramReq) : Bool := r.write && on r.pc && which r
  let d := s.dram
  let go := d.queue.filter mine ++ d.waiting.filter mine ++ d.held.filter mine
  let s := { s with dram := { d with
    waiting := d.waiting.filter (fun r => !mine r), held := d.held.filter (fun r => !mine r) } }
  go.foldl State.issueReq s

/-- A channel starts self-refresh entry: its dirty Lake sectors drain first, with its queued writes (R222, R230). -/
def State.srEnter (s : State) (c : Nat) (cause : SrCause) : State :=
  let s := (s.lakeFlush (fun p => p / 2 == c)).drainWrites (fun p => p / 2 == c) (fun _ => true)
  let s := { s with dram := { s.dram with
    draining := s.dram.draining.filter (fun p => p / 2 ≠ c)
    srCause := assocPut s.dram.srCause c cause, srOver := s.dram.srOver.filter (· ≠ c) } }
  (s.channelPcs c).foldl (fun s p => s.wrapInc .drcPcSrCount p) (s.setChannel c 1)

/-- A channel has been idle for SR_IDLE_US (R221). -/
def State.srIdleExpire (s : State) (c : Nat) : State :=
  if s.flag .drcCtrlSrAuto && s.channelIs c 0 && !(s.dram.queue.any (fun r => r.pc / 2 == c && !r.write)) then
    s.srEnter c .idle
  else s

/-- SR_IDLE_EXPIRE (R221). -/
def execSrIdleExpire (channel : Nat) (s : State) : Host.Outcome State Fault Refusal :=
  whenWf "SR_IDLE_EXPIRE" (Instr.wf (.srIdleExpire channel)) (s.srIdleExpire channel)

/-- A quadrant powers down: flushed before off, its lines are then gone (R17, R308: domains 54 to 57). -/
def State.quadOff (s : State) (q : Nat) : State :=
  let s := s.lakeEmpty (fun p => p / 16 == q)
  let on := s.get .lakeStatusQuadOn
  let s := { s with lake := { s.lake with lines := s.lake.lines.filter (fun l => l.slice / 16 ≠ q) } }
  if bitAt on q then (s.set .lakeStatusQuadOn (on - 2 ^ q)).set .pwrDomState 0 (54 + q) else s

/-- The two cases of R17: all 16 PCs of the quadrant retired, or the whole stack in self-refresh. -/
def State.quadPower (s : State) : State :=
  let stackSr := (List.range 64).all (fun p => s.pcGone p || s.get .drcPcStateState p == 2)
  (List.range 4).foldl (fun s q =>
    let retired := (List.range 16).all (fun k => s.get .drcPcStateState (16 * q + k) == 4)
    if retired || stackSr then s.quadOff q else s) s

/-- Every quadrant powered but one whose 16 PCs are all retired (R248). -/
def State.quadsStart (s : State) : State :=
  (List.range 4).foldl (fun s q =>
    let retired := (List.range 16).all (fun k => s.get .drcPcStateState (16 * q + k) == 4)
    let on := s.get .lakeStatusQuadOn
    if retired then s.quadOff q
    else ((if bitAt on q then s else s.set .lakeStatusQuadOn (on + 2 ^ q))).set .pwrDomState 2 (54 + q)) s

/-- Entry ends and residency begins (R222). -/
def State.srEntryDone (s : State) (c : Nat) : State :=
  if !s.channelIs c 1 then s
  else
    let s := s.setChannel c 2
    ((s.channelPcs c).foldl (fun s p => s.setMaskBit .drcSrLoMask .drcSrHiMask p true) s).quadPower

/-- SR_ENTRY_DONE (R222). -/
def execSrEntryDone (channel : Nat) (s : State) : Host.Outcome State Fault Refusal :=
  whenWf "SR_ENTRY_DONE" (Instr.wf (.srEntryDone channel)) (s.srEntryDone channel)

/-- The minimum residency has ended: with a request held, exit begins, unless a forcing cause still holds; otherwise the next
request starts it (R222). -/
def State.srResidencyEnd (s : State) (c : Nat) : State :=
  if !s.channelIs c 2 then s
  else
    let done := if s.dram.srOver.contains c then s.dram.srOver else s.dram.srOver ++ [c]
    let s := { s with dram := { s.dram with srOver := done } }
    if assoc s.dram.srCause c == some .idle && s.dram.held.any (fun r => r.pc / 2 == c) then s.setChannel c 3 else s

/-- SR_RESIDENCY_END (R222). -/
def execSrResidencyEnd (channel : Nat) (s : State) : Host.Outcome State Fault Refusal :=
  whenWf "SR_RESIDENCY_END" (Instr.wf (.srResidencyEnd channel)) (s.srResidencyEnd channel)

/-- Exit ends (R218, R222): every debt of both PCs is 0, and the held requests proceed in order. -/
def State.srExitDone (s : State) (c : Nat) : State :=
  if !s.channelIs c 3 then s
  else
    let s := s.setChannel c 0
    let s := (s.channelPcs c).foldl (fun s p => s.setMaskBit .drcSrLoMask .drcSrHiMask p false) s
    let s := { s with dram := { s.dram with
      srCause := assocDel s.dram.srCause c
      srOver := s.dram.srOver.filter (· ≠ c)
      banks := s.dram.banks.map (fun (e : Nat × Bank) =>
        if e.1 / 64 == c then (e.1, { e.2 with debt := 0, urgent := false, openRow := none, hits := 0 }) else e) } }
    let s := (s.channelPcs c).foldl State.showUrgent s
    s.releaseHeld (fun p => p / 2 == c)

/-- SR_EXIT_DONE (R222). -/
def execSrExitDone (channel : Nat) (s : State) : Host.Outcome State Fault Refusal :=
  whenWf "SR_EXIT_DONE" (Instr.wf (.srExitDone channel)) (s.srExitDone channel)

/-- Every channel is placed in self-refresh for a forced cause (R221, R302, R325); entry and its end together. -/
def State.srForceAll (s : State) : State :=
  (List.range 32).foldl (fun s c =>
    if s.channelIs c 0 || s.channelIs c 3 then (s.srEnter c .forced).srEntryDone c
    else { s with dram := { s.dram with srCause := assocPut s.dram.srCause c .forced } }) s

/-- A forcing cause ends: every channel in self-refresh leaves it (R222), at once (log entry 16). -/
def State.srReleaseAll (s : State) : State :=
  (List.range 32).foldl (fun s c => if s.channelIs c 2 || s.channelIs c 1 then (s.setChannel c 3).srExitDone c else s) s

/-! ### Quadrant wakes (R17), acknowledgements (R230), the end of a flush (R233) -/

/-- A quadrant finishes waking; the requests held during the wake are served, slice by slice, as the fabric arbiter picks them
(R17, R262). -/
def State.quadWakeDone (s : State) (q : Nat) : State :=
  if !s.lake.waking.contains q then s
  else
    let on := s.get .lakeStatusQuadOn
    let s := s.set .lakeStatusQuadOn (if bitAt on q then on else on + 2 ^ q)
    let s := s.set .pwrDomState 2 (54 + q)
    let s := { s with lake := { s.lake with waking := s.lake.waking.filter (· ≠ q) } }
    (List.range 16).foldl (fun s k => State.serveSlice (16 * q + k) s.lake.held.length s) s

/-- The controller has written a durable write's sector (R230): it is in the array, and stays VALID and clean. -/
def State.durableAck (s : State) (p a : Nat) : State := s.sectorToArray p a

/-- DURABLE_WRITE_ACK (R230). -/
def execDurableWriteAck (p a : Nat) (s : State) : Host.Outcome State Fault Refusal :=
  whenWf "DURABLE_WRITE_ACK" (Instr.wf (.durableWriteAck p a)) (s.durableAck p a)

/-- The last write-back is in the array (R233): those still under way are issued, FLUSHING clears and LAKE_FLUSH_DONE is
raised. -/
def State.flushDone (s : State) : State :=
  if s.flag .lakeStatusFlushing then
    ((s.drainWrites (fun _ => true) (fun r => !r.durable)).set .lakeStatusFlushing 0).raise evLakeFlushDone
  else s

/-- LAKE_FLUSH_DONE (R233). -/
def execLakeFlushDone (s : State) : Host.Outcome State Fault Refusal := .next s.flushDone

/-! ### Basins (R212, R213) -/

/-- A write of a basin's EN (R212, R213): checked when 1; the journal basin's registers discard writes. -/
def State.basinEnWrite (s : State) (b : Nat) (en : Bool) : State :=
  if s.flag .drcBasinCfgJournal b then s
  else if !en then (if s.flag .drcBasinCfgEn b then s.setB .drcBasinCfgEn 0 b else s)
  else if s.flag .drcBasinCfgEn b then s
  else if s.basinOk s.vfCount (fun c => s.flag .drcBasinCfgEn c) s.pcGone b then s.setB .drcBasinCfgEn 1 b
  else (s.set .drcStatusCfgReject 1).raise evDrcCfgReject 0xFF b

/-- BASIN_EN_WRITE (R212). -/
def execBasinEnWrite (basin : Nat) (en : Bool) (s : State) : Host.Outcome State Fault Refusal :=
  whenWf "BASIN_EN_WRITE" (Instr.wf (.basinEnWrite basin en)) (s.blockWrite 0x0E 0 (·.basinEnWrite basin en))

def State.setOwner (s : State) (b o : Nat) : State :=
  { s with dram := { s.dram with owners := assocPut s.dram.owners b o } }

/-- A basin is enabled under its OWNER: a zero fill where its recorded owner is another (R213). -/
def State.basinEnabled (s : State) (b : Nat) : State :=
  let o := s.get .drcBasinCfgOwner b
  match s.basinOwner b with
  | none => s.setOwner b o
  | some o' =>
    if o' = o then s
    else ({ s with dram := { s.dram with filling := s.dram.filling ++ [b] } }).set .drcStatusZeroing 1

/-- Does an entry of the buffer lie in basin `b`? -/
def inBasin (b : Nat) (l : Buffer) : Bool := l.any (fun e => e.space == 1 && e.basin == b)

/-- Has a fetched, incomplete job of the owner a buffer in the basin, or is a BAR2 request to it in progress (R225)? -/
def State.basinBusy (s : State) (b : Nat) : Bool :=
  let mask := s.basinMask b
  let lo := s.get .drcBasinLocLbase b * 65536
  let hi := lo + s.get .drcBasinLocExt b * 65536
  s.jobUnit.jobs.any (fun j => j.func == s.get .drcBasinCfgOwner b &&
      (j.bufs.any (fun x => inBasin b x.2) || j.tables.any (fun x => x.2.any (inBasin b))))
    || s.inFlight.any (fun r => r.port == 54 && bitAt mask r.pc && lo ≤ r.a && r.a < hi)

/-- The boundary of a basin's EN: it passes once nothing of the owner uses the basin (R213, R225). -/
def State.basinEffect (s : State) (b : Nat) : State :=
  if s.basinBusy b then s
  else
    let was := s.eff .drcBasinCfgEn b
    let s := s.applyB .drcBasinCfgEn b
    if s.flag .drcBasinCfgEn b && was == 0 then s.basinEnabled b else s

/-- BASIN_ENABLE_EFFECT (R213). -/
def execBasinEnableEffect (basin : Nat) (s : State) : Host.Outcome State Fault Refusal :=
  whenWf "BASIN_ENABLE_EFFECT" (Instr.wf (.basinEnableEffect basin)) (s.basinEffect basin)

/-- Every line of a basin zeroed, in the array and in the Lake. -/
def State.zeroBasin (s : State) (b : Nat) : State :=
  let lo := s.get .drcBasinLocLbase b * 65536
  let hi := lo + s.get .drcBasinLocExt b * 65536
  let mask := s.basinMask b
  let mine (pc a : Nat) : Bool := bitAt mask pc && lo ≤ a && a < hi
  { s with
    dram := { s.dram with
      mem := s.dram.mem.filter (fun c => !mine (c.1 / pcBytes) (c.1 % pcBytes))
      poison := s.dram.poison.filter (fun k => !mine (k / pcLines) (k % pcLines * 64))
      uncorr := s.dram.uncorr.filter (fun k => !mine (k / pcLines) (k % pcLines * 64)) }
    lake := { s.lake with
      lines := s.lake.lines.filter (fun l => !mine l.slice (l.addr 0))
      wbuf := s.lake.wbuf.filter (fun x => !mine x.pc x.a) } }

/-- A basin's zero fill ends (R213). -/
def State.basinFillDone (s : State) (b : Nat) : State :=
  if !s.dram.filling.contains b then s
  else
    let s := (s.zeroBasin b).setOwner b (s.get .drcBasinCfgOwner b)
    let left := s.dram.filling.filter (· ≠ b)
    ({ s with dram := { s.dram with filling := left } }).set .drcStatusZeroing (b2n (!left.isEmpty))

/-- BASIN_FILL_DONE (R213). -/
def execBasinFillDone (basin : Nat) (s : State) : Host.Outcome State Fault Refusal :=
  whenWf "BASIN_FILL_DONE" (Instr.wf (.basinFillDone basin)) (s.basinFillDone basin)

/-! ### A failed forwarded clock (R14, R23) -/

/-- Both PCs of the channel become FAILED, unless RETIRED; nothing of them is reachable any more. -/
def State.failChannel (s : State) (c : Nat) : State :=
  ((s.channelPcs c).foldl (fun s p => s.set .drcPcStateState 5 p) s).dropSlices (fun p => p / 2 == c)

/-- A channel's forwarded clock fails: CH_ERR_c once, class U, ARG 1 (R14). -/
def State.clockFail (s : State) (c : Nat) : State :=
  if (s.channelPcs c).isEmpty then s
  else (s.failChannel c).report { cls := .u, source := evChErr c, arg := 1 }

/-- FORWARDED_CLOCK_FAIL (R14). -/
def execForwardedClockFail (channel : Nat) (s : State) : Host.Outcome State Fault Refusal :=
  whenWf "FORWARDED_CLOCK_FAIL" (Instr.wf (.forwardedClockFail channel)) (s.clockFail channel)

end Sys2Proof.Machine
end

