-- ==== Sys2Proof/Machine/PlanPort.lean ====
section
/-! DEFINITION. Loaded profiles (R45) and the plan port (R60 to R65). -/

namespace Sys2Proof.Machine

/-- The loaded profile with number `n` (R45): none where STATE is EMPTY or REJECTED. -/
def State.profile (s : State) (n : Nat) : Option Profile :=
  if n < 32 && (s.get .ripPinfoState n == 1 || s.get .ripPinfoState n == 2) then some (Profile.ofWord (s.get .ripProfWord n))
  else none

/-- The device does no work for plan-port reads: before READY (R195), in the hold after a wipe (R173), in thermal shutdown
(R302), after a fatal fault (R325). -/
def State.quiesced (s : State) : Bool := !s.ready || s.inHold || s.shutdown || s.fatal

def State.planSlot (s : State) (func slot : Nat) : PlanSlot := (assoc s.planSlots (func * 128 + slot)).getD {}

def State.setPlanSlot (s : State) (func slot : Nat) (x : PlanSlot) : State :=
  { s with planSlots := assocPut s.planSlots (func * 128 + slot) x }

/-- The 4 KiB of a slot as a read returns them (R60), with `result` in place of PLAN_RESULT; unlisted offsets read 0. -/
def PlanSlot.byteAt (x : PlanSlot) (result o : Nat) : Byte :=
  let byte (v k : Nat) : Byte := BitVec.ofNat 8 (v / 256 ^ k)
  if o < 0x1 then byte x.profile o
  else if 0x10 ≤ o && o < 0x30 then byte x.present (o - 0x10)
  else if 0x30 ≤ o && o < 0x50 then byte x.wanted (o - 0x30)
  else if 0x80 ≤ o && o < 0x84 then byte result (o - 0x80)
  else if 0x84 ≤ o && o < 0x88 then byte x.info (o - 0x84)
  else if 0xA0 ≤ o && o < 0xC0 then byte x.reads (o - 0xA0)
  else if 0x800 ≤ o then x.sched.getD (o - 0x800) 0
  else 0

/-- The bytes of a slot read. -/
def PlanSlot.bytes (x : PlanSlot) (result off len : Nat) : List Byte :=
  (List.range len).map (fun i => x.byteAt result (off + i))

/-- The SEQ last latched. -/
def PlanSlot.seq (x : PlanSlot) : Nat := bits x.result 31 24

/-- A result is latched (R61): SEQ rises, the outputs change together; it counts in RIP_PLANS (R65). -/
def State.planLatchResult (s : State) (func slot : Nat) (pl : Plan) (sched : List Byte) (info : Nat) : State :=
  let x := s.planSlot func slot
  let x := { x with
    result := pl.result (x.seq + 1), info, sched, reads := maskOf 256 (fun b => pl.reads.contains b), running := none }
  ((s.setPlanSlot func slot x).wrapInc .ripPlansCount).count 0x0A 0 func

/-- A BUSY answer (R61, R62): nothing is latched. -/
def State.planBusy (s : State) (func slot off len latency : Nat) : State :=
  let x := s.planSlot func slot
  let s := s.reply (.data func (x.bytes (16 * PlanReason.busy.code + 2 ^ 24 * x.seq) off len))
  ((s.satInc .ripPlanBusyCount).count 0x0A 1 func).raiseMax .ripPlanMaxlatMaxlat latency

/-- A result latched at once without a plan (reasons 2 and 6 of R62). -/
def State.planRefuse (s : State) (func slot off len latency : Nat) (why : PlanReason) : State :=
  let s := s.planLatchResult func slot (Plan.none why) [] 0
  let x := s.planSlot func slot
  (s.reply (.data func (x.bytes x.result off len))).raiseMax .ripPlanMaxlatMaxlat latency

/-- A read that covers PLAN_RESULT (R61, R62). -/
def State.planRead (s : State) (func slot off len latency : Nat) : State :=
  let x := s.planSlot func slot
  if x.running.isSome then s.planBusy func slot off len latency
  else if s.quiesced then s.planRefuse func slot off len latency .notReady
  else if (s.profile x.profile).isNone then s.planRefuse func slot off len latency .profileUnknown
  else s.setPlanSlot func slot { x with
    running := some { profile := x.profile, present := x.present, wanted := x.wanted, off, len } }

/-- Does a read cover a byte of PLAN_INFO, PLAN_READ or PLAN_SCHED, which a plan in progress holds (R61)? -/
def planOutputs (off len : Nat) : Bool :=
  (off < 0x88 && 0x84 < off + len) || (off < 0xC0 && 0xA0 < off + len) || 0x800 < off + len

/-- A read that returns what is latched (R60, R61). -/
def State.planShow (s : State) (func slot off len : Nat) : State :=
  let x := s.planSlot func slot
  s.reply (.data func (x.bytes x.result off len))

/-- A read of a slot (R60, R61): one that covers byte 0x080 plans; one of the outputs waits for a plan in progress; any other
returns what the slot holds. -/
def State.planSlotRead (s : State) (func slot off len latency : Nat) : State :=
  let x := s.planSlot func slot
  if off ≤ 0x80 && 0x80 < off + len then s.planRead func slot off len latency
  else if x.running.isSome && planOutputs off len then
    s.setPlanSlot func slot { x with held := x.held ++ [(off, len)] }
  else s.planShow func slot off len

/-- The held reads of a slot answered, oldest first. -/
def State.planRelease (s : State) (func slot : Nat) : State :=
  let x := s.planSlot func slot
  x.held.foldl (fun s r => s.planShow func slot r.1 r.2) (s.setPlanSlot func slot { x with held := [] })

/-- PLAN_RESULT_READ (R61): a read of more than 64 bytes, or across a 64-byte boundary, is unsupported (R194). -/
def execPlanResultRead (func slot off len latency : Nat) (s : State) : Host.Outcome State Fault Refusal :=
  whenWf "PLAN_RESULT_READ" (Instr.wf (.planResultRead func slot off len latency))
    (if 64 < off % 64 + len then s.respondUr func true
     else s.barRead func (·.planSlotRead func slot off len latency))

/-- A plan lane finishes (R61): the result is latched and the held read answered. -/
def State.planLatch (s : State) (func slot latency : Nat) : State :=
  let x := s.planSlot func slot
  match x.running with
  | none => s
  | some r =>
    let s := match s.profile r.profile with
      | none => s.planLatchResult func slot (Plan.none .profileUnknown) [] 0
      | some p =>
        let pl := p.planMaps r.present r.wanted
        s.planLatchResult func slot pl (pl.sched p) (if decide (pl.reason = PlanReason.patternInvalid) then 0 else pl.info p)
    let y := s.planSlot func slot
    ((s.reply (.data func (y.bytes y.result r.off r.len))).raiseMax .ripPlanMaxlatMaxlat latency).planRelease func slot

/-- PLAN_LATCH (R61). -/
def execPlanLatch (func slot latency : Nat) (s : State) : Host.Outcome State Fault Refusal :=
  whenWf "PLAN_LATCH" (Instr.wf (.planLatch func slot latency)) (s.planLatch func slot latency)

/-- No plan lane has started the read in 12 µs (R62): it is dropped with BUSY. -/
def State.planDrop (s : State) (func slot latency : Nat) : State :=
  let x := s.planSlot func slot
  match x.running with
  | none => s
  | some r =>
    ((s.setPlanSlot func slot { x with running := none }).planBusy func slot r.off r.len latency).planRelease func slot

/-- PLAN_LANE_TIMEOUT (R62). -/
def execPlanLaneTimeout (func slot latency : Nat) (s : State) : Host.Outcome State Fault Refusal :=
  whenWf "PLAN_LANE_TIMEOUT" (Instr.wf (.planLaneTimeout func slot latency)) (s.planDrop func slot latency)

/-- `v` with its 32-bit word `w` replaced. -/
def putWord32 (v w x : Nat) : Nat := v - (v / 2 ^ (32 * w) % 2 ^ 32) * 2 ^ (32 * w) + (x % 2 ^ 32) * 2 ^ (32 * w)

/-- A 32-bit write of a slot register (R60). -/
def PlanSlot.write (x : PlanSlot) (off v : Nat) : PlanSlot :=
  if off = 0 then { x with profile := v % 256 }
  else if 0x10 ≤ off && off < 0x30 then { x with present := putWord32 x.present ((off - 0x10) / 4) v }
  else if 0x30 ≤ off && off < 0x50 then { x with wanted := putWord32 x.wanted ((off - 0x30) / 4) v }
  else x

/-- A write to a slot: whole registers only (R60). A write that covers a register in part is discarded whole (DESIGN CHOICE,
log entry 34: R60 speaks of writes narrower than 32 bits). -/
def State.planWrite (s : State) (func slot off : Nat) (bytes : List Byte) : State :=
  if off % 4 ≠ 0 || bytes.length % 4 ≠ 0 then s
  else
    let ws := (List.range (bytes.length / 4)).map (fun i => (off + 4 * i, fieldAt bytes (4 * i) 4))
    s.setPlanSlot func slot (ws.foldl (fun x w => x.write w.1 w.2) (s.planSlot func slot))

/-- PLAN_SLOT_WRITE (R60): more than 8 bytes, or across an 8-byte boundary, is unsupported (R194). -/
def execPlanSlotWrite (func slot off : Nat) (bytes : List Byte) (poisoned : Bool) (s : State) :
    Host.Outcome State Fault Refusal :=
  whenWf "PLAN_SLOT_WRITE" (Instr.wf (.planSlotWrite func slot off bytes poisoned))
    (if 8 < off % 8 + bytes.length then s.respondUr func false
     else s.barWrite func (·.unlessPoisoned func poisoned (·.planWrite func slot off bytes)) bytes.length)

end Sys2Proof.Machine
end

