-- ==== Sys2Proof/Machine/Tags.lean ====
section
/-! DEFINITION. The reads the device issues and their tags (R197, R198), and its writes (R199). -/

namespace Sys2Proof.Machine

/-! ### Tags -/

/-- First tag, number of tags and outstanding limit of a tag width (R197). -/
def tagRange (width : Nat) : Nat × Nat × Nat :=
  if width = 14 then (0, 16384, 1024) else if width = 10 then (256, 768, 768) else (0, 256, 256)

/-- Is the tag unused so far: neither outstanding, nor in quarantine, nor back from it? -/
def State.tagFresh (s : State) (t : Nat) : Bool :=
  !(s.pcie.tags.any (·.tag == t)) && !s.pcie.quarantine.contains t && !s.pcie.freed.contains t

/-- The next free tag: one not used so far, else the one that left quarantine first (R198). -/
def State.nextTag (s : State) : Option Nat :=
  let (lo, n, limit) := tagRange s.pcie.tagBits
  if limit ≤ s.pcie.tags.length then none
  else match (List.range n).find? (fun k => s.tagFresh (lo + k)) with
    | some k => some (lo + k)
    | none => s.pcie.freed.find? (fun t => lo ≤ t && t < lo + n)

/-- TAGS_HELD (R201): reads without a unit, while Completion Timeout Disable is 1. -/
def State.tagsHeld (s : State) : Nat := if s.flag .cfgCtoDisable then (s.pcie.tags.filter (·.held)).length else 0

/-- PCX_TAGS (R208). -/
def State.showTags (s : State) : State :=
  (s.set .pcxTagsOutstanding s.pcie.tags.length).set .pcxTagsTagsHeld s.tagsHeld

/-- The read leaves under tag `t`, without snoop where its entry asks for that and Device Control allows it (R78, R199). -/
def State.sendRead (s : State) (r : TagUse) (t : Nat) : State :=
  let s := { s with pcie := { s.pcie with
    tags := s.pcie.tags ++ [{ r with tag := t }], freed := s.pcie.freed.filter (· ≠ t) } }
  let s := match r.use with
    | .flush _ _ _ _ _ => s.issue r.func (.flushRead t r.func r.addr r.len)
    | .descriptor _ _ | .task _ _ _ | .walk => s.issue r.func (.read t r.func r.addr r.len (r.ns && s.flag .cfgEns r.func))
  s.showTags

/-- A read the device issues: at once where a tag is free, otherwise once one is (R197). -/
def State.issueRead (s : State) (func addr len : Nat) (peer : Bool) (use : TagFor) (ns : Bool := false) : State :=
  let r : TagUse := { tag := 0, func, addr, len, peer, held := false, use, ns }
  match s.nextTag with
  | some t => s.sendRead r t
  | none => { s with pcie := { s.pcie with waiting := s.pcie.waiting ++ [r] } }

/-- The oldest read that waits for a tag takes one. -/
def State.serveTags (s : State) : State :=
  match s.pcie.waiting, s.nextTag with
  | r :: rest, some t => { s with pcie := { s.pcie with waiting := rest } }.sendRead r t
  | _, _ => s

/-- A tag's read has ended; the tag enters quarantine (R198). -/
def State.retireTag (s : State) (t : Nat) : State :=
  ({ s with pcie := { s.pcie with
    tags := s.pcie.tags.filter (·.tag ≠ t), quarantine := s.pcie.quarantine ++ [t] } }).showTags

/-- Reads of the units `mine` names have no unit any more (R201); those that still wait for a tag are never issued. -/
def State.orphanReads (s : State) (mine : TagFor → Bool) : State :=
  ({ s with pcie := { s.pcie with
    tags := s.pcie.tags.map (fun (r : TagUse) => if mine r.use then { r with held := true } else r)
    waiting := s.pcie.waiting.filter (fun r => !mine r.use) } }).showTags

/-! ### Reads of data and their ends (R79, R199 to R201) -/

/-- A completion timeout (R200): counted and reported. -/
def State.timedOut (s : State) : State :=
  ((s.satInc .pcxCplTimeoutsCount).aerUncorrectable 0 aerTimeout).raise evPcxCplTimeout

/-- How the link saw a read of `n` bytes end: data, a failure, or nothing in time. -/
def State.readEnd (s : State) (n : Nat) : Option Fetched → State
  | some (.data _) => s.received n
  | some (.failed .poisoned) => s.aerUncorrectable 0 aerPoisoned false true
  | some (.failed .unsupportedRequest) | some (.failed .completerAbort) => s
  | some (.failed .timeout) | none => if s.flag .cfgCtoDisable then s else s.timedOut

/-- The tag for a read that is answered within the command: a free one, else the one longest in quarantine, whose time has
passed meanwhile (log entry 37). -/
def State.spareTag (s : State) : Option Nat :=
  let (lo, n, limit) := tagRange s.pcie.tagBits
  match s.nextTag with
  | some t => some t
  | none => if limit ≤ s.pcie.tags.length then none else s.pcie.quarantine.find? (fun t => lo ≤ t && t < lo + n)

/-- One request of a read that is answered within the command. -/
def State.readPiece (s : State) (r : TagUse) : State :=
  match s.spareTag with
  | some t => ({ s with pcie := { s.pcie with quarantine := s.pcie.quarantine.filter (· ≠ t) } }.sendRead r t).retireTag t
  | none => { s with pcie := { s.pcie with waiting := s.pcie.waiting ++ [r] } }

/-- A read outside the device whose answer the same command brings: its requests (R199), and how it ends. -/
def State.readNow (s : State) (func addr n : Nat) (peer ns : Bool) (ans : Option Fetched) : State :=
  ((readPieces (s.mrrs func) n addr n).foldl (fun s x =>
    s.readPiece { tag := 0, func, addr := x.1, len := x.2, peer, held := false, use := .walk, ns }) s).readEnd n ans

/-- The requests of part `k` of an engine's task leave, or wait for a tag (R199). -/
def State.readStart (s : State) (func addr n : Nat) (peer ns : Bool) (e : Nat) (digest : Bool) (k : Nat) : State :=
  (readPieces (s.mrrs func) n addr n).foldl (fun s x => s.issueRead func x.1 x.2 peer (.task e digest k) ns) s

/-- The task's result brings part `k`: what is still under way of it ends. -/
def State.readDone (s : State) (e : Nat) (digest : Bool) (k n : Nat) (ans : Option Fetched) : State :=
  let mine (r : TagUse) : Bool := decide (r.use = .task e digest k)
  let open_ := s.pcie.tags.filter mine
  if open_.isEmpty && !s.pcie.waiting.any mine then s
  else
    let s := { s with pcie := { s.pcie with waiting := s.pcie.waiting.filter (fun r => !mine r) } }
    (open_.foldl (fun s r => s.retireTag r.tag) s).readEnd n ans

/-- Has part `k` of the task's reads failed already? -/
def State.readLost (s : State) (e : Nat) (digest : Bool) (k : Nat) : Bool := s.pcie.lost.contains (.task e digest k)

/-- Does a read serve a task of the engine that `which` slot names? -/
def taskOf (e : Nat) (which : Bool → Bool) : TagFor → Bool
  | .task e' d _ => e' == e && which d
  | .descriptor _ _ | .flush _ _ _ _ _ | .walk => false

/-! ### Writes -/

/-- A function's posted write of any length, with the attributes its Device Control allows (R78, R199). -/
def State.postWrite (s : State) (func addr : Nat) (bytes : List Byte) (rlx ns : Bool) : State :=
  let rlx := rlx && s.flag .cfgEro func
  let ns := ns && s.flag .cfgEns func
  (writePieces (s.mps func) bytes.length addr bytes).foldl (fun s w => s.issue func (.write func w.1 w.2 rlx ns)) s

end Sys2Proof.Machine
end

