-- ==== Sys2Proof/Machine/Journal.lean ====
section
/-! DEFINITION. Rings as the job unit sees them (R66 to R69, R73) and the journal (R96, R97, R116 to R118). -/

namespace Sys2Proof.Machine

/-! ### Rings -/

def State.ring (s : State) (q : Nat) : Ring := (assoc s.jobUnit.rings q).getD {}

def State.setRing (s : State) (q : Nat) (r : Ring) : State :=
  { s with jobUnit := { s.jobUnit with rings := assocPut s.jobUnit.rings q r } }

/-- Is ring pair `q` allocated (R66)? -/
def State.ringAlloc (s : State) (q : Nat) : Bool := q < 256 && s.flag .jobRqCfgAlloc q

/-- Entries of both rings of a pair (R66); 0 when not allocated. -/
def State.ringSize (s : State) (q : Nat) : Nat := if s.ringAlloc q then 2 ^ s.get .jobRqCfgLog2size q else 0

def State.ringFunc (s : State) (q : Nat) : Nat := s.get .jobRqCfgFunc q

/-- The ring pairs of a function, ascending: its rings 0, 1, … (R66). -/
def State.ringsOf (s : State) (func : Nat) : List Nat :=
  rangeWith 256 (fun q => s.ringAlloc q && s.ringFunc q == func)

/-- The ring pair of a function's own ring number. -/
def State.ringPair (s : State) (func ring : Nat) : Option Nat := (s.ringsOf func)[ring]?

/-- Jobs of ring pair `q`. -/
def State.jobsOf (s : State) (q : Nat) : List Job := s.jobUnit.jobs.filter (·.ring == q)

/-- Completions written and not yet released by CQ_HEAD (R69). -/
def State.unreleased (s : State) (q : Nat) : Nat :=
  let n := s.ringSize q
  if n = 0 then 0 else (s.get .jobRqCqTail q + n - s.get .jobRqDbCqHead q) % n

/-- The outstanding count of R69: fetched jobs whose completions host software has not yet released. -/
def State.outstanding (s : State) (q : Nat) : Nat :=
  (s.jobsOf q).length + (s.ring q).fetches.length + (s.ring q).interrupted.length + s.unreleased q

/-- Fetching stops (R325, R187, R302, R173): in a start, after a fatal fault, in thermal shutdown, in the hold, in D3hot. -/
def State.fetchStopped (s : State) : Bool := s.quiesced || s.d3hot

/-- Every fetch condition of R69 and R194 but the outstanding limit. -/
def State.fetchWanted (s : State) (q : Nat) : Bool :=
  s.ringAlloc q && s.flag .jobRqCtrlEn q && s.get .jobRqSqHead q ≠ s.get .jobRqDbSqTail q &&
  s.funcExists (s.ringFunc q) && s.flag .cfgBme (s.ringFunc q) && !s.fetchStopped

/-- FETCH_HELD (R69): only the outstanding limit holds fetching back. -/
def State.fetchHeld (s : State) (q : Nat) : Bool := s.fetchWanted q && s.ringSize q - 1 ≤ s.outstanding q

/-- The read-only fields of a ring's status (R73). -/
def State.showRing (s : State) (q : Nat) : State :=
  let r := s.ring q
  let out := s.outstanding q
  let s := s.set .jobRqStatusIdle (b2n ((s.jobsOf q).isEmpty && r.fetches.isEmpty)) q
  let s := s.set .jobRqStatusIntPending (b2n (!r.interrupted.isEmpty)) q
  let s := s.set .jobRqStatusOutstanding (min out 65535) q
  s.set .jobRqStatusFetchHeld (b2n (s.fetchHeld q)) q

/-! ### Jobs by ring and slot -/

def State.findJob (s : State) (q slot : Nat) : Option Job :=
  s.jobUnit.jobs.find? (fun j => j.ring == q && j.slot == slot)

def State.putJob (s : State) (j : Job) : State :=
  { s with jobUnit := { s.jobUnit with
      jobs := s.jobUnit.jobs.map (fun x => if x.ring == j.ring && x.slot == j.slot then j else x) } }

def State.addJob (s : State) (j : Job) : State :=
  { s with jobUnit := { s.jobUnit with jobs := s.jobUnit.jobs ++ [j] } }

def State.dropJob (s : State) (q slot : Nat) : State :=
  { s with jobUnit := { s.jobUnit with jobs := s.jobUnit.jobs.filter (fun j => !(j.ring == q && j.slot == slot)) } }

/-- Was sequence number `a` given before `b`? FETCH_SEQ wraps modulo 2^32 (R117). -/
def seqBefore (a b : Nat) : Bool := a != b && (b + 2 ^ 32 - a) % 2 ^ 32 < 2 ^ 31

/-! ### The journal's bytes (R116, R117) -/

/-- The journal basin. -/
def State.journalBasin (s : State) : Option Nat :=
  (List.range 64).find? (fun b => s.flag .drcBasinCfgJournal b && s.flag .drcBasinCfgEn b)

/-- Where the record of slot `slot` of pair `q` starts (R116). -/
def State.recordOffset (s : State) (q slot : Nat) : Nat :=
  1024 * (((List.range q).map s.ringSize).foldl (· + ·) 0) + 1024 * slot

/-- Bytes of a basin written and at once in the array: journal records (R118: 64-byte line writes, each in the array before
the next step). -/
def State.writeThrough (s : State) (b off : Nat) (bytes : List Byte) : State :=
  (s.basinWrite 55 64 b off bytes).settleRange b off bytes.length

/-- Bytes of the record of (q, slot) from byte `o` on. -/
def State.recWrite (s : State) (q slot o : Nat) (bytes : List Byte) : State :=
  match s.journalBasin with
  | none => s
  | some b => s.writeThrough b (s.recordOffset q slot + o) bytes

/-- `n` bytes of the record of (q, slot) from byte `o`. -/
def State.recRead (s : State) (q slot o n : Nat) : List Byte :=
  match s.journalBasin with
  | none => zeros n
  | some b => (s.basinRead 55 64 b (s.recordOffset q slot + o) n).2.1

/-- Does reading the record of (q, slot) meet a line that cannot be corrected, or a PC that has failed (R14, R278)? -/
def State.recBad (s : State) (q slot : Nat) : Bool :=
  match s.journalBasin with
  | none => false
  | some b => (s.basinRead 55 64 b (s.recordOffset q slot) 1024).2.2

def State.recNat (s : State) (q slot o n : Nat) : Nat := leNat (s.recRead q slot o n)

def jVoid : Nat := 0
def jQueued : Nat := 1
def jRunning : Nat := 2
def jComplete : Nat := 3
def jInterrupted : Nat := 4

def State.recState (s : State) (q slot v : Nat) : State := s.recWrite q slot 4 (leBytes 1 v)

/-- A fresh record at a fetch (R96, R117): the fields the fetch knows. -/
def State.recOpen (s : State) (q slot gen seq : Nat) : State :=
  let head := leBytes 2 slot ++ leBytes 1 gen ++ [0] ++ leBytes 1 jQueued ++ zeros 43 ++ leBytes 4 seq ++ leBytes 1 q
  s.recWrite q slot 0 (fitBytes 1024 head)

/-- The job unit reads a whole record (R97, R253: a journal read at the job unit's port). -/
def State.recFetch (s : State) (q slot : Nat) : State :=
  match s.journalBasin with
  | none => s
  | some b => (s.basinRead 55 64 b (s.recordOffset q slot) 1024).1

/-- The record of a ring's every slot becomes VOID (R98, R99). -/
def State.recVoid (s : State) (q : Nat) : State :=
  (List.range (s.ringSize q)).foldl (fun s slot =>
    if s.recNat q slot 4 1 = jVoid then s else s.recWrite q slot 0 (zeros 1024)) s

/-- Units at which a type's descriptor gives a stripe job its OBJECT_ID. -/
def objectType (t : Nat) : Bool := 3 ≤ t && t ≤ 6

/-- The descriptor's fields enter the record (R117). -/
def State.recDescribe (s : State) (q slot : Nat) (desc : List Byte) (units : Nat) : State :=
  let t := fieldAt desc 0 1
  let s := s.recWrite q slot 3 (leBytes 1 t)
  let s := s.recWrite q slot 8 (leBytes 4 units)
  let id := if objectType t then sliceBytes desc 16 16 else zeros 16
  let s := s.recWrite q slot 24 (id ++ sliceBytes desc 8 8)
  s.recWrite q slot 53 (sliceBytes desc 1 1)

/-- One more condition in the record (R97): 16 are held, later ones counted in COND_LOST. -/
def State.recCond (s : State) (q slot : Nat) (c : Cond) : State :=
  let n := s.recNat q slot 6 1
  let s := if n < 16 then
      let e := leBytes 4 c.unit ++ leBytes 1 c.status ++ leBytes 1 c.shard ++ zeros 2
      (s.recWrite q slot (576 + 8 * n) e).recWrite q slot 6 (leBytes 1 (n + 1))
    else s.recWrite q slot 7 (leBytes 1 (min 255 (s.recNat q slot 7 1 + 1)))
  if s.recNat q slot 5 1 = 0 then s.recWrite q slot 5 (leBytes 1 c.status) else s

/-- NCOND of a completion (R82): conditions held and lost, saturating. -/
def State.recNcond (s : State) (q slot : Nat) : Nat := min 255 (s.recNat q slot 6 1 + s.recNat q slot 7 1)

/-- A done bit of DONE_RING set or cleared (R117). -/
def State.recDoneBit (s : State) (q slot u : Nat) (v : Bool) : State :=
  let o := 64 + u % 4096 / 8
  let b := s.recNat q slot o 1
  let k := 2 ^ (u % 8)
  let cleared := if bitAt b (u % 8) then b - k else b
  s.recWrite q slot o (leBytes 1 (if v then cleared + k else cleared))

/-- R118, step 1: unit `u` is about to be issued. -/
def State.recIssue (s : State) (q slot u : Nat) : State :=
  (s.recDoneBit q slot u false).recWrite q slot 20 (leBytes 4 (u + 1))

/-- R118, steps 2 and 3. -/
def State.recDone (s : State) (q slot u cnt progress : Nat) : State :=
  let s := (s.recDoneBit q slot u true).recWrite q slot 16 (leBytes 4 cnt)
  if s.recNat q slot 12 4 = progress then s else s.recWrite q slot 12 (leBytes 4 progress)

/-- The 704 bytes of QUERY for (q, slot) and generation `gen` (R97, R117). -/
def State.queryBytes (s : State) (q slot gen : Nat) : List Byte :=
  let r := s.recRead q slot 0 1024
  let f := fieldAt r
  let held := f 4 1 ≠ jVoid
  if !held || f 2 1 ≠ gen then
    fitBytes 704 (leBytes 2 slot ++ leBytes 1 (if held then f 2 1 else 0))
  else
    let progress := f 12 4
    let issued := f 20 4
    let doneOf (u : Nat) : Bool := u < issued && bitAt (f (64 + u % 4096 / 8) 1) (u % 8)
    let map := (List.range 512).map (fun k =>
      BitVec.ofNat 8 (maskOf 8 (fun b => doneOf (progress + 8 * k + b))))
    r.take 20 ++ leBytes 4 progress ++ sliceBytes r 24 24 ++ zeros 16 ++ map ++ sliceBytes r 576 128

/-! ### Progress of a job (R85, R86, R118) -/

/-- Every done unit at the front of the progress taken into it. -/
def advanceGo : Nat → Nat → List Nat → Nat × List Nat
  | 0, p, l => (p, l)
  | n + 1, p, l => if l.contains p then advanceGo n (p + 1) (l.filter (· ≠ p)) else (p, l)

/-- Unit `u` of a job is done: its done bit, DONE and PROGRESS (R118). -/
def State.unitDone (s : State) (j : Job) (u : Nat) : State × Job :=
  if u < j.progress || j.doneSet.contains u then (s, j)
  else
    let (p, l) := advanceGo (j.doneSet.length + 1) j.progress (u :: j.doneSet)
    let j := { j with progress := p, doneSet := l, doneCnt := j.doneCnt + 1 }
    ((s.recDone j.ring j.slot u j.doneCnt p).count 0x06 2 j.func, j)

/-- A condition arises (R12, R408): recorded; the first one decides the status. -/
def State.condition (s : State) (j : Job) (c : Cond) : State × Job :=
  (s.recCond j.ring j.slot c,
    { j with ncond := j.ncond + 1, status := if j.status.isNone then some c else j.status })

/-- No unit and no shard concerned. -/
def noUnit : Nat := 0xFFFFFFFF
def noShard : Nat := 0xFF

/-- A job stops for a reason outside its own data (R88), or by a cancel (R93): that is its status unless a condition came
first (R12). -/
def Job.stop (j : Job) (st : Status) (cause : Nat) : Job :=
  let j := { j with stopped := true, halted := true, stops := if j.stops.contains st.code then j.stops else j.stops ++ [st.code] }
  if j.status.isSome then j
  else { j with cause,
                status := some { unit := noUnit, status := st.code, shard := noShard } }

/-- A stop that comes after a condition is one of the job's other conditions, visible through QUERY (R12); one that is the
job's status stands in no entry, as the PARTIAL of the example in 04_jobs.md (DEDUCED, log entry 63). A stop of a kind that has
reached the job already finds nothing of it running, and is no further condition. -/
def State.noteStop (s : State) (j : Job) (st : Status) : State :=
  if j.status.isSome && !j.stops.contains st.code && decide (j.stage ≠ .closing) then
    s.recCond j.ring j.slot { unit := noUnit, status := st.code, shard := noShard }
  else s

/-- A job is stopped. -/
def State.stopJob (s : State) (j : Job) (st : Status) (cause : Nat) : State × Job := (s.noteStop j st, j.stop st cause)

end Sys2Proof.Machine
end

