-- ==== Sys2Proof/Machine/Buffers.lean ====
section
/-! DEFINITION. Buffers: entries and lists (R78, R79), the walk of check 5 of R81, and reads and writes of a range of a
buffer by a task (R79, R84). -/

namespace Sys2Proof.Machine

def spaceHost : Nat := 0
def spaceBasin : Nat := 1
def spacePeer : Nat := 2
def spaceHostChain : Nat := 8
def spaceBasinChain : Nat := 9

/-! ### Entries -/

def parseBuf (b : List Byte) : BufEntry :=
  { addr := fieldAt b 0 8, len := fieldAt b 8 4, space := fieldAt b 12 1, basin := fieldAt b 13 1, attr := fieldAt b 14 1 }

/-- Is the entry well formed (R78)? -/
def entryOk (b : List Byte) : Bool :=
  let e := parseBuf b
  let chain := e.space == spaceHostChain || e.space == spaceBasinChain
  let basin := e.space == spaceBasin || e.space == spaceBasinChain
  (e.space ≤ spacePeer || chain) && (basin || e.basin == 0) && e.attr < 8 && fieldAt b 15 1 == 0 &&
  (!chain || (16 ≤ e.len && e.len ≤ 65536 && e.len % 16 == 0))

def BufEntry.empty (e : BufEntry) : Bool := e.space == spaceHost && e.len == 0

/-- No Snoop: of a host-memory entry (R78). -/
def BufEntry.ns (e : BufEntry) : Bool := bitAt e.attr 0 && (e.space == spaceHost || e.space == spaceHostChain)
def BufEntry.rlx (e : BufEntry) : Bool := bitAt e.attr 1
def BufEntry.flush4 (e : BufEntry) : Bool := bitAt e.attr 2

/-- Is a basin range permitted to a function (R25, R79)? -/
def State.basinAllowed (s : State) (func b off len : Nat) : Bool :=
  s.basinOn b && !s.flag .drcBasinCfgJournal b && s.get .drcBasinCfgOwner b == func && off + len ≤ s.basinSize b

/-- Does the range lie wholly inside one of the function's peer windows (R79)? -/
def State.peerAllowed (s : State) (func addr len : Nat) : Bool :=
  (s.peerWindows func).any (fun w => w.1 ≤ addr && addr + len ≤ w.1 + w.2)

/-- Is the entry, data or chain, permitted (R79)? -/
def State.entryAllowed (s : State) (func : Nat) (e : BufEntry) : Bool :=
  if e.space == spaceBasin || e.space == spaceBasinChain then s.basinAllowed func e.basin e.addr e.len
  else if e.space == spacePeer then s.peerAllowed func e.addr e.len
  else true

/-! ### The walk (R81, check 5) -/

/-- The walk so far: the state, what the fetches still to come bring, the first failure, and whether a line was corrected
(R12, R278). -/
structure Walk where
  st        : State
  ext       : List Fetched
  fail      : Option Status := none
  corrected : Bool := false

/-- Bytes of a list segment, shard table or schedule: from a basin, or from host memory; a fetch that brings nothing is one
that timed out. A schedule may lie at a peer: R81 names no status for a fetch that fails there, and the model gives
PEER_DMA_ERROR (DESIGN CHOICE, log entry 63). -/
def Walk.fetch (w : Walk) (func : Nat) (e : BufEntry) (n : Nat) : Walk × List Byte :=
  if w.fail.isSome then (w, [])
  else if e.space == spaceBasin || e.space == spaceBasinChain then
    let before := w.st.dram.corrected.length
    let (s, bs, bad) := w.st.basinRead 55 func e.basin e.addr n
    ({ w with st := s, fail := if bad then some .memoryUncorrectable else none,
              corrected := w.corrected || s.dram.corrected.length < before }, bs)
  else
    let peer := e.space == spacePeer
    let next : Walk := { w with st := w.st.readNow func e.addr n peer e.ns w.ext.head?, ext := w.ext.tail }
    match w.ext.head? with
    | some (.data bs) => (next, fitBytes n bs)
    | some (.failed _) => ({ next with fail := some (if peer then .peerDmaError else .hostDmaError) }, [])
    | none => ({ next with fail := some (if peer then .peerDmaError else .hostDmaError) }, [])

/-- The entries of a segment as data entries, with its chain entry where its last one is a chain. -/
def segEntries : List (List Byte) → Option (List BufEntry × Option BufEntry)
  | [] => some ([], none)
  | b :: rest =>
    if !entryOk b then none
    else
      let e := parseBuf b
      if e.space == spaceHostChain || e.space == spaceBasinChain then
        if rest.isEmpty then some ([], some e) else none
      else (segEntries rest).map (fun r => (e :: r.1, r.2))

/-- The bytes in pieces of 16. -/
def entries16 (bs : List Byte) : List (List Byte) := chunks 16 bs

/-- Follow a chain: at most 256 segments and 65,536 data entries in one buffer (R78). An empty entry is no data entry: it is
not counted (DEDUCED, log entry 63). -/
def Walk.chain (func : Nat) : Nat → Walk → BufEntry → Buffer → Walk × Buffer
  | 0, w, _, acc => ({ w with fail := some .badDescriptor }, acc)
  | fuel + 1, w, e, acc =>
    if w.fail.isSome then (w, acc)
    else if !w.st.entryAllowed func e then ({ w with fail := some .badAddress }, acc)
    else
      let (w, bs) := w.fetch func e e.len
      if w.fail.isSome then (w, acc)
      else match segEntries (entries16 bs) with
        | none => ({ w with fail := some .badDescriptor }, acc)
        | some (es, next) =>
          let acc := acc ++ es
          if 65536 < (acc.filter (fun e => !e.empty)).length then ({ w with fail := some .badDescriptor }, acc)
          else match next with
            | none => (w, acc)
            | some c => Walk.chain func fuel w c acc

/-- A buffer field or a shard table's entry, 16 bytes: a single data entry, or a chain (R78). -/
def Walk.buffer (w : Walk) (func : Nat) (b : List Byte) : Walk × Buffer :=
  if w.fail.isSome then (w, [])
  else if !entryOk b then ({ w with fail := some .badDescriptor }, [])
  else
    let e := parseBuf b
    if e.space == spaceHostChain || e.space == spaceBasinChain then Walk.chain func 256 w e []
    else (w, if e.empty then [] else [e])

/-- The entries of a shard table, each walked. -/
def Walk.tableGo (func : Nat) : Walk → List (List Byte) → List Buffer → Walk × List Buffer
  | w, [], acc => (w, acc)
  | w, b :: rest, acc =>
    let (w, buf) := w.buffer func b
    Walk.tableGo func w rest (acc ++ [buf])

/-- A shard table (R80): a single data entry in host memory or in a basin. It is walked up to the 16·n bytes a job uses (R81);
a LEN other than 16·n is judged after the walk, with the other limits that depend on the profile. -/
def Walk.table (w : Walk) (func n : Nat) (b : List Byte) : Walk × List Buffer :=
  if w.fail.isSome then (w, [])
  else if !entryOk b then ({ w with fail := some .badDescriptor }, [])
  else
    let e := parseBuf b
    if spaceBasin < e.space then ({ w with fail := some .badDescriptor }, [])
    else if !w.st.entryAllowed func e then ({ w with fail := some .badAddress }, [])
    else if e.empty then (w, [])
    else
      let (w, bs) := w.fetch func e (min e.len (16 * n) / 16 * 16)
      Walk.tableGo func w (entries16 bs) []

/-- Bytes a buffer holds. -/
def bufLen (b : Buffer) : Nat := (b.map (·.len)).foldl (· + ·) 0

/-- Do two buffers overlap in one basin (R81, COPY)? -/
def bufsOverlap (a b : Buffer) (n : Nat) : Bool :=
  let cut (l : Buffer) : List (Nat × Nat × Nat) :=
    (l.foldl (fun (acc : List (Nat × Nat × Nat) × Nat) e =>
      let k := min e.len acc.2
      (if e.space == spaceBasin && 0 < k then acc.1 ++ [(e.basin, e.addr, k)] else acc.1, acc.2 - k)) ([], n)).1
  (cut a).any (fun x => (cut b).any (fun y => x.1 == y.1 && overlaps x.2.1 x.2.2 y.2.1 y.2.2))

/-! ### Ranges of a buffer -/

/-- The parts of bytes [off, off + n) of a buffer, one for each data entry it touches: the entry, the byte in it and the
count. -/
def bufParts : Buffer → Nat → Nat → List (BufEntry × Nat × Nat)
  | [], _, _ => []
  | e :: rest, off, n =>
    if n = 0 then []
    else if e.len ≤ off then bufParts rest (off - e.len) n
    else
      let k := min n (e.len - off)
      (e, off, k) :: bufParts rest 0 (n - k)

/-- The higher status of two that arise at the same point (R12). -/
def worse (a b : Option Status) : Option Status :=
  match a, b with
  | none, b => b
  | a, none => a
  | some x, some y => if x.code < y.code then some y else some x

/-- A task's reading and writing: the state, the ports that carry its reads and its writes, what its reads outside the device
bring in reading order, the engine and slot that issued those reads and how many of them have been taken, the packet that its
writes to a basin are (R241: data that comes over the link), and whether a line was corrected (R278). -/
structure TaskIo where
  st        : State
  func      : Nat
  port      : Nat
  out       : Nat
  ext       : List Fetched
  reads     : Option (Nat × Bool) := none
  part      : Nat := 0
  packet    : Option Packet := none
  corrected : Bool := false

/-- A task of engine `e` for a function: its engine's port reads, its pond's DMA port writes (R18). -/
def TaskIo.engine (s : State) (func e : Nat) (ext : List Fetched) (digest : Bool := false) : TaskIo :=
  { st := s, func, port := e, out := 48 + e / 8, ext, reads := some (e, digest) }

/-- What the task's next read outside the device brings; a read that has failed brings nothing. -/
def TaskIo.next (t : TaskIo) : Option Fetched :=
  match t.reads with
  | some (e, digest) => if t.st.readLost e digest t.part then none else t.ext.head?
  | none => t.ext.head?

/-- The task's next read outside the device is answered. -/
def TaskIo.take (t : TaskIo) (n : Nat) : TaskIo :=
  { t with
    st := match t.reads with
      | some (e, digest) => t.st.readDone e digest t.part n t.next
      | none => t.st
    ext := t.ext.tail, part := t.part + 1 }

/-- Read a range of a buffer (R79, R278): one fetch for each part in host memory or at a peer. -/
def TaskIo.read (t : TaskIo) (b : Buffer) (off n : Nat) : TaskIo × List Byte × Option Status :=
  (bufParts b off n).foldl (fun (acc : TaskIo × List Byte × Option Status) (x : BufEntry × Nat × Nat) =>
    let (t, bs, fail) := acc
    let (e, o, k) := x
    if e.space == spaceBasin then
      let before := t.st.dram.corrected.length
      let (s, d, bad) := t.st.basinRead t.port t.func e.basin (e.addr + o) k
      ({ t with st := s, corrected := t.corrected || s.dram.corrected.length < before }, bs ++ d,
        worse fail (if bad then some .memoryUncorrectable else none))
    else
      let st := if e.space == spacePeer then Status.peerDmaError else .hostDmaError
      match t.next with
      | some (.data d) => (t.take k, bs ++ fitBytes k d, fail)
      | some (.failed _) => (t.take k, bs ++ zeros k, worse fail (some st))
      | none => (t.take k, bs ++ zeros k, worse fail (some st))) (t, [], none)

/-- The flushing read after the last byte of a write (R84): zero length, or 4 bytes with FLUSH4; the shard whose buffer it
is. -/
def flushOf (shard : Nat) (e : BufEntry) (last : Nat) : Bool × Nat × Nat × Nat :=
  if e.flush4 then (e.space == spacePeer, last / 4 * 4, 4, shard) else (e.space == spacePeer, last, 0, shard)

/-- The flushing reads a write to one buffer needs: one for its writes to host memory, one for each peer entry (R84). -/
def bufFlushes (shard : Nat) (parts : List (BufEntry × Nat × Nat)) : List (Bool × Nat × Nat × Nat) :=
  let all := (parts.filter (fun x => x.1.space ≠ spaceBasin)).map
    (fun x => flushOf shard x.1 (x.1.addr + x.2.1 + x.2.2 - 1))
  (all.filter (fun f => !f.1)).getLast?.toList ++ all.filter (·.1)

/-- A durable write to a basin, as one packet of the port's Pack queue where it is one (R241). -/
def State.basinWritePacket (s : State) (port group b off : Nat) (bytes : List Byte) : Option Packet → State
  | none => s.basinWrite port group b off bytes
  | some p =>
    let (s, id) := s.packOpen port p
    s.basinWrite port group b off bytes (packet := some id)

/-- Write bytes at an offset of a buffer, a shard's where it is one; the run notes the basin ranges and the flushing reads
(R84). -/
def TaskIo.write (t : TaskIo) (r : UnitRun) (b : Buffer) (off : Nat) (bytes : List Byte) (shard : Nat := noShard) :
    TaskIo × UnitRun :=
  let parts := bufParts b off bytes.length
  let s := (parts.foldl (fun (acc : State × List Byte) (x : BufEntry × Nat × Nat) =>
      let (s, rest) := acc
      let (e, o, k) := x
      let d := rest.take k
      let s := if e.space == spaceBasin then s.basinWritePacket t.out t.func e.basin (e.addr + o) d t.packet
        else s.postWrite t.func (e.addr + o) d e.rlx e.ns
      (s, rest.drop k)) (t.st, bytes)).1
  ({ t with st := s },
    { r with
      ranges := r.ranges ++ (parts.filter (fun x => x.1.space == spaceBasin)).map (fun x => (x.1.basin, x.1.addr + x.2.1, x.2.2))
      flushes := r.flushes ++ bufFlushes shard parts })

/-- The unit's outputs are written; its flushing reads are issued. -/
def State.issueFlushes (s : State) (j : Job) (r : UnitRun) : State :=
  r.flushes.foldl (fun s f => s.issueRead j.func f.2.1 f.2.2.1 f.1 (.flush j.ring j.slot j.gen r.unit f.2.2.2)) s

/-- The lines of a unit's basin ranges are written back to the array (R84). -/
def State.flushRanges (s : State) (rs : List (Nat × Nat × Nat)) : State :=
  rs.foldl (fun s x => s.settleRange x.1 x.2.1 x.2.2) s

end Sys2Proof.Machine
end

