-- ==== Sys2Proof/Machine/Flash.lean ====
section
/-! DEFINITION. The board's flash as the device reads and writes it (R331, R350), and the repair record (R291). -/

namespace Sys2Proof.Machine

/-- An erased byte. -/
def flashBlank : Byte := 0xFF

/-- `n` bytes of flash from `a`. -/
def State.flashBytes (s : State) (a n : Nat) : List Byte := Mem.readN flashBlank s.flash a n

/-- Bytes programmed from `a` on: programming clears bits and sets none (PRESUMED: SPI NOR flash; log entry 6). -/
def flashProgramGo (m : List Host.Cell) (a : Nat) : List Byte → List Host.Cell
  | [] => m
  | b :: bs => flashProgramGo (Mem.write flashBlank m a (Mem.read flashBlank m a &&& b)) (a + 1) bs

def State.flashProgram (s : State) (a : Nat) (bytes : List Byte) : State :=
  { s with flash := flashProgramGo s.flash a bytes }

/-- `n` bytes from `a` erased. -/
def State.flashErase (s : State) (a n : Nat) : State :=
  { s with flash := s.flash.filter (fun c => c.1 < a || a + n ≤ c.1) }

/-- Bytes replaced whatever they held (an erase and a program of a region the device owns). -/
def State.flashPut (s : State) (a : Nat) (bytes : List Byte) : State :=
  { s with flash := Mem.writeN flashBlank s.flash a bytes }

/-! ### The repair record (R291, R331) -/

def repairBase : Nat := 0x10000
def repairSlots : Nat := 4096

/-- The CRC of an entry: over bytes 0 and 2 to 11. -/
def entryCrc (e : List Byte) : Nat := crc32c (e.take 1 ++ sliceBytes e 2 10)

def RepairEntry.bytes (e : RepairEntry) : List Byte :=
  let head : List Byte := leBytes 1 e.typ ++ [if e.active then 0x00 else 0x0F] ++ leBytes 1 e.unit ++ leBytes 1 e.bank
    ++ leBytes 2 e.row ++ leBytes 1 e.spare ++ [0] ++ leBytes 4 e.seq
  head ++ leBytes 4 (entryCrc head)

/-- An entry's bytes as data: none where its CRC fails. -/
def parseEntry (b : List Byte) : Option RepairEntry :=
  if fieldAt b 12 4 ≠ entryCrc b then none
  else some { typ := fieldAt b 0 1, active := fieldAt b 1 1 == 0, unit := fieldAt b 2 1, bank := fieldAt b 3 1,
              row := fieldAt b 4 2, spare := fieldAt b 6 1, seq := fieldAt b 8 4 }

def repairAddr (k : Nat) : Nat := repairBase + 16 * k

/-- The numbers of the record's slots that some listed byte lies in, rising: the only ones that are not empty. -/
def State.repairUsed (s : State) : List Nat :=
  ((s.flash.filter (fun c => repairBase ≤ c.1 && c.1 < repairBase + 65536)).map (fun c => (c.1 - repairBase) / 16)).dedup

/-- The entries of the record: none in place of an entry whose CRC fails. -/
def State.repairEntries (s : State) : List (Nat × Option RepairEntry) :=
  (s.repairUsed.filter (fun k => s.flashBytes (repairAddr k) 1 ≠ [flashBlank])).map (fun k =>
    (k, parseEntry (s.flashBytes (repairAddr k) 16)))

/-- The first empty slot: its sixteen bytes are erased. -/
def State.repairFree (s : State) : Option Nat :=
  let used := s.repairUsed
  (List.range repairSlots).find? (fun k => !used.contains k)

/-- The next entry's SEQ: one above the highest. -/
def State.repairNextSeq (s : State) : Nat :=
  ((s.repairEntries.map (fun e => (e.2.map (·.seq)).getD 0)).foldl max 0) + 1

/-- An entry appended to the record; none where the record is full. Answers its SEQ. -/
def State.repairAppend (s : State) (typ : Nat) (active : Bool) (unit bank row spare : Nat) : Option (State × Nat) :=
  match s.repairFree with
  | none => none
  | some k =>
    let seq := s.repairNextSeq
    some (s.flashProgram (repairAddr k) ({ typ, active, unit, bank, row, spare, seq : RepairEntry }).bytes, seq)

/-- An entry written where it can be, the state unchanged where it cannot. -/
def State.repairNote (s : State) (typ unit bank : Nat) : State :=
  match s.repairAppend typ true unit bank 0 0 with
  | some (s, _) => s
  | none => s

/-- The STATE of the entry with SEQ `seq` programmed to ACTIVE. -/
def State.repairActivate (s : State) (seq : Nat) : State :=
  match s.repairEntries.find? (fun e => (e.2.map (·.seq)) == some seq) with
  | some (k, _) => s.flashProgram (repairAddr k + 1) [0x00]
  | none => s

def typRow : Nat := 1
def typPc : Nat := 2
def typLane : Nat := 3
def typErase : Nat := 4
def typCaLane : Nat := 5

end Sys2Proof.Machine
end

