-- ==== Sys2Proof/Machine/Integrity.lean ====
section
/-! DEFINITION. The line decoder's outcomes (R277, R278), the correctable-error table (R279), vertical links (R280 to
R284) and retirement (R289, R290), of 12_integrity.md. -/

namespace Sys2Proof.Machine

/-! ### The correctable-error table (R279) -/

/-- Ticks of LANE_WIN (R292: units of 0.1 ms). -/
def State.laneWin (s : State) : Nat := s.get .vlkCtrlLaneWin * 10000

/-- The VALID entry with the key. -/
def State.ceFind (s : State) (p bg bank row sym : Nat) : Option Nat :=
  (List.range 32).find? (fun e => s.flag .integCeLocValid e && s.get .integCeLocPc e == p && s.get .integCeLocBg e == bg
    && s.get .integCeLocBank e == bank && s.get .integCeRowRow e == row && s.get .integCeLocSymbol e == sym)

/-- The lowest entry with VALID 0. -/
def State.ceFree (s : State) : Option Nat := (List.range 32).find? (fun e => !s.flag .integCeLocValid e)

/-- Does the DEG_LOG_MS limit stop a new entry of PC `p`? -/
def State.degLimited (s : State) (p : Nat) : Bool :=
  s.flag .vlkPcDegraded p &&
    (match assoc s.vlink.degLog p with
     | some t => s.timer < t + s.get .integCtrlDegLogMs * 100000
     | none => false)

/-- A new entry in slot `e`; CE_FULL and its event when it was the last free one. -/
def State.ceTake (s : State) (e p bg bank row sym col : Nat) : State :=
  let s := (((s.set .integCeLocPc p e).set .integCeLocBg bg e).set .integCeLocBank bank e).set .integCeLocCol col e
  let s := ((s.set .integCeLocSymbol sym e).set .integCeLocValid 1 e).set .integCeRowRow row e
  let s := ((s.set .integCeCntCount 1 e).set .integCeTimeLoTime s.timer e).set .integCeTimeHiTime (s.timer / 2 ^ 32) e
  let s := { s with vlink := { s.vlink with degLog := assocPut s.vlink.degLog p s.timer } }
  match s.ceFree with
  | some _ => s
  | none => (s.set .integStatusCeFull 1).raise evIntegCeFull

/-- One corrected symbol enters the table. -/
def State.ceLog (s : State) (p a sym : Nat) : State :=
  let bg := bgOf a
  let bank := bankOf a
  let row := rowOf a
  match s.ceFind p bg bank row sym with
  | some e => (s.satInc .integCeCntCount e).set .integCeLocCol (colOf a) e
  | none =>
    match s.ceFree with
    | none => s.satInc .integCeDropCount
    | some e => if s.degLimited p then s.satInc .integCeDropCount else s.ceTake e p bg bank row sym (colOf a)

/-! ### Lanes (R280 to R284) -/

/-- E of a PC (R277, R283). -/
def State.erased (s : State) (p : Nat) : List Nat := [s.get .vlkPcErase0 p, s.get .vlkPcErase1 p].filter (· ≠ 0x7F)

/-- Bad DQ TSVs of a PC, ascending. -/
def State.badTsvs (s : State) (p : Nat) : List Nat :=
  [s.get .vlkPcBadBad0 p, s.get .vlkPcBadBad1 p, s.get .vlkPcBadBad2 p, s.get .vlkPcBadBad3 p].filter (· ≠ 0xFF)

def State.setBadTsvs (s : State) (p : Nat) (l : List Nat) : State :=
  let at' (k : Nat) := l.getD k 0xFF
  ((((s.set .vlkPcBadBad0 (at' 0) p).set .vlkPcBadBad1 (at' 1) p).set .vlkPcBadBad2 (at' 2) p).set .vlkPcBadBad3 (at' 3)
    p).set .vlkPcSpares (4 - l.length) p

/-- Bad CA TSVs of a channel. -/
def State.badCa (s : State) (c : Nat) : List Nat := [s.get .vlkCaBad0 c, s.get .vlkCaBad1 c].filter (· ≠ 0x1F)

def State.setBadCa (s : State) (c : Nat) (l : List Nat) : State :=
  ((s.set .vlkCaBad0 (l.getD 0 0x1F) c).set .vlkCaBad1 (l.getD 1 0x1F) c).set .vlkCaSpares (2 - l.length) c

/-- The TSV that carries logical lane `i` (R280): the `i`-th in ascending order not in the list. -/
def tsvOfLane (n : Nat) (bad : List Nat) (i : Nat) : Nat := (rangeWith n (fun t => !bad.contains t)).getD i 0

/-- A lane is erasure-marked, or the PC is exhausted (R283). -/
def State.eraseLane (s : State) (p lane : Nat) : State :=
  let e := s.erased p
  if e.contains lane then s
  else if 2 ≤ e.length then
    if s.flag .vlkPcExhausted p then s
    else (s.set .vlkPcExhausted 1 p).report { cls := .c, source := evVlkPcExhausted, arg := p }
  else
    let s := if e.isEmpty then s.set .vlkPcErase0 lane p else s.set .vlkPcErase1 lane p
    let s := (s.set .vlkPcErased (e.length + 1) p).set .vlkPcDegraded 1 p
    let s := (s.setMaskBit .vlkDegLoMask .vlkDegHiMask p true).repairNote typErase p lane
    s.report { cls := .c, source := evVlkPcDegraded, arg := p }

/-- The repairs of a PC's or a channel's lanes that wait or run. -/
def State.repairs (s : State) (ca : Bool) (unit : Nat) : List LaneRepair :=
  (s.vlink.waiting ++ s.vlink.running).filter (fun x => x.ca == ca && x.unit == unit)

/-- Is a repair of this lane waiting or running? -/
def State.repairing (s : State) (ca : Bool) (unit lane : Nat) : Bool := (s.repairs ca unit).any (·.lane == lane)

/-- Was the lane shifted within 10 × LANE_WIN (R282, last rule)? -/
def State.shiftedLately (s : State) (p lane : Nat) : Bool :=
  s.vlink.shifted.any (fun x => x.1 == p && x.2.1 == lane && s.timer < x.2.2 + 10 * s.laneWin)

/-- A faulty lane is repaired under R282, or under R283 where every spare left belongs to a repair under way. -/
def State.repairLane (s : State) (p lane : Nat) : State :=
  let r : LaneRepair := { ca := false, unit := p, lane, tsv := tsvOfLane 76 (s.badTsvs p) lane }
  if s.pcGone p || (s.erased p).contains lane || s.repairing false p lane then s
  else if (s.repairs false p).length < s.get .vlkPcSpares p && !s.shiftedLately p lane then
    { s with vlink := { s.vlink with waiting := s.vlink.waiting ++ [r] } }
  else s.eraseLane p lane

/-- How many distinct numbers. -/
def distinct (l : List Nat) : Nat := (l.foldl (fun (acc : List Nat) x => if acc.contains x then acc else x :: acc) []).length

/-- A lane is found faulty in service (R281). -/
def State.laneFound (s : State) (p lane : Nat) : State :=
  let s := (s.set .vlkPcSuspectLane lane p).set .vlkPcSuspectValid 1 p
  if s.flag .vlkCtrlAutoShift then s.repairLane p lane else s.raise evVlkLaneSuspect 0xFF p

/-- Does a window of (unit, lane, row, time) findings make the lane faulty (R281)? -/
def State.laneFaulty (s : State) (l : List (Nat × Nat × Nat × Nat)) (u lane : Nat) : Bool :=
  let mine := l.filter (fun x => x.1 == u && x.2.1 == lane)
  s.get .vlkCtrlLaneTh ≤ mine.length && 4 ≤ distinct (mine.map (·.2.2.1))

/-- One correction of a symbol not in E counts toward R281; `row` is the row of its bank, so that rows of one number in two
banks are distinct. -/
def State.laneCorrection (s : State) (p lane row : Nat) : State :=
  let l := s.vlink.corr.filter (fun x => s.timer < x.2.2.2 + s.laneWin) ++ [(p, lane, row, s.timer)]
  let s := { s with vlink := { s.vlink with corr := l } }
  if s.laneFaulty l p lane then
    ({ s with vlink := { s.vlink with corr := l.filter (fun x => !(x.1 == p && x.2.1 == lane)) } }).laneFound p lane
  else s

/-! ### Reads of lines (R277, R278) -/

/-- The 72 symbols of a line as stored (R274, R276). -/
def State.storedWord (s : State) (p a : Nat) : List Byte :=
  let (d, bad) := s.arrayRead p a
  if bad then rsPoisoned d else rsEncode d

/-- The decode of the line at `a` as the channel delivers it. -/
def State.decodeLine (s : State) (p a : Nat) (err1 err2 : List Byte) : LineRead :=
  let w := s.storedWord p a
  lineDecode (s.erased p) (xorBytes w err1) (xorBytes w err2)

/-- Counting follows the decode (R278): correctable errors, retries, the table and the lanes' windows. -/
def State.countDecode (s : State) (p a : Nat) (r : LineRead) : State :=
  let corrected (s : State) : State :=
    let s := (s.satInc .integPcCeCount p).count 0x11 0 p
    let s := r.fixed.foldl (fun s sym => s.ceLog p a sym) s
    r.fixed.foldl (fun s sym => s.laneCorrection p sym (bankIndex a * 65536 + rowOf a)) s
  match r.outcome with
  | .corrected => corrected s
  | .correctedRetry => corrected (s.satInc .integPcRetryCount p)
  | .erasureOnly => s.count 0x11 2 p
  | .clean | .poisoned | .uncorrectable => s

/-- An uncorrectable line: counted, recorded as class U, INTEG_UE (R278, R322). -/
def State.lineUe (s : State) (func p a : Nat) : State :=
  ((s.satInc .integPcUeCount p).count 0x11 1 p).report
    { cls := .u, source := evIntegUe, cause := causeMemoryUe, func, arg := p, loc := locOfLine p a, detail := 1 }

/-- The sector that a demand read of the array for function `func` fills, from the decode (R232, R234, R278), counted where it
is given POISON (R248); where no way is allocated, the request that reads it sees the poison. A DIRTY sector, and one whose
write-back is in flight, keep their own data. -/
def State.fillDecoded (s : State) (func p a : Nat) (r : LineRead) : State :=
  let x : Sector := { valid := true, dirty := false, data := r.data,
                      poison := r.outcome == .poisoned || r.outcome == .uncorrectable }
  let n := lakeSector a
  let put (s : State) (l : LakeLine) : State :=
    let s := if r.outcome == .uncorrectable && !(l.sector n).poison then s.satInc .lakePoisonSetCount else s
    s.lakePut (l.setSector n x)
  if s.buffered p a then s
  else match s.lakeFind p a with
  | some l => if (l.sector n).dirty then s else put s l
  | none =>
    match s.lakeAllocate p a (if func < 64 then func else 64) with
    | (s, none, _) =>
      if r.outcome == .uncorrectable then
        { s with dram := { s.dram with uncorr := insertRising (lineKey p a) s.dram.uncorr } }
      else s
    | (s, some l, wb) => put (wb.foldl State.submit s) l

/-- Does address `a` of PC `p` lie in the row that is being retired (R289)? -/
def State.rowLine (s : State) (p a : Nat) : Bool :=
  s.retire.running.any (fun e => e.unit == p && e.bank == bankIndex a && e.row == rowOf a)

/-- A read of the row copy decodes (R289): what it found, for ROW_COPY. -/
def State.noteCopyRead (s : State) (func p a : Nat) (r : LineRead) : State :=
  if func = 255 ∧ s.rowLine p a then
    { s with retire := { s.retire with
      reads := s.retire.reads.filter (·.1 ≠ lineKey p a) ++ [(lineKey p a, r.outcome == .uncorrectable)] } }
  else s

/-- A demand read of a line from the array (R277, R278). -/
def State.demandDecode (s : State) (func p a : Nat) (err1 err2 : List Byte) : State :=
  if s.pcGone p then s
  else
    let r := s.decodeLine p a err1 err2
    let s := (s.fillDecoded func p a r).noteCopyRead func p a r
    let s := s.countDecode p a r
    match r.outcome with
    | .clean | .erasureOnly | .poisoned => s
    | .corrected | .correctedRetry =>
      { s with dram := { s.dram with corrected := insertRising (lineKey p a) s.dram.corrected } }
    | .uncorrectable => s.lineUe func p a

/-- The same, once the quadrant of the slice that asks is on: the read is held until its wake ends (R17). -/
def State.lineDecode (s : State) (func p a : Nat) (err1 err2 : List Byte) : State :=
  if s.quadReady p then s.demandDecode func p a err1 err2
  else
    let s := (s.wakeQuad p).satInc .pwrHeldCount (54 + p / 16)
    { s with lake := { s.lake with decodes := s.lake.decodes ++ [Instr.lineDecode func p a err1 err2] } }

/-- LINE_DECODE (R277). -/
def execLineDecode (func p a : Nat) (err1 err2 : List Byte) (s : State) : Host.Outcome State Fault Refusal :=
  whenWf "LINE_DECODE" (Instr.wf (.lineDecode func p a err1 err2)) (s.lineDecode func p a err1 err2)

/-- The array reads that waited for a quadrant's wake are decoded. -/
def State.decodeHeld (s : State) : State :=
  let ready (i : Instr) : Bool := match i with
    | .lineDecode _ p _ _ _ => s.quadReady p
    | _ => false
  let all := s.lake.decodes
  (all.filter ready).foldl (fun s i => match i with
    | .lineDecode func p a e1 e2 => s.demandDecode func p a e1 e2
    | _ => s) { s with lake := { s.lake with decodes := all.filter (fun i => !ready i) } }

/-- LAKE_QUAD_WAKE_DONE (R17). -/
def execLakeQuadWakeDone (quad : Nat) (s : State) : Host.Outcome State Fault Refusal :=
  whenWf "LAKE_QUAD_WAKE_DONE" (Instr.wf (.lakeQuadWakeDone quad)) (s.quadWakeDone quad).decodeHeld

/-! ### Maintenance slots (R282) -/

/-- Does a TSV timing calibration hold channel `c` (R282, R310)? -/
def State.calHold (s : State) (c : Nat) : Bool := s.cal.running.any (fun t => t.1 == 6 && t.2 / 2 == c)

/-- May a maintenance slot start that holds the PCs `ps` of channel `c` (R282)? -/
def State.slotMayStart (s : State) (c : Nat) (ps : List Nat) : Bool :=
  !s.calHold c && ps.all (fun p => s.get .drcPcStateState p == 0 && !s.flag .drcPcStateUrgent p && !s.slotHold p)

/-- May the repair's slot start: of a CA lane, both PCs of the channel are held, RETIRED and FAILED ones aside (R284)? -/
def State.repairMayStart (s : State) (r : LaneRepair) : Bool :=
  if r.ca then s.slotMayStart r.unit (s.channelPcs r.unit) else s.slotMayStart (r.unit / 2) [r.unit]

/-- A lane shift starts in a maintenance slot of PC `p`: the first repair that waits for the PC or its channel and may
start. -/
def State.laneShift (s : State) (p : Nat) : State :=
  let mine (r : LaneRepair) : Bool := (if r.ca then r.unit == p / 2 else r.unit == p) && s.repairMayStart r
  match s.vlink.waiting.find? mine with
  | none => s
  | some r => { s with vlink := { s.vlink with waiting := s.vlink.waiting.erase r, running := s.vlink.running ++ [r] } }

/-- LANE_SHIFT (R282). -/
def execLaneShift (p : Nat) (s : State) : Host.Outcome State Fault Refusal :=
  whenWf "LANE_SHIFT" (Instr.wf (.laneShift p)) (s.laneShift p)

/-- The map of R280 with the failed DQ lane's TSV in the list. -/
def State.shiftDq (s : State) (p lane tsv : Nat) : State :=
  let s := (s.setBadTsvs p (insertRising tsv (s.badTsvs p))).satInc .vlkPcShifts p
  let s := { s with vlink := { s.vlink with shifted := s.vlink.shifted ++ [(p, lane, s.timer)] } }
  (s.repairNote typLane p tsv).report { cls := .c, source := evVlkLaneShift, arg := p }

/-- The same for a CA lane (R284); ARG is the channel. -/
def State.shiftCa (s : State) (c tsv : Nat) : State :=
  ((s.setBadCa c (insertRising tsv (s.badCa c))).repairNote typCaLane c tsv).report
    { cls := .c, source := evVlkLaneShift, arg := c }

/-- The maintenance slot of PC `p` ends: the new map is in force and the held requests are released (R282). -/
def State.laneShiftDone (s : State) (p : Nat) : State :=
  let mine (r : LaneRepair) : Bool := if r.ca then r.unit == p / 2 else r.unit == p
  match s.vlink.running.find? mine with
  | none => s
  | some r =>
    let s := { s with vlink := { s.vlink with running := s.vlink.running.erase r } }
    let s := if r.ca then s.shiftCa r.unit r.tsv else s.shiftDq r.unit r.lane r.tsv
    s.releaseHeld (fun x => !s.laneHold x && s.get .drcPcStateState x == 0)

/-- LANE_SHIFT_DONE (R282). -/
def execLaneShiftDone (p : Nat) (s : State) : Host.Outcome State Fault Refusal :=
  whenWf "LANE_SHIFT_DONE" (Instr.wf (.laneShiftDone p)) (s.laneShiftDone p)

/-- A write of VLK_SHIFT_REQ (R292): with GO, the named lane is repaired; a lane above 71 names none. -/
def State.shiftReq (s : State) (v : Nat) : State :=
  let lane := bits v 14 8
  if bitAt v 31 && lane < 72 then s.repairLane (bits v 5 0) lane else s

/-- VLK_SHIFT_REQ (R282, R292). -/
def execVlkShiftReq (value : Word) (s : State) : Host.Outcome State Fault Refusal :=
  .next (s.blockWrite 0x10 0 (·.shiftReq value.toNat))

/-- No CA spare is left (R284): VLK_CA_FAIL, and both PCs as for a failed forwarded clock (R14). -/
def State.caFail (s : State) (c : Nat) : State :=
  if s.flag .vlkCaFailed c then s
  else ((s.set .vlkCaFailed 1 c).failChannel c).report { cls := .u, source := evVlkCaFail, arg := c }

/-- A faulty CA lane (R284). -/
def State.repairCa (s : State) (c lane : Nat) : State :=
  let r : LaneRepair := { ca := true, unit := c, lane, tsv := tsvOfLane 26 (s.badCa c) lane }
  if s.repairing true c lane then s
  else if (s.repairs true c).length < s.get .vlkCaSpares c then { s with vlink := { s.vlink with waiting := s.vlink.waiting ++ [r] } }
  else s.caFail c

/-- A parity error on a CA lane (R284): the command is issued again, the error counts toward the thresholds of R281. -/
def State.caParity (s : State) (c lane row : Nat) : State :=
  let l := s.vlink.caErr.filter (fun x => s.timer < x.2.2.2 + s.laneWin) ++ [(c, lane, row, s.timer)]
  let s := { s with vlink := { s.vlink with caErr := l } }
  if s.laneFaulty l c lane then
    ({ s with vlink := { s.vlink with caErr := l.filter (fun x => !(x.1 == c && x.2.1 == lane)) } }).repairCa c lane
  else s

/-- CA_PARITY_ERROR (R284). -/
def execCaParityError (channel lane row : Nat) (s : State) : Host.Outcome State Fault Refusal :=
  whenWf "CA_PARITY_ERROR" (Instr.wf (.caParityError channel lane row)) (s.caParity channel lane row)

/-! ### Retirement (R289, R290) -/

/-- RESULT codes of INTEG_RET_STATUS (R293). -/
def retOk : Nat := 0
def retNoSpare : Nat := 1
def retInUse : Nat := 2
def retJournal : Nat := 3
def retFlashFail : Nat := 4
def retBadArg : Nat := 5
def retBusy : Nat := 6

/-- A retirement is refused: RET_REJECT, and nothing changes. -/
def State.retRefuse (s : State) (result : Nat) : State :=
  (s.set .integRetStatusResult result).set .integStatusRetReject 1

/-- Spare rows of a bank already taken. -/
def State.sparesTaken (s : State) (p bank : Nat) : List Nat :=
  (s.dram.remaps.filter (fun x => x.1 == p && x.2.1 == bank)).map (·.2.2.2)

/-- Row retirement, steps 1 and 2 of R289. -/
def State.rowRetire (s : State) (v : Nat) (flashOk : Bool) : State :=
  let p := bits v 5 0
  let bank := bits v 7 6 * 8 + bits v 10 8
  let row := s.get .integRetRowRow
  if s.flag .integRetStatusBusy then s.retRefuse retBusy
  else if 49152 ≤ row || s.pcGone p then s.retRefuse retBadArg
  else
    let taken := s.sparesTaken p bank
    match (List.range 32).find? (fun k => !taken.contains k) with
    | none => s.retRefuse retNoSpare
    | some spare =>
      match (if flashOk then s.repairAppend typRow false p bank row spare else none) with
      | none => (s.set .integRetStatusResult retFlashFail).set .integRetStatusSpare spare
      | some (s, seq) =>
        let e : RepairEntry := { typ := typRow, active := false, unit := p, bank, row, spare, seq }
        (({ s with retire := { s.retire with running := some e, reads := [] } }).set .integRetStatusBusy 1).set
          .integRetStatusSpare spare

/-- PC retirement (R290). -/
def State.pcRetire (s : State) (v : Nat) (flashOk : Bool) : State :=
  let p := bits v 5 0
  let names (j : Bool) : Bool := (List.range 64).any (fun b =>
    s.flag .drcBasinCfgEn b && bitAt (s.basinMask b) p && s.flag .drcBasinCfgJournal b == j)
  if s.flag .integRetStatusBusy then s.retRefuse retBusy
  else if s.get .drcPcStateState p == 4 then s.retRefuse retBadArg
  else if names false then s.retRefuse retInUse
  else if names true then s.retRefuse retJournal
  else
    match (if flashOk then s.repairAppend typPc true p 0 0 0 else none) with
    | none => s.set .integRetStatusResult retFlashFail
    | some (s, _) =>
      let s := (s.set .drcPcStateState 4 p).setMaskBit .drcRetiredLoMask .drcRetiredHiMask p true
      (s.set .integRetStatusResult retOk).quadPower

/-- A write of INTEG_RET_CMD (R293): with GO, the retirement OP names; any other OP is out of range. -/
def State.retCmd (s : State) (v : Nat) (flashOk : Bool) : State :=
  if !bitAt v 31 then s
  else match bits v 17 16 with
    | 1 => s.rowRetire v flashOk
    | 2 => s.pcRetire v flashOk
    | _ => s.retRefuse retBadArg

/-- ROW_RETIRE (R289): the command with OP 1 and GO. -/
def execRowRetire (value : Word) (flashOk : Bool) (s : State) : Host.Outcome State Fault Refusal :=
  .next (s.blockWrite 0x11 0 (·.retCmd value.toNat flashOk))

/-- PC_RETIRE (R290): the command with OP 2 and GO. -/
def execPcRetire (value : Word) (flashOk : Bool) (s : State) : Host.Outcome State Fault Refusal :=
  .next (s.blockWrite 0x11 0 (·.retCmd value.toNat flashOk))

/-- The row remap is made: its spare row serves it from now on, with the contents the copy gave it (R289: lines copied
corrected, uncorrectable ones as poisoned words, which is what the array holds under the row's address). -/
def State.remap (s : State) (e : RepairEntry) : State :=
  ({ s with dram := { s.dram with remaps := s.dram.remaps ++ [(e.unit, e.bank, e.row, e.spare)] } }).satInc
    .integPcSpareUsed e.unit

/-- One line of the copy: written as a poisoned word where the copy's read of it was uncorrectable; decoded and counted here
where no LINE_DECODE of the copy came for it, as a read without symbol errors (R289, log entry 4). -/
def State.copyLine (s : State) (e : RepairEntry) (col : Nat) : State :=
  let a := addrOfRow (e.bank / 8) (e.bank % 8) e.row col
  match assoc s.retire.reads (lineKey e.unit a) with
  | some true => s.arrayWrite e.unit a (s.arrayRead e.unit a).1 true
  | some false => s
  | none => s.countDecode e.unit a (s.decodeLine e.unit a (zeros 72) (zeros 72))

/-- Steps 3 and 4 of R289, in a maintenance slot. -/
def State.rowCopy (s : State) : State :=
  match s.retire.running with
  | none => s
  | some e =>
    if !s.slotMayStart (e.unit / 2) [e.unit] then s
    else
      let s := (List.range 16).foldl (fun s col => s.copyLine e col) s
      let s := { s with retire := { running := none, copied := s.retire.copied ++ [e.seq] } }
      let s := (s.remap e).repairActivate e.seq
      ((s.set .integRetStatusBusy 0).set .integRetStatusResult retOk).raise evIntegRetDone 0xFF e.unit

/-- ROW_COPY (R289). -/
def execRowCopy (s : State) : Host.Outcome State Fault Refusal := .next s.rowCopy

end Sys2Proof.Machine
end

