-- ==== Sys2Proof/Machine/DredgeSched.lean ====
section
/-! DEFINITION. The schedule of Dredge rounds against PF0's host epoch (R145, R288). -/

namespace Sys2Proof.Machine

def gib : Nat := 1073741824

/-- 96 GiB. -/
def stackBytes : Nat := 96 * gib

def State.drNext (s : State) : Nat := s.get64 .integDrNextLoEpoch .integDrNextHiEpoch
def State.setDrNext (s : State) (v : Nat) : State := s.set64 .integDrNextLoEpoch .integDrNextHiEpoch v

def State.drCursor (s : State) : Nat := s.get64 .integDrCursorLoCursor .integDrCursorHiCursor
def State.setDrCursor (s : State) (v : Nat) : State := s.set64 .integDrCursorLoCursor .integDrCursorHiCursor v

/-- PF0's host epoch. -/
def State.epoch0 (s : State) : Nat := s.get64 .sealEpochLoEpoch .sealEpochHiEpoch

/-- A write of INTEG_DR_EVERY (R288): non-zero, it sets E0 to PF0's host epoch; 0 stops the schedule. -/
def State.everyWrite (s : State) (v : Nat) : State :=
  let s := s.set .integDrEveryEvery v
  if s.get .integDrEveryEvery = 0 then s
  else ({ s with dredge := { s.dredge with e0 := s.epoch0 } }).setDrNext (s.epoch0 + s.get .integDrEveryEvery)

/-- A pass at its start (R286, R287). -/
def passOf (kind : PassKind) (ring slot basin offset length time : Nat) : Pass :=
  { kind, ring, slot, basin, offset, length, done := 0, piece := 0, lines := 0, corrected := 0, erasure := 0, uncorr := 0,
    poison := 0, skipped := 0, firstFail := none, start := time, stopped := false }

/-- The running round. -/
def State.round (s : State) : Option Pass := s.dredge.passes.find? (fun p => decide (p.kind = .round))

/-- A round starts at CURSOR (R288); a new ROUND_GIB takes effect. -/
def State.roundStart (s : State) (epoch : Nat) : State :=
  let s := s.applyB .integDrRcfgRoundGib
  let p := passOf .round 0 0 0xFF s.drCursor (s.get .integDrRcfgRoundGib * gib) s.timer
  { s with dredge := { s.dredge with passes := s.dredge.passes ++ [p], roundFor := some epoch } }

/-- BEHIND (R288): the running or owed round's scheduled epoch lies 2 or more behind PF0's epoch; its event once. -/
def State.roundBehind (s : State) : State :=
  let late (e : Option Nat) : Bool := (e.map (fun e => decide (e + 2 ≤ s.epoch0))).getD false
  if late s.dredge.roundFor || late s.dredge.owedFor then
    let s := s.set .integStatusBehind 1
    if s.dredge.behindRaised then s
    else ({ s with dredge := { s.dredge with behindRaised := true } }).raise evIntegDredgeBehind
  else s

/-- One scheduled epoch is reached (R288). -/
def State.roundDue (s : State) (epoch : Nat) : State :=
  if s.round.isNone then s.roundStart epoch
  else if s.dredge.owedFor.isNone then { s with dredge := { s.dredge with owedFor := some epoch } }
  else s.satInc .integDrMissedCount

/-- The schedule evaluated against PF0's new epoch (R145, R288): of the scheduled epochs that the step passes, the first may
start a round, the next may be owed, and every later one is missed. -/
def State.dredgeEpoch (s : State) : State :=
  let every := s.get .integDrEveryEvery
  let next := s.drNext
  let e := s.epoch0
  let s := if every = 0 || e < next then s
    else
      let k := (e - next) / every + 1
      let s := s.roundDue next
      let s := if 2 ≤ k then s.roundDue (next + every) else s
      let s := if 3 ≤ k then s.satInc .integDrMissedCount 0 0 (k - 2) else s
      s.setDrNext (next + k * every)
  s.roundBehind

/-- A warm start stops the running round: CURSOR stays where it stopped (R288). -/
def State.roundStops (s : State) : State :=
  match s.dredge.passes.find? (fun x => decide (x.kind = .round)) with
  | none => s
  | some p => s.setDrCursor ((p.offset + p.done) % stackBytes)

/-- The round ends (R288): CURSOR stays where it stopped, and the owed round starts. -/
def State.roundEnd (s : State) (p : Pass) : State :=
  let s := s.setDrCursor ((p.offset + p.done) % stackBytes)
  let s := (s.wrapInc .integDrRoundsCount).set .integStatusBehind 0
  let owed := s.dredge.owedFor
  let s := { s with dredge := { s.dredge with
    passes := s.dredge.passes.filter (fun x => decide (x.kind ≠ .round)), roundFor := none, owedFor := none,
    behindRaised := false } }
  match owed with
  | none => s
  | some e => (s.roundStart e).roundBehind

end Sys2Proof.Machine
end

