-- ==== Sys2Proof/Machine/Trailer.lean ====
section
/-! DEFINITION. Sealed shards (R123 to R128), receipt entries (R135), batch records (R140) and log slots (R136) as bytes. -/

namespace Sys2Proof.Machine

/-- Trailer bytes 0 to 47 (R123): HCRC covers bytes 0 to 43. -/
def trailerHeader (enc : Bool) (word : Nat) (objId : List Byte) (stripe shard sj ver epoch salt : Nat) : List Byte :=
  let head : List Byte := [0x42, 0x58, 0x01, BitVec.ofNat 8 (b2n enc)] ++ leBytes 4 word ++ fitBytes 16 objId
    ++ leBytes 4 stripe ++ leBytes 1 shard ++ leBytes 1 (sj / 4096 - 1) ++ leBytes 2 ver ++ leBytes 8 epoch ++ leBytes 4 salt
  head ++ leBytes 4 (crc32c head)

/-- "BXSHARD1". -/
def shardLabel : List Byte := [0x42, 0x58, 0x53, 0x48, 0x41, 0x52, 0x44, 0x31]

/-- K_obj (R124). -/
def objectKey (key objId : List Byte) (epoch salt : Nat) : List Byte :=
  hmacSha256 key (shardLabel ++ fitBytes 16 objId ++ leBytes 8 epoch ++ leBytes 4 salt)

/-- IV of a shard (R124). -/
def shardIv (stripe shard : Nat) : List Byte := leBytes 4 stripe ++ leBytes 1 shard ++ zeros 7

/-- Is the shard's payload ciphertext: a data shard with ENC (R125)? PROFILE's low byte is k (R38). -/
def encData (header : List Byte) : Bool := bitAt (fieldAt header 3 1) 0 && fieldAt header 28 1 < fieldAt header 4 1

/-- TAG over a stored payload (R125). -/
def shardTag (kobj header payload : List Byte) : List Byte :=
  let iv := shardIv (fieldAt header 24 4) (fieldAt header 28 1)
  if encData header then gcmAuth kobj iv header payload else gcmAuth kobj iv (header ++ payload) []

/-- The plain payload of a data shard from its stored one, and the other way round (R125): GCM's stream is its own
inverse. -/
def shardCrypt (kobj header payload : List Byte) : List Byte :=
  if encData header then gcmCrypt kobj (shardIv (fieldAt header 24 4) (fieldAt header 28 1)) payload else payload

/-- Fields of a trailer header. -/
def trKeyVer (h : List Byte) : Nat := fieldAt h 30 2
def trEpoch (h : List Byte) : Nat := fieldAt h 32 8
def trSalt (h : List Byte) : Nat := fieldAt h 40 4
def trEnc (h : List Byte) : Bool := bitAt (fieldAt h 3 1) 0

/-- Checks 1 to 5 of R128 on one shard; `first` is the trailer of the lowest-indexed shard that the stripe reads. -/
def checkTrailer (word : Nat) (objId : List Byte) (stripe shard sj : Nat) (first tr : List Byte) : Option Status :=
  if fieldAt tr 44 4 ≠ crc32c (tr.take 44) then some .tagMismatch
  else if tr.take 2 ≠ [0x42, 0x58] || fieldAt tr 2 1 ≠ 1 || 2 ≤ fieldAt tr 3 1 then some .tagMismatch
  else if fieldAt tr 4 4 ≠ word then some .profileUnknown
  else if sliceBytes tr 8 16 ≠ fitBytes 16 objId || fieldAt tr 24 4 ≠ stripe || fieldAt tr 28 1 ≠ shard then some .tagMismatch
  else if fieldAt tr 29 1 + 1 ≠ sj / 4096 || fieldAt tr 3 1 ≠ fieldAt first 3 1
      || sliceBytes tr 30 14 ≠ sliceBytes first 30 14 then some .tagMismatch
  else none

/-- Check 7 of R128. -/
def checkTag (key tr payload : List Byte) : Option Status :=
  let kobj := objectKey key (sliceBytes tr 8 16) (trEpoch tr) (trSalt tr)
  if shardTag kobj (tr.take 48) payload = sliceBytes tr 48 16 then none else some .tagMismatch

/-- The header of a rebuilt shard: that of a given shard, with its own index and HCRC (R127). -/
def rebuiltHeader (first : List Byte) (shard : Nat) : List Byte :=
  let head := first.take 28 ++ leBytes 1 shard ++ sliceBytes first 29 15
  head ++ leBytes 4 (crc32c head)

/-- The fields of a receipt entry (R135) that do not come from the batch it joins. -/
structure ReceiptFields where
  objId   : List Byte
  objLen  : Nat
  epoch   : Nat
  word    : Nat
  salt    : Nat
  stripes : Nat
  ssize   : Nat
  ver     : Nat
  func    : Nat
  enc     : Bool
  sha384  : Bool
  digest  : List Byte
  tags    : List Byte

/-- A receipt entry's 176 bytes (R135). -/
def receiptEntry (r : ReceiptFields) (chainId : List Byte) (seq leaf : Nat) : List Byte :=
  fitBytes 16 r.objId ++ fitBytes 16 chainId ++ leBytes 8 r.objLen ++ leBytes 8 r.epoch ++ leBytes 8 seq ++ leBytes 4 leaf
    ++ leBytes 4 r.word ++ leBytes 4 r.salt ++ leBytes 4 r.stripes ++ leBytes 2 r.ssize ++ leBytes 2 r.ver
    ++ leBytes 1 r.func ++ leBytes 1 (b2n r.enc + 2 * b2n r.sha384) ++ zeros 2 ++ fitBytes 48 r.digest ++ sha384 r.tags

/-- Bytes 0 to 143 of a batch record (R140). -/
def batchHead (func : Nat) (start auto : Bool) (seq epoch entries : Nat) (chainId prev root : List Byte) : List Byte :=
  [0x42, 0x58, 0x52, 0x42, 0x01] ++ leBytes 1 func ++ leBytes 1 (b2n start + 2 * b2n auto) ++ [0] ++ leBytes 8 seq
    ++ leBytes 8 epoch ++ leBytes 4 entries ++ zeros 4 ++ fitBytes 16 chainId
    ++ (if start then zeros 48 else fitBytes 48 prev) ++ fitBytes 48 root

/-- A log slot's 256 bytes (R136). -/
def logSlot (type phase : Nat) (body : List Byte) : List Byte :=
  fitBytes 256 (leBytes 1 type ++ leBytes 1 phase ++ zeros 14 ++ body)

end Sys2Proof.Machine
end

