-- ==== Sys2Proof/Machine/Sealing.lean ====
section
/-! DEFINITION. Sealing state of a function (R129 to R149): data keys, the host epoch, the receipt log and batches, and the
commands that act on them alone. -/

namespace Sys2Proof.Machine

def State.seal (s : State) (f : Nat) : SealFn := (assoc s.seals f).getD {}

def State.setSeal (s : State) (f : Nat) (x : SealFn) : State := { s with seals := assocPut s.seals f x }

/-- The CDI of the running firmware, where the Tarn holds it (R152, R168). -/
def State.cdi (s : State) : Option (List Byte) := s.trust.held.map (·.cdi)

/-- The host epoch of a function (R144). -/
def State.epoch (s : State) (f : Nat) : Nat := s.get64 .sealEpochLoEpoch .sealEpochHiEpoch f

def State.lastSeal (s : State) (f : Nat) : Nat := s.get64 .sealLastLoEpoch .sealLastHiEpoch f

def State.batchSeq (s : State) (f : Nat) : Nat := s.get64 .sealBseqLoSeq .sealBseqHiSeq f

/-! ### Data keys (R129 to R133) -/

def keyEmpty : Nat := 0
def keyPending : Nat := 1
def keyActive : Nat := 2
def keyRetired : Nat := 3
def keyUnloading : Nat := 4

/-- Does the life cycle allow data keys (R159): PROVISIONED and DEPLOYED? -/
def State.keysAllowed (s : State) : Bool := s.get .lcsStateState == 2 || s.get .lcsStateState == 3

def State.keyState (s : State) (f v : Nat) : Nat := s.get .sealKeyState f v

def State.keyAct (s : State) (f v : Nat) : Nat := s.get .sealKactLoEpoch f v + 2 ^ 32 * s.get .sealKactHiEpoch f v

/-- The ACTIVE slot. -/
def State.activeKey (s : State) (f : Nat) : Option Nat := (List.range 8).find? (fun v => s.keyState f v == keyActive)

/-- The slot that holds version `ver` in a state other than EMPTY (R129). -/
def State.keySlotOf (s : State) (f ver : Nat) : Option Nat :=
  (List.range 8).find? (fun v => s.keyState f v ≠ keyEmpty && s.get .sealKeyVer f v == ver)

/-- The key bytes in a slot. -/
def State.keyBytes (s : State) (f v : Nat) : List Byte := ((assoc (s.seal f).keys v).map (·.key)).getD []

/-- Check 6 of R128 and the holding of R131: the slot and key of a version for a job that holds the slots `held`. -/
def State.keyFor (s : State) (f ver : Nat) (held : List Nat) : Option (Nat × List Byte) :=
  if !s.keysAllowed then none
  else match s.keySlotOf f ver with
    | none => none
    | some v => if s.keyState f v == keyUnloading && !held.contains v then none else some (v, s.keyBytes f v)

/-- One PENDING version becomes ACTIVE, and the ACTIVE one RETIRED (R130). -/
def State.activate (s : State) (f v : Nat) : State :=
  let s := match s.activeKey f with
    | some a => s.set .sealKeyState keyRetired f a
    | none => s
  (s.set .sealKeyState keyActive f v).raise evSealKeyActive f v

/-- The PENDING versions whose activation epoch is reached, in ascending order of epoch and then slot (R130). -/
def State.dueKeys (s : State) (f : Nat) : List Nat :=
  let due := rangeWith 8 (fun v => s.keyState f v == keyPending && s.keyAct f v ≤ s.epoch f)
  due.foldl (fun (acc : List Nat) v =>
    acc.filter (fun w => s.keyAct f w ≤ s.keyAct f v) ++ v :: acc.filter (fun w => s.keyAct f v < s.keyAct f w)) []

def State.activateKeys (s : State) (f : Nat) : State := (s.dueKeys f).foldl (fun s v => s.activate f v) s

/-- A version is loaded into an EMPTY slot (R129, R130, R132): its SALT counter is seeded. -/
def State.loadKey (s : State) (f v ver act : Nat) (key : List Byte) : State :=
  let (s, seed) := s.draw 4
  let x := s.seal f
  let s := s.setSeal f { x with keys := assocPut x.keys v { key, salt := leNat seed } }
  let s := (s.set .sealKeyVer ver f v).set .sealKeyState keyPending f v
  let s := ((s.set .sealKactLoEpoch act f v).set .sealKactHiEpoch (act / 2 ^ 32) f v).set .sealKuseCount 0 f v
  s.activateKeys f

/-- Does a fetched job hold the slot's version (R131), one held INTERRUPTED until its PARTIAL completion is written (R100)? -/
def State.keyHeld (s : State) (f v : Nat) : Bool :=
  s.jobUnit.jobs.any (fun j => j.func == f && j.keys.contains v)
    || s.jobUnit.rings.any (fun r => s.ringFunc r.1 == f && r.2.keys.contains v)

/-- The slot becomes EMPTY and its key bytes are overwritten (R131). -/
def State.dropKey (s : State) (f v : Nat) : State :=
  let x := s.seal f
  let s := s.setSeal f { x with keys := assocDel x.keys v }
  let s := (s.set .sealKeyVer 0 f v).set .sealKeyState keyEmpty f v
  ((s.set .sealKactLoEpoch 0 f v).set .sealKactHiEpoch 0 f v).set .sealKuseCount 0 f v

/-- An unload is requested (R131): it takes effect once no job holds the version. -/
def State.unloadKey (s : State) (f v : Nat) : State :=
  if s.keyState f v == keyEmpty || s.keyState f v == keyUnloading then s
  else if s.keyHeld f v then s.set .sealKeyState keyUnloading f v
  else s.dropKey f v

/-- KEY_UNLOAD_COMPLETE (R131). -/
def execKeyUnloadComplete (func slot : Nat) (s : State) : Host.Outcome State Fault Refusal :=
  whenWf "KEY_UNLOAD_COMPLETE" (Instr.wf (.keyUnloadComplete func slot))
    (if s.keyState func slot == keyUnloading && !s.keyHeld func slot then s.dropKey func slot else s)

/-- The snapshot of an ENCODE (R133): epoch, ACTIVE version, its next SALT, ENC; it counts in SEAL_KUSE. -/
def State.takeSnapshot (s : State) (f : Nat) : Option (State × Snapshot) :=
  match s.activeKey f with
  | none => none
  | some v =>
    let x := s.seal f
    let k := (assoc x.keys v).getD { key := [], salt := 0 }
    let snap : Snapshot := { epoch := s.epoch f, slot := v, ver := s.get .sealKeyVer f v, salt := k.salt,
                             enc := s.flag .sealFcfgEnc f }
    let s := s.setSeal f { x with keys := assocPut x.keys v { k with salt := (k.salt + 1) % 2 ^ 32 } }
    some (s.wrapInc .sealKuseCount f v, snap)

/-! ### The receipt log (R136, R138, R150) -/

/-- Is the log enabled, in effect? -/
def State.logOn (s : State) (f : Nat) : Bool := s.eff .sealLogCfgLogEn f == 1

def State.logSize (s : State) (f : Nat) : Nat := 2 ^ s.get .sealLogCfgLog2size f

/-- Has the log a free slot? -/
def State.logFree (s : State) (f : Nat) : Bool :=
  s.logOn f && 6 ≤ s.get .sealLogCfgLog2size f && (s.seal f).used < s.logSize f

/-- Nothing can be written for lack of a slot (R138): LOG_FULL, and its event once per episode. -/
def State.logFull (s : State) (f : Nat) : State :=
  if s.flag .sealStatusLogFull f || !s.logOn f then s else (s.set .sealStatusLogFull 1 f).raise evSealLogFull f

/-- Would a message of the vector be sent now (R203, R204)? -/
def State.msixOpen (s : State) (f vector : Nat) : Bool :=
  s.flag .cfgMsixEn f && !s.flag .msixMask f vector && !s.flag .cfgMsixFuncMask f && s.mayIssue f

/-- The message after a log write (R150): after every batch record; after an entry while fewer than 16 await one. -/
def State.logMessage (s : State) (f : Nat) (entry : Bool) : State :=
  let v := s.get .sealLogCfgVector f
  let x := s.seal f
  let n := x.awaiting + b2n entry
  let sent := s.msixOpen f v
  let s' := s.setSeal f { x with awaiting := if sent then 0 else n }
  if entry && 16 ≤ n then s.setSeal f { x with awaiting := n } else s'.sendMsix f v

/-- A held message of a vector has been sent: no entry of the function's log awaits one (R150). -/
def State.logSent (s : State) (f vector : Nat) : State :=
  let x := s.seal f
  if 0 < x.awaiting && s.get .sealLogCfgVector f == vector then s.setSeal f { x with awaiting := 0 } else s

/-- A slot is written at LOG_TAIL (R136). A write that ends in an error leaves TAIL (R138). -/
def State.logWrite (s : State) (f type : Nat) (body : List Byte) (ok : Bool) : State :=
  let tail := s.get .sealLogPtrTail f
  let phase := s.get .sealLogPtrPhase f
  let base := s.get .sealLogBaseLoAddr f * 4096 + s.get .sealLogBaseHiAddr f * 2 ^ 32
  let s := s.hostWrite f (base + 256 * tail) (logSlot type phase body)
  if !ok then s.raise evSealLogErr f
  else
    let wrap := s.logSize f ≤ tail + 1
    let s := s.set .sealLogPtrTail (if wrap then 0 else tail + 1) f
    let s := if wrap then s.set .sealLogPtrPhase (1 - phase) f else s
    let x := s.seal f
    (s.setSeal f { x with used := x.used + 1 }).logMessage f (type == 1)

/-- The SEAL (TYPE 8) of a batch, while it is still in its slot (R95). -/
def State.sealJob (s : State) : Option (Nat × Nat × Nat) → Option Job
  | none => none
  | some (q, slot, gen) => (s.findJob q slot).filter (fun j => j.gen == gen && j.type == 8)

/-- A SEAL's one unit is done once its record stands in the log and at OUT (R85). -/
def State.settleSeal (s : State) (j : Job) : State × Job :=
  if j.outDone && j.receipt && j.status.isNone then s.unitDone j 0 else (s, j)

/-- The log's part of a SEAL has ended. -/
def State.sealLogged (s : State) (job : Option (Nat × Nat × Nat)) (ok : Bool) : State :=
  match s.sealJob job with
  | none => s
  | some j =>
    let (s, j) := if ok then (s, j)
      else s.condition j { unit := noUnit, status := Status.hostDmaError.code, shard := noShard }
    let (s, j) := s.settleSeal { j with receipt := true }
    s.putJob j

/-- SEALs of the ring pairs `gone` names have been dropped: their batches and records belong to no job any more (R99). -/
def State.forgetSeals (s : State) (gone : Nat → Bool) : State :=
  let mine (j : Option (Nat × Nat × Nat)) : Option (Nat × Nat × Nat) := j.filter (fun x => !gone x.1)
  { s with seals := s.seals.map (fun x => (x.1, { x.2 with
      closing := x.2.closing.map (fun (b : Batch) => { b with job := mine b.job })
      records := x.2.records.map (fun r => (r.1, mine r.2)) })) }

/-- Held batch records are written while slots are free, `ok` for the first of them (R138); `fuel` bounds their number. -/
def State.drainRecords : Nat → State → Nat → Bool → State
  | 0, s, _, _ => s
  | fuel + 1, s, f, ok =>
    let x := s.seal f
    match x.records with
    | [] => s.set .sealStatusLogFull 0 f
    | (rec, job) :: rest =>
      if !s.logFree f then s.logFull f
      else
        let s := (s.setSeal f { x with records := rest }).logWrite f 2 rec ok
        State.drainRecords fuel (s.sealLogged job ok) f true

def State.drainLog (s : State) (f : Nat) (ok : Bool) : State :=
  State.drainRecords ((s.seal f).records.length + 1) s f ok

/-! ### Batches and chains (R139 to R143) -/

def State.setEpoch (s : State) (f e : Nat) : State := s.set64 .sealEpochLoEpoch .sealEpochHiEpoch e f

def State.setLastSeal (s : State) (f e : Nat) : State := s.set64 .sealLastLoEpoch .sealLastHiEpoch e f

/-- CHAIN_ID of the function's chain. -/
def State.chainId (s : State) (f : Nat) : List Byte :=
  ((List.range 4).map (fun w => leBytes 4 (s.get .sealChainId f w))).flatten

/-- The chain starts with its first batch (R140, R143, R145; log entry 21): at the first entry or the first close. -/
def State.startChain (s : State) (f : Nat) : State :=
  let x := s.seal f
  if x.started then s
  else
    let (s, id) := s.draw 16
    let s := s.setSeal f { x with started := true, first := true }
    let s := (List.range 4).foldl (fun s w => s.set .sealChainId (fieldAt id (4 * w) 4) f w) s
    ((s.set64 .sealBseqLoSeq .sealBseqHiSeq 0 f).setLastSeal f (s.epoch f)).raise evSealChainStart f

/-- The open batch closes (R139): its signing begins, and the next batch opens. -/
def State.closeBatch (s : State) (f epoch : Nat) (auto : Bool) (job : Option (Nat × Nat × Nat)) : State :=
  let s := s.startChain f
  let x := s.seal f
  let b : Batch := { seq := s.batchSeq f, epoch, entries := s.get .sealOpenEntries f, root := frontierRoot x.frontier,
                     chainId := s.chainId f, start := x.first, auto, job }
  let s := s.setSeal f { x with first := false, frontier := [], closing := x.closing ++ [b] }
  let s := (s.set .sealOpenEntries 0 f).set .sealStatusSealing 1 f
  ((s.set64 .sealBseqLoSeq .sealBseqHiSeq (b.seq + 1) f).setLastSeal f epoch).count 0x0B 1 f

/-- The effects of a raised epoch, as one step (R145). -/
def State.raiseEpoch (s : State) (f e : Nat) : State :=
  let s := (s.setEpoch f e).activateKeys f
  let auto := s.get .sealAutoAutoN f
  let s := if auto ≠ 0 && 0 < s.get .sealOpenEntries f && s.lastSeal f + auto ≤ e then s.closeBatch f e true none else s
  if f = 0 then s.dredgeEpoch else s

/-- An entry joins the open batch after its slot is written (R137, R139). -/
def State.addEntry (s : State) (f : Nat) (entry : List Byte) : State :=
  let x := s.seal f
  let s := ((s.setSeal f { x with frontier := frontierAdd x.frontier entry }).wrapInc .sealOpenEntries f).count 0x0B 0 f
  if 16777216 ≤ s.get .sealOpenEntries f then s.closeBatch f (s.epoch f) true none else s

/-- The oldest closed batch is signed (R140, R142, R156): its record is written to the log or held (R138). Answers the
record and the SEAL it belongs to. -/
def State.signBatch (s : State) (f : Nat) (ok : Bool) : State × Option (List Byte × Nat × Nat × Nat) :=
  let x := s.seal f
  match x.closing with
  | [] => (s, none)
  | b :: rest =>
    let (s, rnd) := s.draw 48
    let head := batchHead f b.start b.auto b.seq b.epoch b.entries b.chainId x.prev b.root
    let rec' := head ++ signature (receiptSeed ((s.cdi).getD [])) head rnd
    let s := s.setSeal f { x with closing := rest, prev := sha384 rec', records := x.records ++ [(rec', b.job)] }
    let s := ((s.set .sealStatusSealing (b2n (!rest.isEmpty)) f).count 0x0B 2 0).drainLog f ok
    (s, b.job.map (fun j => (rec', j)))

/-! ### Commands on the epoch and the log -/

/-- SEAL_EPOCH_LO_WRITE (R144): stages the low word. -/
def execSealEpochLoWrite (func : Nat) (value : Word) (s : State) : Host.Outcome State Fault Refusal :=
  whenWf "SEAL_EPOCH_LO_WRITE" (Instr.wf (.sealEpochLoWrite func value))
    (s.blockWrite 0x0B func (fun s => s.setSeal func { s.seal func with staged := value.toNat }))

/-- A regression (R144, R150). -/
def State.epochRejected (s : State) (f : Nat) : State :=
  ((s.set .sealStatusEpochReg 1 f).satInc .sealEpochRejCount f).raise evSealEpochRegression f

/-- A commit of {`hi`, staged low word} (R144, R145). -/
def State.epochCommit (s : State) (f hi : Nat) : State :=
  let v := (s.seal f).staged + 2 ^ 32 * hi
  if v < s.epoch f then s.epochRejected f
  else if v = s.epoch f then s
  else s.raiseEpoch f v

/-- EPOCH_COMMIT (R144). -/
def execEpochCommit (func : Nat) (value : Word) (s : State) : Host.Outcome State Fault Refusal :=
  whenWf "EPOCH_COMMIT" (Instr.wf (.epochCommit func value)) (s.blockWrite 0x0B func (·.epochCommit func value.toNat))

/-- A read of SEAL_EPOCH_LO latches the high word (R144). -/
def State.epochLatch (s : State) (f : Nat) : State :=
  s.setSeal f { s.seal f with latched := some (s.epoch f / 2 ^ 32) }

/-- SEAL_EPOCH_LO_READ (R144). -/
def execSealEpochLoRead (func : Nat) (s : State) : Host.Outcome State Fault Refusal :=
  whenWf "SEAL_EPOCH_LO_READ" (Instr.wf (.sealEpochLoRead func))
    (s.blockRead 0x0B func (fun s => (s.reply32 func (s.epoch func % 2 ^ 32)).epochLatch func))

/-- A read of SEAL_EPOCH_HI (R144): the latched high word, else the live one. -/
def State.epochHi (s : State) (f : Nat) : State × Nat :=
  let x := s.seal f
  (s.setSeal f { x with latched := none }, x.latched.getD (s.epoch f / 2 ^ 32))

/-- A write of LOG_HEAD (R136, R138, R150): slots are released, and what waits for one is written, the first slot write
ending as `ok` says. -/
def State.logHead (s : State) (f v : Nat) (ok : Bool := true) : State :=
  let v := v % 65536
  let size := s.logSize f
  if s.get .sealLogCfgLog2size f < 6 || size ≤ v then s
  else
    let x := s.seal f
    let freed := (v + size - s.get .sealLogHeadHead f) % size
    let s := (s.setSeal f { x with used := x.used - freed }).set .sealLogHeadHead v f
    if 0 < freed then s.drainLog f ok else s

/-- LOG_HEAD_WRITE (R136). -/
def execLogHeadWrite (log : LogOf) (value : Word) (s : State) : Host.Outcome State Fault Refusal :=
  whenWf "LOG_HEAD_WRITE" (Instr.wf (.logHeadWrite log value))
    (s.blockWrite 0x0B log.func (·.logHead log.func value.toNat log.slotWriteOk))

/-- Has the function a fetched, incomplete ENCODE or SEAL (R150)? -/
def State.logBusy (s : State) (f : Nat) : Bool :=
  s.jobUnit.jobs.any (fun j => j.func == f && (j.type == 3 || j.type == 8))

/-- The boundary of LOG_EN (R150): a held record is written first (R138). -/
def State.logEnEffect (s : State) (f : Nat) (ok : Bool := true) : State :=
  if s.logBusy f then s
  else
    let s := s.applyB .sealLogCfgLogEn f
    if s.logOn f then s.drainLog f ok else s

/-- LOG_EN_EFFECT (R150). -/
def execLogEnEffect (log : LogOf) (s : State) : Host.Outcome State Fault Refusal :=
  whenWf "LOG_EN_EFFECT" (Instr.wf (.logEnEffect log)) (s.logEnEffect log.func log.slotWriteOk)

end Sys2Proof.Machine
end

