-- ==== Sys2Proof/Machine/Descriptors.lean ====
section
/-! DEFINITION. Descriptors (R69, R74 to R77): their fetch, the checks of R81, and the start of a job. -/

namespace Sys2Proof.Machine

/-! ### Job types and fields (R75 to R77) -/

def tCopy : Nat := 1
def tHash : Nat := 2
def tEncode : Nat := 3
def tDecode : Nat := 4
def tRepair : Nat := 5
def tVerify : Nat := 6
def tPlan : Nat := 7
def tSeal : Nat := 8
def tQuery : Nat := 9
def tFence : Nat := 10
def tScrub : Nat := 11

def mib : Nat := 1048576

/-- Fields of a descriptor. -/
def dLen (d : List Byte) : Nat := fieldAt d 32 8
def dObjId (d : List Byte) : List Byte := sliceBytes d 16 16
def dProfile (d : List Byte) : Nat := fieldAt d 40 1
def dS (d : List Byte) : Nat := fieldAt d 42 2 * 4096
def dFirst (d : List Byte) : Nat := fieldAt d 44 4
def dCount (d : List Byte) : Nat := fieldAt d 48 4
def dTflags (d : List Byte) : Nat := fieldAt d 3 1
def dSha384 (d : List Byte) : Bool := bitAt (dTflags d) 0
def dIrq (d : List Byte) : Bool := bitAt (fieldAt d 1 1) 0

/-- Are the bytes [lo, hi) zero? -/
def zeroIn (d : List Byte) (lo hi : Nat) : Bool := fieldAt d lo (hi - lo) == 0

/-- Reserved bytes and bits of a type are zero (R74, R76, R77). -/
def reservedOk (t : Nat) (d : List Byte) : Bool :=
  let z := zeroIn d
  let f := fieldAt d
  f 1 1 < 2 && f 2 1 < 16 && z 4 8 &&
  (match t with
    | 1 => dTflags d == 0 && z 16 32 && z 40 64 && z 96 128
    | 2 => dTflags d < 2 && z 16 32 && z 40 64 && z 96 128
    | 3 => dTflags d < 8 && z 41 42 && z 52 64 && z 96 128
    | 4 => dTflags d < 2 && z 41 42 && z 52 64
    | 5 => dTflags d == 0 && z 41 42 && z 52 64 && z 112 128
    | 6 => dTflags d == 0 && z 41 42 && z 52 64 && z 80 128
    | 7 => dTflags d == 0 && z 16 32 && z 36 64 && z 96 128
    | 8 => dTflags d == 0 && z 16 32 && z 40 80 && z 96 128
    | 9 => dTflags d == 0 && z 16 32 && f 36 1 < 16 && z 37 80 && z 96 128
    | 10 => dTflags d < 2 && z 16 128
    | 11 => dTflags d == 0 && z 16 32 && z 49 80 && z 96 128
    | _ => true)

/-- Units of a job whose descriptor has no profile in it (R75, R77). -/
def plainUnits (t : Nat) (d : List Byte) : Nat :=
  match t with
  | 1 => ceilDiv (dLen d) mib
  | 7 => fieldAt d 32 4
  | 11 => ceilDiv (fieldAt d 40 8) mib
  | _ => 1

/-- Does a SCRUB's range lie in its space (R77, R210)? -/
def State.scrubRange (s : State) (d : List Byte) : Bool :=
  let off := fieldAt d 32 8
  let len := fieldAt d 40 8
  let b := fieldAt d 48 1
  off % 64 == 0 && len % 64 == 0 && 64 ≤ len &&
  (if b = 0xFF then off + len ≤ stackBytes else b < 64 && off + len ≤ s.basinSize b)

/-- The field limits that do not depend on the profile (R35, R76, R77, R97, R138). -/
def State.fieldsOk (s : State) (func t : Nat) (d : List Byte) : Bool :=
  let f := fieldAt d
  plainUnits t d < 2 ^ 32 &&
  (match t with
    | 1 => 1 ≤ dLen d
    | 3 => 1 ≤ dLen d && shardSizeOk (dS d) && dFirst d == 0 && dCount d == 0 && s.logOn func
    | 4 => 1 ≤ dLen d && shardSizeOk (dS d) && dFirst d == 0 && dCount d == 0
    | 5 => 1 ≤ dLen d && shardSizeOk (dS d) && 1 ≤ dCount d
    | 6 => 1 ≤ dLen d && shardSizeOk (dS d) && 1 ≤ dCount d
    | 7 => 1 ≤ f 32 4
    | 8 => s.logOn func
    | 9 => (s.ringPair func (f 32 2)).isSome
    | 11 => s.scrubRange d
    | _ => true)

/-! ### The checks of R81 -/

/-- A job under check. -/
structure Check where
  st   : State
  ext  : List Fetched
  job  : Job
  fail : Option Status := none

def Check.reject (c : Check) (st : Status) : Check := { c with fail := some st }

/-- Go on where no check has failed. -/
def Check.next (c : Check) (f : Check → Check) : Check := if c.fail.isSome then c else f c

def Job.buf (j : Job) (o : Nat) : Buffer := (assoc j.bufs o).getD []
def Job.table (j : Job) (o : Nat) : List Buffer := (assoc j.tables o).getD []

/-- Shards with a non-empty buffer in a table. -/
def tableHas (t : List Buffer) : List Nat := rangeWith t.length (fun c => !(t.getD c []).isEmpty)

/-- The shards given to the job, and those it is asked to produce (R56, R80). -/
def Job.given (j : Job) : List Nat := tableHas (j.table 64)

def Job.wanted (j : Job) (p : Profile) : List Nat :=
  if j.type = tRepair then tableHas (j.table 80) else rangeWith p.k (fun i => !j.given.contains i)

def stripeType (t : Nat) : Bool := 3 ≤ t && t ≤ 6

/-- The profile of a job (R43). -/
def State.jobProfile (s : State) (j : Job) : Option Profile := s.profile (dProfile j.desc)

/-- Check 5: the buffers of a type, in ascending order: a buffer, or a shard table. -/
def bufferPlan (t : Nat) : List (Nat × Bool) :=
  match t with
  | 1 | 2 | 7 => [(64, false), (80, false)]
  | 3 => [(64, false), (80, true)]
  | 4 => [(64, true), (80, false), (96, false), (112, false)]
  | 5 => [(64, true), (80, true), (96, false)]
  | 6 => [(64, true)]
  | 8 | 9 | 11 => [(80, false)]
  | _ => []

/-- What a walk leaves, and the job after it. -/
def Check.walked (c : Check) (w : Walk) (j : Job) : Check :=
  { c with st := w.st, ext := w.ext, fail := w.fail, job := { j with corrected := j.corrected || w.corrected } }

/-- One buffer field or shard table walked. -/
def Check.walk (n : Nat) (c : Check) (x : Nat × Bool) : Check :=
  c.next (fun c =>
    let b := sliceBytes c.job.desc x.1 16
    let w : Walk := { st := c.st, ext := c.ext }
    if x.2 then
      let (w, t) := w.table c.job.func n b
      c.walked w { c.job with tables := c.job.tables ++ [(x.1, t)] }
    else
      let (w, buf) := w.buffer c.job.func b
      c.walked w { c.job with bufs := c.job.bufs ++ [(x.1, buf)] })

/-- Bytes of an object digest. -/
def digestLen (d : List Byte) : Nat := if dSha384 d then 48 else 32

/-- A shard buffer holds the job's last stripe (R80). -/
def shardBufOk (p : Profile) (d : List Byte) (last : Nat) (b : Buffer) : Bool :=
  b.isEmpty || last * (dS d + 64) + p.stripeSize (dLen d) (dS d) last + 64 ≤ bufLen b

/-- The limits that depend on the profile (R35, R80, R81). -/
def Job.stripeLimits (j : Job) (p : Profile) : Bool :=
  let d := j.desc
  let n := p.stripes (dLen d) (dS d)
  let ranged := j.type == tRepair || j.type == tVerify
  let last := (if ranged then dFirst d + dCount d else n) - 1
  n < 2 ^ 32 && (!ranged || (dFirst d < n && dCount d ≤ n - dFirst d)) &&
  j.tables.all (fun t => fieldAt d (t.1 + 8) 4 == 16 * p.n && t.2.length == p.n && t.2.all (shardBufOk p d last)) &&
  (match j.type with
    | 3 => (tableHas (j.table 80)).length == p.n && dLen d ≤ bufLen (j.buf 64)
    | 4 => dLen d ≤ bufLen (j.buf 80) && digestLen d ≤ bufLen (j.buf 112)
    | 5 => !(tableHas (j.table 80)).isEmpty
    | _ => true)

/-- Buffer lengths of the other types, and the overlap of a COPY (R77, R81, R97, R140, R287). -/
def Job.plainLimits (j : Job) : Bool :=
  let d := j.desc
  match j.type with
  | 1 => dLen d ≤ bufLen (j.buf 64) && dLen d ≤ bufLen (j.buf 80) && !bufsOverlap (j.buf 64) (j.buf 80) (dLen d)
  | 2 => dLen d ≤ bufLen (j.buf 64) && digestLen d ≤ bufLen (j.buf 80)
  | 7 => 80 * fieldAt d 32 4 ≤ bufLen (j.buf 64)
  | 8 => 240 ≤ bufLen (j.buf 80)
  | 9 => 704 ≤ bufLen (j.buf 80)
  | 11 => 64 ≤ bufLen (j.buf 80)
  | _ => true

/-- Check 6: every basin and peer data entry is permitted. -/
def State.entriesAllowed (s : State) (j : Job) : Bool :=
  let bufs := j.bufs.map (·.2) ++ (j.tables.map (·.2)).flatten
  bufs.all (fun b => b.all (fun e => s.entryAllowed j.func e))

/-- The bytes of a schedule (R52: at most 2,048). -/
def Check.fetchSched (c : Check) : Check × List Byte :=
  let b := c.job.buf 96
  let parts := bufParts b 0 (min (bufLen b) 2048)
  let (w, bs) := parts.foldl (fun (acc : Walk × List Byte) (x : BufEntry × Nat × Nat) =>
    let (w, d) := acc.1.fetch c.job.func { x.1 with addr := x.1.addr + x.2.1 } x.2.2
    (w, acc.2 ++ d)) (({ st := c.st, ext := c.ext } : Walk), [])
  (c.walked w c.job, bs)

/-- Check 7 for DECODE and REPAIR (R46, R55). LEN of the schedule gives how many of the buffer's bytes it has. A pattern that
is invalid leaves no valid schedule, since a wanted shard would be a given one. -/
def Check.schedule (p : Profile) (c : Check) : Check :=
  let j := c.job
  let wanted := j.wanted p
  if (j.buf 96).isEmpty then (if wanted.any j.given.contains then c.reject .badDescriptor else c)
  else
    let (c, bs) := c.fetchSched
    c.next (fun c =>
      match p.checkSchedule j.given wanted (bs.take (fieldAt bs 4 2)) with
      | some steps => { c with job := { c.job with sched := steps } }
      | none => { c with st := c.st.satInc .ripSchedRejCount }.reject .badDescriptor)

/-- Check 8 (R133). -/
def State.keyReady (s : State) (func t : Nat) : Bool :=
  s.keysAllowed &&
  (if t = tEncode then (s.activeKey func).isSome else (List.range 8).any (fun v => s.keyState func v ≠ keyEmpty))

/-- The nine checks in order. -/
def Check.run (c : Check) (lap : Nat) : Check :=
  let d := c.job.desc
  let t := c.job.type
  let f := c.job.func
  let req (st : Status) (ok : State → Job → Bool) (c : Check) : Check := if ok c.st c.job then c else c.reject st
  let c := req .badDescriptor (fun _ _ => 1 ≤ t && t ≤ 11 && (t ≠ tScrub || f = 0)) c
  let c := c.next (req .badDescriptor (fun _ _ => fieldAt d 2 1 % 16 == lap))
  let c := c.next (req .badDescriptor (fun s _ => reservedOk t d && s.fieldsOk f t d))
  let c := c.next (req .profileUnknown (fun s j => !stripeType t || (s.jobProfile j).isSome))
  let n := ((c.st.jobProfile c.job).map Profile.n).getD 0
  let c := c.next (fun c => (bufferPlan t).foldl (Check.walk n) c)
  let c := c.next (req .badDescriptor (fun s j => match s.jobProfile j with
    | some p => if stripeType t then j.stripeLimits p else j.plainLimits
    | none => j.plainLimits))
  let c := c.next (req .badAddress (fun s j => s.entriesAllowed j))
  let c := c.next (fun c => match c.st.jobProfile c.job with
    | some p => if t = tDecode || t = tRepair then c.schedule p else c
    | none => c)
  let c := c.next (req .keyUnavailable (fun s _ => !stripeType t || s.keyReady f t))
  if c.fail.isNone && t = tSeal && dLen d < c.st.epoch f then
    { c with st := c.st.satInc .sealEpochRejCount f }.reject .epochRegression
  else c

/-! ### A job starts -/

/-- Units of a job that has passed its checks (R75). -/
def State.jobUnits (s : State) (j : Job) : Nat :=
  match s.jobProfile j with
  | some p =>
    if j.type = tEncode || j.type = tDecode then p.stripes (dLen j.desc) (dS j.desc)
    else if stripeType j.type then dCount j.desc
    else plainUnits j.type j.desc
  | none => plainUnits j.type j.desc

/-- Everything of the job has ended (R82): only its receipt and its completion remain. -/
def Job.close (j : Job) : Job := { j with stage := .closing, stopped := true }

/-- DECODE and REPAIR without a schedule are planned by the engine before any stripe starts (R56, R408). -/
def State.planJob (s : State) (j : Job) : State × Job :=
  match s.jobProfile j with
  | none => (s, j)
  | some p =>
    if (j.type = tDecode || j.type = tRepair) && (j.buf 96).isEmpty then
      let wanted := j.wanted p
      if wanted.isEmpty then (s, j)
      else
        let pl := p.planSets j.given.contains wanted.contains
        if pl.decodable then (s, { j with sched := pl.steps })
        else
          let (s, j) := s.condition j { unit := noUnit, status := Status.notDecodable.code, shard := noShard }
          (s, j.close)
    else (s, j)

/-- Bytes written at OUT by the job unit, Dredge or the security controller; they wait for their durability point. -/
def State.writeOut (s : State) (j : Job) (o port : Nat) (bytes : List Byte) : State × Job :=
  let t : TaskIo := { st := s, func := j.func, port, out := port, ext := [] }
  let (t, r) := t.write { unit := 0, written := true } (j.buf o) 0 bytes
  (t.st.issueFlushes j r, { j with outRun := some r })

/-- Unit 0 of a job without tasks is issued (R118). -/
def State.issueOne (s : State) (j : Job) : State × Job :=
  ((s.recIssue j.ring j.slot 0).recState j.ring j.slot jRunning, { j with issued := 1 })

/-- A QUERY runs (R97). One whose record cannot be read ends with MEMORY_UNCORRECTABLE (R11). -/
def State.runQuery (s : State) (j : Job) : State × Job :=
  let ring := fieldAt j.desc 32 2
  let slot := fieldAt j.desc 34 2
  let gen := fieldAt j.desc 36 1 % 16
  let (s, j) := s.issueOne { j with stage := .signing }
  match (s.ringPair j.func ring).filter (fun q => slot < s.ringSize q) with
  | none => s.writeOut j 80 55 (fitBytes 704 (leBytes 2 slot))
  | some q =>
    let bytes := s.queryBytes q slot gen
    let bad := s.recBad q slot
    let s := s.recFetch q slot
    if bad then
      let (s, j) := s.condition j { unit := noUnit, status := Status.memoryUncorrectable.code, shard := noShard }
      (s, j.close)
    else s.writeOut j 80 55 bytes

/-- A SCRUB joins Dredge's passes (R286). -/
def State.startScrub (s : State) (j : Job) : State :=
  let d := j.desc
  let p := passOf .scrub j.ring j.slot (fieldAt d 48 1) (fieldAt d 32 8) (fieldAt d 40 8) s.timer
  { s with dredge := { s.dredge with passes := s.dredge.passes ++ [p] } }

/-- A job that no FENCE holds starts (R90). -/
def State.startJob (s : State) (j : Job) : State :=
  let j := { j with stage := .started }
  let (s, j) := match j.type with
    | 8 | 10 => (s, j)
    | 9 => s.runQuery j
    | 11 => ((s.startScrub j).recState j.ring j.slot jRunning, j)
    | _ => (s.recState j.ring j.slot jRunning).planJob j
  s.putJob j

/-- Is a FENCE of the ring incomplete (R91)? -/
def State.fenceOpen (s : State) (q : Nat) : Bool := (s.jobsOf q).any (fun j => j.type == tFence)

/-- The jobs that a FENCE held start, in order of fetch, up to the next FENCE (R91). -/
def State.releaseFence (s : State) (q : Nat) : State :=
  let held := (s.jobsOf q).filter (fun j => decide (j.stage = .held))
  held.foldl (fun s j =>
    if (s.jobsOf q).any (fun f => f.type == tFence && seqBefore f.fetchSeq j.fetchSeq) then s else s.startJob j) s

/-! ### Fetch and arrival -/

/-- A descriptor is fetched (R69, R96, R197). -/
def State.fetchDescriptor (s : State) (q : Nat) : State :=
  let size := s.ringSize q
  if !s.fetchWanted q || size - 1 ≤ s.outstanding q || s.nextTag.isNone then s
  else
    let slot := s.get .jobRqSqHead q
    let lap := s.get .jobRqSqLap q
    let seq := s.jobUnit.nextSeq
    let base := s.get .jobRqSqbaseLoAddr q * 4096 + s.get .jobRqSqbaseHiAddr q * 2 ^ 32
    let func := s.ringFunc q
    let wrap := size ≤ slot + 1
    let s := s.set .jobRqSqHead (if wrap then 0 else slot + 1) q
    let s := if wrap then s.wrapInc .jobRqSqLap q else s
    let s := { s with jobUnit := { s.jobUnit with nextSeq := (seq + 1) % 2 ^ 32 } }
    let r := s.ring q
    let s := s.setRing q { r with fetches := r.fetches ++ [{ slot, gen := lap, seq }] }
    let s := (s.recOpen q slot lap seq).issueRead func (base + 128 * slot) 128 false (.descriptor q slot)
    (s.count 0x06 0 func).showRing q

/-- DESCRIPTOR_FETCH (R69). -/
def execDescriptorFetch (q : Nat) (s : State) : Host.Outcome State Fault Refusal :=
  whenWf "DESCRIPTOR_FETCH" (Instr.wf (.descriptorFetch q)) (s.fetchDescriptor q)

/-- The ring's oldest descriptor on its way that `which` slot names, taken. -/
def State.takeFetch (s : State) (q : Nat) (which : Nat → Bool := fun _ => true) : Option (State × Fetch) :=
  match (s.ring q).fetches.find? (fun f => which f.slot) with
  | none => none
  | some f => some (s.setRing q { s.ring q with fetches := (s.ring q).fetches.erase f }, f)

def newJob (s : State) (q : Nat) (f : Fetch) (desc : List Byte) : Job :=
  { ring := q, slot := f.slot, gen := f.gen, func := s.ringFunc q, type := fieldAt desc 0 1, desc, fetchSeq := f.seq,
    units := 0 }

/-- A job that ends before it starts: its one condition is recorded, and its completion remains (R81). -/
def State.rejectJob (s : State) (j : Job) (st : Status) : State :=
  let (s, j) := s.condition j { unit := noUnit, status := st.code, shard := noShard }
  (s.addJob j.close).showRing j.ring

/-- A job whose descriptor was on its way when all work stopped: what it becomes (R187, R302, R325). -/
def State.lateStop (s : State) (j : Job) : Option Job :=
  if s.shutdown then some (j.stop .thermalAbort 0)
  else if s.fatal then some (j.stop .partial_ 1)
  else if s.d3hot then some (j.stop .cancelled 0)
  else none

/-- A descriptor's bytes arrive (R81): the checks, then the start or the wait behind a FENCE. -/
def State.arrive (s : State) (q : Nat) (desc : List Byte) (ext : List Fetched) : State :=
  match s.takeFetch q with
  | none => s
  | some (s, f) =>
    let s := s.recDescribe q f.slot desc 0
    let c := ({ st := s, ext, job := newJob s q f desc } : Check).run f.gen
    match c.fail with
    | some st => c.st.rejectJob { c.job with bufs := [], tables := [] } st
    | none =>
      let s := c.st
      let j := { c.job with units := s.jobUnits c.job }
      let (s, j) := if j.type = tEncode then
          (match s.takeSnapshot j.func with
            | some (s, snap) => (s, { j with snap := some snap, keys := [snap.slot] })
            | none => (s, j))
        else (s, j)
      let s := s.recWrite q f.slot 8 (leBytes 4 j.units)
      match s.lateStop j with
      | some j => (s.addJob j.close).showRing q
      | none =>
        let held := s.fenceOpen q
        let s := s.addJob { j with stage := if held then .held else .started }
        (if held then s else s.startJob j).showRing q

/-- A descriptor's fetch fails (R81): that of a slot, or the ring's oldest. -/
def State.fetchFail (s : State) (q : Nat) (which : Nat → Bool := fun _ => true) : State :=
  match s.takeFetch q which with
  | none => s
  | some (s, f) => s.rejectJob (newJob s q f (zeros 128)) .hostDmaError

/-- DESCRIPTOR_FETCH_FAIL (R81). -/
def execDescriptorFetchFail (q : Nat) (why : DmaFail) (s : State) : Host.Outcome State Fault Refusal :=
  whenWf "DESCRIPTOR_FETCH_FAIL" (Instr.wf (.descriptorFetchFail q why)) (s.fetchFail q)

/-- DESCRIPTOR_TYPE_UNDEFINED (R75): the first check fails. -/
def execDescriptorTypeUndefined (q : Nat) (desc : List Byte) (s : State) : Host.Outcome State Fault Refusal :=
  whenWf "DESCRIPTOR_TYPE_UNDEFINED" (Instr.wf (.descriptorTypeUndefined q desc)) (s.arrive q desc [])

/-- COPY (R77). -/
def execCopy (q : Nat) (desc : List Byte) (fetched : List Fetched) (s : State) : Host.Outcome State Fault Refusal :=
  whenWf "COPY" (Instr.wf (.copy q desc fetched)) (s.arrive q desc fetched)

/-- HASH (R77). -/
def execHash (q : Nat) (desc : List Byte) (fetched : List Fetched) (s : State) : Host.Outcome State Fault Refusal :=
  whenWf "HASH" (Instr.wf (.hash q desc fetched)) (s.arrive q desc fetched)

/-- ENCODE (R76). -/
def execEncode (q : Nat) (desc : List Byte) (fetched : List Fetched) (s : State) : Host.Outcome State Fault Refusal :=
  whenWf "ENCODE" (Instr.wf (.encode q desc fetched)) (s.arrive q desc fetched)

/-- DECODE (R76). -/
def execDecode (q : Nat) (desc : List Byte) (fetched : List Fetched) (s : State) : Host.Outcome State Fault Refusal :=
  whenWf "DECODE" (Instr.wf (.decode q desc fetched)) (s.arrive q desc fetched)

/-- REPAIR (R76). -/
def execRepair (q : Nat) (desc : List Byte) (fetched : List Fetched) (s : State) : Host.Outcome State Fault Refusal :=
  whenWf "REPAIR" (Instr.wf (.repair q desc fetched)) (s.arrive q desc fetched)

/-- VERIFY (R76). -/
def execVerify (q : Nat) (desc : List Byte) (fetched : List Fetched) (s : State) : Host.Outcome State Fault Refusal :=
  whenWf "VERIFY" (Instr.wf (.verify q desc fetched)) (s.arrive q desc fetched)

/-- PLAN (R77). -/
def execPlan (q : Nat) (desc : List Byte) (fetched : List Fetched) (s : State) : Host.Outcome State Fault Refusal :=
  whenWf "PLAN" (Instr.wf (.plan q desc fetched)) (s.arrive q desc fetched)

/-- SEAL (R77). -/
def execSeal (q : Nat) (desc : List Byte) (fetched : List Fetched) (s : State) : Host.Outcome State Fault Refusal :=
  whenWf "SEAL" (Instr.wf (.seal q desc fetched)) (s.arrive q desc fetched)

/-- QUERY (R97). -/
def execQuery (q : Nat) (desc : List Byte) (fetched : List Fetched) (s : State) : Host.Outcome State Fault Refusal :=
  whenWf "QUERY" (Instr.wf (.query q desc fetched)) (s.arrive q desc fetched)

/-- FENCE (R91). -/
def execFence (q : Nat) (desc : List Byte) (fetched : List Fetched) (s : State) : Host.Outcome State Fault Refusal :=
  whenWf "FENCE" (Instr.wf (.fence q desc fetched)) (s.arrive q desc fetched)

/-- SCRUB (R77). -/
def execScrub (q : Nat) (desc : List Byte) (fetched : List Fetched) (s : State) : Host.Outcome State Fault Refusal :=
  whenWf "SCRUB" (Instr.wf (.scrub q desc fetched)) (s.arrive q desc fetched)

end Sys2Proof.Machine
end

