-- ==== Sys2Proof/Machine/TaskReads.lean ====
section
/-! DEFINITION. What the tasks of a job are (R104, R105, R107) and what each of them reads (R58, R64, R105, R114, R128). -/

namespace Sys2Proof.Machine

/-! ### Kinds and sizes (R104, R105, R107) -/

def kStripe : Nat := 1
def kVerify : Nat := 2
def kDigest : Nat := 3
def kCopy : Nat := 4
def kPlan : Nat := 5

/-- Bytes of a digest segment (R105). -/
def segBytes : Nat := 4 * mib

/-- Object bytes the job's digest covers (R134). -/
def Job.digestLen (j : Job) : Nat := dLen j.desc

/-- Number of digest segments: one even for no bytes. -/
def Job.segments (j : Job) : Nat :=
  if j.type = tHash || j.type = tEncode || j.type = tDecode then max 1 (ceilDiv j.digestLen segBytes) else 0

/-- Units that one task of the job takes: 64 entries of a PLAN (R104). -/
def Job.batch (j : Job) (u : Nat) : Nat := if j.type = tPlan then min 64 (j.units - u) else 1

/-! ### Stripes -/

/-- What a stripe task works on. -/
structure Stripe where
  p    : Profile
  j    : Nat        -- stripe index
  full : Nat        -- S
  size : Nat        -- S_j
  len  : Nat        -- B
  id   : List Byte

def State.stripeOf (s : State) (j : Job) (u : Nat) : Option Stripe :=
  (s.jobProfile j).map (fun p =>
    let n := dFirst j.desc + u
    { p, j := n, full := dS j.desc, size := p.stripeSize (dLen j.desc) (dS j.desc) n, len := dLen j.desc, id := dObjId j.desc })

/-- Where the stripe's shard starts in every shard buffer (R80). -/
def Stripe.at (x : Stripe) : Nat := x.j * (x.full + 64)

/-- The object bytes of the stripe: where they start and how many there are. -/
def Stripe.start (x : Stripe) : Nat := x.j * (x.p.k * x.full)
def Stripe.bytes (x : Stripe) : Nat := min (x.p.k * x.size) (x.len - x.start)

/-- The shards a job reads (R58). -/
def State.readSet (j : Job) (p : Profile) : List Nat :=
  let given := j.given
  if j.type = tVerify then given
  else
    let used := (j.sched.map p.stepSources).flatten
    given.filter (fun c => used.contains c || (j.type == tDecode && c < p.k))

/-! ### The reads of a task -/

/-- The ranges of buffers that a task reads, in reading order. -/
def State.taskRanges (s : State) (j : Job) (t : Token) : List (Buffer × Nat × Nat) :=
  if t.kind = kDigest then
    let off := t.unit * segBytes
    (j.buf (if j.type = tDecode then 80 else 64), off, min segBytes (j.digestLen - off)) ::
      (if j.type = tDecode && j.segments ≤ t.unit + 1 then [(j.buf 112, 0, digestLen j.desc)] else [])
  else if t.kind = kCopy then [(j.buf 64, t.unit * mib, min mib (dLen j.desc - t.unit * mib))]
  else if t.kind = kPlan then (List.range (j.batch t.unit)).map (fun i => (j.buf 64, 80 * (t.unit + i), 80))
  else match s.stripeOf j t.unit with
    | none => []
    | some x =>
      if j.type = tEncode then [(j.buf 64, x.start, x.bytes)]
      else (State.readSet j x.p).map (fun c => ((j.table 64).getD c [], x.at, x.size + 64))

/-- The parts of what a task reads that lie outside the device, in reading order. -/
def State.taskParts (s : State) (j : Job) (t : Token) : List (BufEntry × Nat × Nat) :=
  ((s.taskRanges j t).flatMap (fun r => bufParts r.1 r.2.1 r.2.2)).filter (fun x => x.1.space ≠ spaceBasin)

/-- A task starts on engine `e`: the requests of its reads outside the device leave or wait for their tags (R197). -/
def State.startReads (s : State) (e : Nat) (t : Token) : State :=
  match (s.findJob t.ring t.slot).filter (fun j => j.gen == t.jgen) with
  | none => s
  | some j =>
    (s.taskParts j t).zipIdx.foldl (fun s x =>
      s.readStart j.func (x.1.1.addr + x.1.2.1) x.1.2.2 (x.1.1.space == spacePeer) x.1.1.ns e (t.kind == kDigest) x.2) s

/-- The reads of an engine's tasks serve no unit any more (R201). -/
def State.dropReads (s : State) (e : Nat) (which : Bool → Bool) : State :=
  let s := s.orphanReads (taskOf e which)
  { s with pcie := { s.pcie with lost := s.pcie.lost.filter (fun x => !taskOf e which x) } }

end Sys2Proof.Machine
end

