-- ==== Sys2Proof/Machine/Engines.lean ====
section
/-! DEFINITION. Ponds, deques and engines (05_engines.md): pushing, popping, stealing, fencing, requeues and self-tests. -/

namespace Sys2Proof.Machine

/-! ### Ponds and engines -/

def State.pond (s : State) (p : Nat) : Pond := (assoc s.ponds.ponds p).getD {}

/-- A pond's deque set; DEPTH and MAXDQ follow (R121). -/
def State.setPond (s : State) (p : Nat) (x : Pond) : State :=
  let s := { s with ponds := { s.ponds with ponds := assocPut s.ponds.ponds p x } }
  (s.set .engPondDqDepth x.deque.length p).raiseMax .engPondMaxdqMax x.deque.length p

def State.engine (s : State) (e : Nat) : Engine := (assoc s.ponds.engines e).getD {}

def State.setEngine (s : State) (e : Nat) (x : Engine) : State :=
  { s with ponds := { s.ponds with engines := assocPut s.ponds.engines e x } }

def engOff : Nat := 0
def engIdle : Nat := 1
def engBusy : Nat := 2
def engFenced : Nat := 3
def engTesting : Nat := 4
def engOffline : Nat := 5

def State.engState (s : State) (e : Nat) : Nat := s.get .engStateState e

/-- IDLE or BUSY (R122). -/
def State.engOnline (s : State) (e : Nat) : Bool := s.engState e == engIdle || s.engState e == engBusy

/-- ENG_STATUS (R122). -/
def State.showEngines (s : State) : State :=
  let n (p : Nat → Bool) : Nat := (rangeWith 48 (fun e => p (s.engState e))).length
  ((s.set .engStatusOnline (n (fun x => x == engIdle || x == engBusy))).set .engStatusFenced
    (n (fun x => x == engFenced || x == engTesting))).set .engStatusOffline (n (· == engOffline))

def State.setEngState (s : State) (e st : Nat) : State := (s.set .engStateState st e).showEngines

/-! Power domains of engines and ponds (R19, R308, R309): 0 OFF, 1 WAKING, 2 ON, 3 DRAINING. -/

def domOff : Nat := 0
def domWaking : Nat := 1
def domOn : Nat := 2
def domDraining : Nat := 3

def State.dom (s : State) (d : Nat) : Nat := s.get .pwrDomState d

def State.setDom (s : State) (d st : Nat) : State := s.set .pwrDomState st d

/-- A domain that is off starts to wake (R309). -/
def State.wakeDom (s : State) (d : Nat) : State :=
  if s.dom d = domOff then (s.setDom d domWaking).satInc .pwrWakeCount d else s

/-- An engine's domain is off: its scratch and its Eddy windows are lost (R308). -/
def State.engineDown (s : State) (e st : Nat) : State :=
  let s := { s with
    scratch := s.scratch.filter (fun c => c.1 / 524288 ≠ e), eddies := s.eddies.filter (fun x => x.1 / 4 ≠ e)
    stalls := s.stalls.filter (fun x => x.engine ≠ e) }
  ((s.setEngine e { s.engine e with testDue := false }).setDom e domOff).setEngState e st

/-- An engine leaves once its current tasks have ended: its domain drains (R309), or OFFLINE_REQ is 1 (R120). -/
def State.offlineCheck (s : State) (e : Nat) : State :=
  if !s.engOnline e || !(s.engine e).tasks.isEmpty then s
  else if s.dom e = domDraining then s.engineDown e engOff
  else if s.flag .engCtrlOfflineReq e then s.engineDown e engOffline
  else s

/-- IDLE or BUSY by the tasks it holds. -/
def State.showBusy (s : State) (e : Nat) : State :=
  if s.engOnline e then s.setEngState e (if (s.engine e).tasks.isEmpty then engIdle else engBusy) else s

/-- Is the pond's fabric domain on (R19, R308: domains 48 to 53)? -/
def State.pondOn (s : State) (p : Nat) : Bool := s.dom (48 + p) == domOn

/-- Can entries still be taken from the pond's deque: its fabric is on, or draining (R19)? -/
def State.pondServes (s : State) (p : Nat) : Bool := 2 ≤ s.dom (48 + p)

/-- The pond itself or the next powered one in ascending order, wrapping (R106). -/
def State.poweredPond (s : State) (p : Nat) : Nat :=
  ((((List.range 6).map (fun i => (p + i) % 6)).find? s.pondOn)).getD (p % 6)

/-- A job's entries on every deque. -/
def State.entriesOf (s : State) (q slot : Nat) : Nat :=
  ((List.range 6).map (fun p => ((s.pond p).deque.filter (fun t => t.ring == q && t.slot == slot)).length)).foldl (· + ·) 0

/-- A job's tasks running on engines, or fenced with one and not yet requeued. -/
def State.tasksOf (s : State) (q slot : Nat) : List Running :=
  let mine (r : Running) : Bool := r.tok.ring == q && r.tok.slot == slot
  ((List.range 48).map (fun e => (s.engine e).tasks.filter mine ++ (s.engine e).fenced.filter mine)).flatten

/-- Tokens of a job that `which` names are removed from every deque. -/
def State.dropTokensWith (s : State) (q slot : Nat) (which : Token → Bool) : State :=
  (List.range 6).foldl (fun s p =>
    let x := s.pond p
    let l := x.deque.filter (fun t => !(t.ring == q && t.slot == slot && which t))
    if l.length = x.deque.length then s else s.setPond p { x with deque := l }) s

/-- A job's tokens are removed from every deque (R93, R112). -/
def State.dropTokens (s : State) (q slot : Nat) : State := s.dropTokensWith q slot (fun _ => true)

/-- Is a stripe's or a verify task's token of unit `u` on a deque or on an engine? -/
def State.unitAlive (s : State) (q slot u : Nat) : Bool :=
  let mine (t : Token) : Bool := t.ring == q && t.slot == slot && t.unit == u && t.kind ≤ 2
  (List.range 6).any (fun p => (s.pond p).deque.any mine) || (s.tasksOf q slot).any (fun r => mine r.tok)

/-- Units whose task has gone and that nothing can finish any more are given up, without a done bit (R112). -/
def State.pruneRuns (s : State) (j : Job) : Job :=
  { j with runs := j.runs.filter (fun r => (r.written && r.verify ≠ 2) || s.unitAlive j.ring j.slot r.unit) }

/-- A job's running tasks end without done bits (R93, step 2); their results are stale from then on. -/
def State.dropTasks (s : State) (q slot : Nat) : State :=
  let mine (r : Running) : Bool := r.tok.ring == q && r.tok.slot == slot
  (List.range 48).foldl (fun s e =>
    let x := s.engine e
    let out := x.tasks.filter mine
    if out.isEmpty && !x.fenced.any mine then s
    else (((s.dropReads e (fun d => out.any (·.digest == d))).setEngine e { x with
      tasks := x.tasks.filter (fun r => !mine r), fenced := x.fenced.filter (fun r => !mine r)
      stale := x.stale ++ out.map (fun r => (r, false)) }).showBusy e).offlineCheck e) s

/-! ### Pushing (R104 to R106) -/

/-- Has the stripe's task ended, its outputs written? -/
def Job.decoded (j : Job) (u : Nat) : Bool :=
  u < j.progress || j.doneSet.contains u || j.runs.any (fun r => r.unit == u && r.written)

/-- May segment `i` be pushed (R105)? A DECODE's waits for every stripe that holds bytes of it. -/
def Job.segmentReady (j : Job) (p : Option Profile) (i : Nat) : Bool :=
  if j.type ≠ tDecode then true
  else match p with
    | none => false
    | some p =>
      let span := p.k * dS j.desc
      let last := min j.digestLen ((i + 1) * segBytes) - 1
      (List.range (last / span + 1)).all (fun u => u < i * segBytes / span || j.decoded u)

/-- The unit run of a job. -/
def Job.run (j : Job) (u : Nat) : Option UnitRun := j.runs.find? (·.unit == u)

def Job.setRun (j : Job) (r : UnitRun) : Job :=
  if j.runs.any (·.unit == r.unit) then { j with runs := j.runs.map (fun x => if x.unit == r.unit then r else x) }
  else { j with runs := j.runs ++ [r] }

def Job.dropRun (j : Job) (u : Nat) : Job := { j with runs := j.runs.filter (·.unit ≠ u) }

/-- The verify task of a unit that the engines `which` names encoded and that is to be pushed (R114, R115). The spec gives no
TOKGEN for the verify token of a second encode: it is a first push, 0 (DEDUCED from R107, log entry 63). -/
def Job.verifyToken (j : Job) (which : Nat → Bool) : Option Token :=
  (j.runs.find? (fun r => r.verify == 1 && which r.engine)).map (fun r =>
    { ring := j.ring, slot := j.slot, jgen := j.gen, kind := kVerify, unit := r.unit, excl := r.engine,
      excl2 := r.firstEnc })

/-- The next digest segment's token. -/
def Job.digestToken (j : Job) (p : Option Profile) : Option Token :=
  if j.dpushed || j.segments ≤ j.dseg || j.stopped || !j.segmentReady p j.dseg then none
  else some { ring := j.ring, slot := j.slot, jgen := j.gen, kind := kDigest, unit := j.dseg }

/-- The next unit's token: within the window of R86. HASH, and types without tasks, have none. -/
def Job.unitToken (j : Job) : Option Token :=
  let u := j.issued
  let kind := if j.type = tCopy then kCopy else if j.type = tPlan then kPlan else kStripe
  if j.stopped || j.type = tHash || tSeal ≤ j.type || j.units ≤ u || j.progress + 4096 < u + j.batch u then none
  else some { ring := j.ring, slot := j.slot, jgen := j.gen, kind, unit := u }

/-- The token a job would push onto pond `p` now: a verify task, then a digest segment, then a unit (log entry 22). -/
def State.nextToken (s : State) (j : Job) (p : Nat) : Option Token :=
  if decide (j.stage ≠ .started) then none
  else
    let home := s.poweredPond (s.get .jobRqCfgHomePond j.ring)
    match j.verifyToken (fun e => s.poweredPond (e / 8 + 1) == p) with
    | some t => some t
    | none =>
      if home ≠ p then none
      else match j.digestToken (s.jobProfile j) with
        | some t => some t
        | none => j.unitToken

/-- The push is noted in the job and, for units, in the journal first (R106, R118). -/
def State.notePush (s : State) (j : Job) (t : Token) : State × Job :=
  if t.kind = kVerify then
    (s, match j.run t.unit with
      | some r => j.setRun { r with verify := 2 }
      | none => j)
  else if t.kind = kDigest then
    let (s, j) := if j.type = tHash && t.unit = 0 then s.issueOne j else (s, j)
    (s, { j with dpushed := true })
  else
    let n := j.batch t.unit
    ((List.range n).foldl (fun s i => s.recIssue j.ring j.slot (t.unit + i)) s, { j with issued := t.unit + n })

/-- A job in its place among jobs in order of fetch, FETCH_SEQ counted from `base`, modulo 2^32 (R117). -/
def insertSeq (base : Nat) (j : Job) : List Job → List Job
  | [] => [j]
  | k :: rest =>
    if (j.fetchSeq + 2 ^ 32 - base) % 2 ^ 32 ≤ (k.fetchSeq + 2 ^ 32 - base) % 2 ^ 32 then j :: k :: rest
    else k :: insertSeq base j rest

/-- Jobs in rotation: those fetched after the one served last, in order of fetch, then from the first (R106). `next` is the
next FETCH_SEQ to be given. -/
def rotate (last : Option Nat) (next : Nat) (js : List Job) : List Job :=
  let all := js.foldr (insertSeq next) []
  match last with
  | none => all
  | some k => all.filter (fun j => seqBefore k j.fetchSeq) ++ all.filter (fun j => !seqBefore k j.fetchSeq)

/-- May work start on engines: READY and no stop (R173, R187, R302, R325)? -/
def State.working (s : State) : Bool := s.ready && !s.inHold && !s.shutdown && !s.fatal && !s.d3hot

/-- The job unit serves pond `p`'s deque (R106). -/
def State.taskPush (s : State) (p : Nat) : State :=
  let x := s.pond p
  if !s.working || !s.pondOn p || 496 ≤ x.deque.length then s
  else
    let cap := s.get .engCfgJobTaskCap
    let may (j : Job) : Bool := (s.nextToken j p).isSome && s.entriesOf j.ring j.slot < cap
    match (rotate (assoc s.jobUnit.served p) s.jobUnit.nextSeq s.jobUnit.jobs).find? may with
    | none => s
    | some j =>
      match s.nextToken j p with
      | none => s
      | some t =>
        let (s, j) := s.notePush j t
        let s := s.putJob j
        let s := { s with jobUnit := { s.jobUnit with served := assocPut s.jobUnit.served p j.fetchSeq } }
        s.setPond p { x with deque := x.deque ++ [t.marked] }

/-- TASK_PUSH (R106). -/
def execTaskPush (p : Nat) (s : State) : Host.Outcome State Fault Refusal :=
  whenWf "TASK_PUSH" (Instr.wf (.taskPush p)) (s.taskPush p)

/-! ### Containment of a pond (R112) -/

/-- A job that held entries or tasks of a contained pond stops (R88, R112). -/
def State.containJob (s : State) (q slot : Nat) : State :=
  match s.findJob q slot with
  | none => s
  | some j =>
    let s := s.dropTokens q slot
    let (s, j) := s.stopJob j .partial_ 1
    s.putJob (s.pruneRuns j)

/-- A pond is contained (R112): its deque is emptied, its running tasks end without done bits. -/
def State.containPond (s : State) (p : Nat) : State :=
  let x := s.pond p
  let running := ((List.range 8).map (fun k => (s.engine (8 * p + k)).tasks ++ (s.engine (8 * p + k)).fenced)).flatten
  let hit := (x.deque ++ running.map (·.tok)).map (fun t => (t.ring, t.slot))
  let s := s.setPond p { x with deque := [] }
  let s := (List.range 8).foldl (fun s k =>
    let e := s.engine (8 * p + k)
    (((s.dropReads (8 * p + k) (fun _ => true)).setEngine (8 * p + k) { e with
      tasks := [], fenced := [], stale := e.stale ++ e.tasks.map (fun r => (r, false)) }).showBusy (8 * p + k)).offlineCheck
        (8 * p + k)) s
  hit.foldl (fun s h => s.containJob h.1 h.2) s

/-- A pond's own fault (R112, R320): reported and contained. `arg` 1 CHECK, 2 fabric. -/
def State.pondFault (s : State) (p arg : Nat) : State :=
  (s.report { cls := .u, source := evPondErr p, arg }).containPond p

/-! ### Popping and stealing (R108, R109) -/

/-- Do EXCL and EXCL2 together name every online engine? -/
def State.allExcluded (s : State) (t : Token) : Bool :=
  (List.range 48).all (fun e => !s.engOnline e || e == t.excl || e == t.excl2)

/-- May engine `e`, whose coding slot is free, run the entry? -/
def State.mayRun (s : State) (e : Nat) (t : Token) : Bool :=
  (t.kind ≠ kDigest || !((s.engine e).tasks.any (·.digest))) &&
  ((t.excl ≠ e && t.excl2 ≠ e) || s.allExcluded t)

/-- Has engine `e` a free coding slot, and may it pop? -/
def State.mayPop (s : State) (e : Nat) : Bool :=
  s.working && s.engOnline e && s.dom e == domOn && !s.flag .engCtrlOfflineReq e && (s.engine e).tasks.all (·.digest)

/-- An engine pops the first entry it can run, and its task starts (R107, R108). -/
def State.taskPop (s : State) (e : Nat) (checkOk : Bool) : State :=
  let p := e / 8
  let x := s.pond p
  if !s.mayPop e then s
  else match x.deque.find? (s.mayRun e) with
    | none => s
    | some t =>
      if !checkOk || !t.good then s.pondFault p 1
      else
        let s := s.setPond p { x with deque := x.deque.erase t }
        let g := s.engine e
        let s := s.setEngine e { g with tasks := g.tasks ++ [{ tok := t, pond := p, digest := t.kind == kDigest }] }
        let same := t.kind == kVerify && (match s.findJob t.ring t.slot with
          | some j => (j.run t.unit).any (fun r => r.engine == e)
          | none => false)
        ((if same then s.satInc .engVaeSameCount else s).showBusy e).startReads e t

/-- TASK_POP (R108). -/
def execTaskPop (engine : Nat) (checkOk : Bool) (s : State) : Host.Outcome State Fault Refusal :=
  whenWf "TASK_POP" (Instr.wf (.taskPop engine checkOk)) (s.taskPop engine checkOk)

/-- A pond's temperature in 0.125 °C (R109, R294). With both its sensors FAILED the spec names none: GOV of L0 stands for it
(DESIGN CHOICE, log entry 63). -/
def State.pondTemp (s : State) (p : Nat) : Int :=
  if s.flag .thmLayerGSuspect 0 then sint16 (s.get .thmLayerGGov 0)
  else
    let t (k : Nat) : Option Int := if s.flag .thmSensFailed k then none else some (sint16 (s.get .thmSensTemp k))
    match t (2 * p), t (2 * p + 1) with
    | some a, some b => max a b
    | some a, none => a
    | none, some b => b
    | none, none => sint16 (s.get .thmLayerGGov 0)

/-- The visits of one thief, victim by victim (R109). -/
def State.stealFrom (s : State) (thief : Nat) (checkOk : Bool) : List Nat → State
  | [] => s
  | i :: rest =>
    let x := s.pond thief
    let v := (thief + x.rot + i) % 6
    if !s.pondServes v || !s.flag .engPondCtrlStealEn v || !s.flag .engPondCtrlStealEn thief then s.stealFrom thief checkOk rest
    else if s.pondTemp v < s.pondTemp thief - 4 * s.get .engCfgStealTdelta then
      (s.wrapInc .engPondSkipsCount v).stealFrom thief checkOk rest
    else
      let y := s.pond v
      let c := y.deque.length
      let take := min ((c + 1) / 2) 8
      if c = 0 then s.stealFrom thief checkOk rest
      else if !checkOk || !(y.deque.drop (c - take)).all Token.good then s.pondFault v 1
      else
        let s := s.setPond v { y with deque := y.deque.take (c - take) }
        let s := s.setPond thief { x with deque := x.deque ++ y.deque.drop (c - take), rot := (x.rot + i) % 6 }
        ((s.wrapInc .engPondStealsCount thief 0 take).wrapInc .engPondStolenCount v 0 take).count 0x08 4 thief take

/-- A pond visits victims (R109): its deque is empty and one of its engines has a free coding slot. -/
def State.stealVisit (s : State) (p : Nat) (checkOk : Bool) : State :=
  if !s.pondOn p || !(s.pond p).deque.isEmpty || !((List.range 8).any (fun k => s.mayPop (8 * p + k))) then s
  else s.stealFrom p checkOk [1, 2, 3, 4, 5]

/-- STEAL_VISIT (R109). -/
def execStealVisit (pond : Nat) (checkOk : Bool) (s : State) : Host.Outcome State Fault Refusal :=
  whenWf "STEAL_VISIT" (Instr.wf (.stealVisit pond checkOk)) (s.stealVisit pond checkOk)

/-! ### Fencing (R110 to R112) -/

def causeDeadline : Nat := 1
def causeVae : Nat := 6
def causeSelftest : Nat := 7

/-- LAST_CAUSE of an engine's own error (R120). -/
def engineErrorCode : EngineError → Nat
  | .checkLane => 2 | .scratchParity => 3 | .coreMismatch => 4 | .knownAnswer => 5

/-- An engine is fenced (R111, R112): both its tasks with it, and what they stalled on. One that is not IDLE or BUSY any more,
when a mismatch of what it encoded is found (R115), keeps its STATE, LAST_CAUSE and count (DESIGN CHOICE, log entry 63). -/
def State.fenceEngine (s : State) (e cause : Nat) : State :=
  if !s.engOnline e then s
  else
    let x := s.engine e
    let s := s.setEngine e { x with
      tasks := [], fenced := x.fenced ++ x.tasks, stale := x.stale ++ x.tasks.map (fun r => (r, true))
      fences := (s.aonTime :: x.fences).take 15 }
    let s := { s.dropReads e (fun _ => true) with stalls := s.stalls.filter (fun y => y.engine ≠ e) }
    let s := (s.setEngState e engFenced).set .engStateLastCause cause e
    let s := (s.satInc .engFencesCount e).count 0x08 5 e
    (s.report { cls := .c, source := evEngErr e, arg := cause }).raise evEngFence 0xFF e

/-- A deadline expires (R110, R111). The timer stands still in thermal shutdown and while the engine's Weir holds its port
(R110), and while Bus Master Enable of the job's function is 0 (R194). -/
def State.taskDeadline (s : State) (e : Nat) (digest : Bool) : State :=
  if (s.engine e).tasks.any (fun r => r.digest == digest && s.flag .cfgBme (s.ringFunc r.tok.ring)) && !s.shutdown
      && !(s.portHead e).any s.heldForToken then
    s.fenceEngine e causeDeadline
  else s

/-- TASK_DEADLINE (R110). -/
def execTaskDeadline (engine : Nat) (digest : Bool) (s : State) : Host.Outcome State Fault Refusal :=
  whenWf "TASK_DEADLINE" (Instr.wf (.taskDeadline engine digest)) (s.taskDeadline engine digest)

/-- ENGINE_INTERNAL_ERROR (R102, R111). -/
def execEngineInternalError (engine : Nat) (why : EngineError) (s : State) : Host.Outcome State Fault Refusal :=
  whenWf "ENGINE_INTERNAL_ERROR" (Instr.wf (.engineInternalError engine why)) (s.fenceEngine engine (engineErrorCode why))

/-- Which units a token stands for. -/
def Job.tokenUnits (j : Job) (t : Token) : List Nat :=
  if t.kind = kDigest then [] else (List.range (if t.kind = kPlan then j.batch t.unit else 1)).map (t.unit + ·)

/-- The first failing unit stops the start of further units for the types R75 marks (R89). -/
def stopsOnFail (t : Nat) : Bool := t == tCopy || t == tEncode || t == tDecode || t == tRepair

/-- After a failure of a unit or of the digest chain: further units of the types R75 marks do not start, and those that
still wait on a deque are removed (R89); a failed digest chain ends. -/
def State.afterFail (s : State) (j : Job) (digest : Bool) : State × Job :=
  let fresh (t : Token) : Bool := t.kind ≠ 2 && t.tokgen == 0
  if stopsOnFail j.type || digest then (s.dropTokensWith j.ring j.slot fresh, { j with stopped := true }) else (s, j)

/-- A unit fails (R12, R408). -/
def State.failUnit (s : State) (j : Job) (unit : Nat) (st : Status) (shard : Nat) : State × Job :=
  let (s, j) := s.condition j { unit, status := st.code, shard }
  s.afterFail (j.dropRun unit) (unit == noUnit)

/-! ### The end of a unit (R84, R85, R114) -/

/-- A unit is done once its outputs are durable and, where it is verified, its tags match. -/
def State.settleUnit (s : State) (j : Job) (r : UnitRun) : State × Job :=
  if r.durable && (r.verify == 0 || r.verify == 3) then
    let (s, j) := s.unitDone j r.unit
    (s, j.dropRun r.unit)
  else (s, j.setRun r)

/-- A unit's task has ended: its flushing reads are issued. A unit that wrote nothing is durable at once. -/
def State.endUnit (io : TaskIo) (j : Job) (r : UnitRun) : State × Job :=
  let s := io.st.issueFlushes j r
  s.settleUnit { j with corrected := j.corrected || io.corrected }
    { r with written := true, durable := r.ranges.isEmpty && r.flushes.isEmpty }

/-- One entry's record placed at its turn, or the end of RECORDS (R64, R88). -/
def State.planPlace (s : State) (j : Job) (e : Nat) (rec : List Byte × Bool) : State × Job :=
  let u := j.planNext
  let j := { j with planNext := u + 1 }
  if j.stopped then (s, j)
  else if bufLen (j.buf 80) < j.planOff + rec.1.length then
    (s.dropTokens j.ring j.slot).stopJob j .partial_ 3
  else
    let io := TaskIo.engine s j.func e []
    let (io, r) := io.write { unit := u, engine := e } (j.buf 80) j.planOff rec.1
    let j := { j with planOff := j.planOff + rec.1.length }
    if rec.2 then State.endUnit io j r else (io.st, j)

/-- Batches at their turn are placed; `fuel` bounds their number. -/
def State.planDrain : Nat → State → Job → Nat → State × Job
  | 0, s, j, _ => (s, j)
  | fuel + 1, s, j, e =>
    match j.planHeld.find? (fun h => h.1 == j.planNext) with
    | none => (s, j)
    | some h =>
      let j := { j with planHeld := j.planHeld.filter (fun x => x.1 ≠ h.1) }
      let (s, j) := h.2.foldl (fun (acc : State × Job) r => acc.1.planPlace acc.2 e r) (s, j)
      State.planDrain fuel s j e

/-- A PLAN batch that will never be placed leaves 64 bytes of 0x00 for each entry (log entry 23). -/
def Job.planGap (j : Job) (t : Token) : Job :=
  if t.kind = kPlan then { j with planHeld := j.planHeld ++ [(t.unit, (j.tokenUnits t).map (fun _ => (zeros 64, false)))] }
  else j

/-- A task is abandoned (R112): its unit fails with INTERNAL_FAULT, a class U fault. -/
def State.abandon (s : State) (t : Token) : State :=
  match s.findJob t.ring t.slot with
  | none => s
  | some j =>
    let s := (s.satInc .engTaskFailCount).report
      { cls := .u, source := evEngTaskFail, cause := causeTaskAbandoned, func := j.func, detail := t.ring + 2 ^ 8 * t.slot }
    let (s, j) := if t.kind = kDigest then s.failUnit j noUnit .internalFault noShard
      else (j.tokenUnits t).foldl (fun (acc : State × Job) u => acc.1.failUnit acc.2 u .internalFault noShard) (s, j)
    let j := j.planGap t
    let (s, j) := State.planDrain (j.planHeld.length + 1) s j t.excl
    s.putJob j

/-- One token of a fenced engine goes back (R111, step 3), or its task is abandoned (R112); of a job that a stop has reached
its unit is given up. -/
def State.requeue (s : State) (e : Nat) (r : Running) : State :=
  let t := { r.tok with tokgen := (r.tok.tokgen + 1) % 256, attempt := r.tok.attempt + 1, excl2 := r.tok.excl, excl := e }
  match s.findJob t.ring t.slot with
  | none => s
  | some j =>
    if j.halted then s.putJob (s.pruneRuns j)
    else if 3 ≤ t.attempt then s.abandon t
    else
      let p := s.pond r.pond
      ((s.setPond r.pond { p with deque := t.marked :: p.deque })).wrapInc .engRequeuesCount

/-- Requests of an engine that have left it and are not answered, or that wait at its port (R111, R113). -/
def State.engineQuiet (s : State) (e : Nat) : Bool :=
  s.readsOut e == 0 && !s.weirs.queue.any (fun r => r.port == e)

/-- A fenced engine's requests have drained (R111). Of its two tokens the one popped later ends at the head; the spec gives no
order (DESIGN CHOICE, log entry 63). -/
def State.fenceRequeue (s : State) (e : Nat) : State :=
  let x := s.engine e
  if !s.engineQuiet e then s
  else x.fenced.foldl (fun s r => s.requeue e r) (s.setEngine e { x with fenced := [] })

/-- FENCE_REQUEUE (R111). -/
def execFenceRequeue (engine : Nat) (s : State) : Host.Outcome State Fault Refusal :=
  whenWf "FENCE_REQUEUE" (Instr.wf (.fenceRequeue engine)) (s.fenceRequeue engine)

/-! ### Self-test and rejoin (R113, R120) -/

/-- OFFLINE by a failure (R113). -/
def State.goOffline (s : State) (e : Nat) : State :=
  let s := s.setEngine e { s.engine e with failed := true }
  (s.engineDown e engOffline).report { cls := .c, source := evEngOffline, arg := e }

/-- Fences of an engine within the second that ends with its newest one. -/
def State.recentFences (s : State) (e : Nat) : Nat :=
  match (s.engine e).fences with
  | [] => 0
  | newest :: rest => 1 + (rest.filter (fun t => newest < t + 100000000)).length

/-- Has the engine been fenced REJOIN_LIMIT times within a second (R113)? -/
def State.fencedOut (s : State) (e : Nat) : Bool := s.get .engCfgRejoinLimit ≤ s.recentFences e

/-- GOV of a layer within 0 °C to 85 °C (R369). -/
def State.govInLimits (s : State) (layer : Nat) : Bool :=
  let g := sint16 (s.get .thmLayerGGov layer)
  decide (0 ≤ g ∧ g ≤ 680)

/-- Does a BIST run name the engine in test 3 or 4 (R372)? -/
def State.bistTests (s : State) (e : Nat) : Bool :=
  match s.bist with
  | some x => (bitAt x.tests 3 || bitAt x.tests 4) && bitAt x.inst e
  | none => false

/-- The operating limits of an engine's self-test (R369; L0, as tests 3 and 4). -/
def State.testLimits (s : State) : Bool := s.boot.coreVolt && s.govInLimits 0

/-- May an engine's self-test start: within the limits, and after a BIST run that names the engine (R372)? -/
def State.mayTest (s : State) (e : Nat) : Bool := s.testLimits && !s.bistTests e

/-- A self-test runs (R113): its march test leaves the engine's scratch at zero (March C- of R368). -/
def State.beginTest (s : State) (e : Nat) : State :=
  let s := s.setEngine e { s.engine e with testDue := false }
  ({ s with scratch := s.scratch.filter (fun c => c.1 / 524288 ≠ e) }).setEngState e engTesting

/-- A self-test is due: it starts, or is held. -/
def State.dueTest (s : State) (e : Nat) : State :=
  if s.mayTest e then s.beginTest e else s.setEngine e { s.engine e with testDue := true }

/-- An OFFLINE engine is powered for a self-test (R113, R120), and its pond's fabric with it (R19); a held test leaves it as
it is. -/
def State.testOffline (s : State) (e : Nat) : State :=
  let s := s.dueTest e
  if s.engState e = engTesting then (s.wakeDom (48 + e / 8)).wakeDom e else s

/-- A fenced engine with no request outstanding goes OFFLINE at REJOIN_LIMIT, or its self-test is due (R113). -/
def State.testFenced (s : State) (e : Nat) : State :=
  if !(s.engine e).fenced.isEmpty || !s.engineQuiet e then s
  else if s.fencedOut e then s.goOffline e
  else s.dueTest e

/-- A fenced engine's self-test, or one that is held, starts where it may (R113). -/
def State.selftestStart (s : State) (e : Nat) : State :=
  if s.engState e = engFenced then s.testFenced e
  else if !(s.engine e).testDue || !s.mayTest e then s
  else if s.engState e = engOffline then s.testOffline e
  else if s.engState e = engOff && s.dom e = domOn then s.beginTest e
  else s

/-- ENGINE_SELFTEST_START (R113). -/
def execEngineSelftestStart (engine : Nat) (s : State) : Host.Outcome State Fault Refusal :=
  whenWf "ENGINE_SELFTEST_START" (Instr.wf (.engineSelftestStart engine)) (s.selftestStart engine)

/-- Does work find an engine online, and a fabric powered, beside domain `d` (R309)? -/
def State.spare (s : State) (d : Nat) : Bool :=
  let on (e : Nat) : Bool := s.engOnline e && s.dom e == domOn
  if d < 48 then (List.range 48).any (fun e => e ≠ d && on e)
  else (List.range 6).any (fun p => 48 + p ≠ d && s.pondOn p) && (List.range 48).any (fun e => 48 + e / 8 ≠ d && on e)

/-- An engine's domain is to go off after its current tasks (R309). -/
def State.drainEngine (s : State) (e : Nat) : State :=
  if s.dom e = domOn then (s.setDom e domDraining).offlineCheck e else s

/-- An OFF_REQ of 1 is acted on, unless it would leave no fabric powered or no engine online (R309). -/
def State.actOff (s : State) (d : Nat) : State :=
  if s.dom d ≠ domOn || !s.spare d then s
  else if d < 48 then s.drainEngine d
  else (List.range 8).foldl (fun s k => s.drainEngine (8 * (d - 48) + k)) (s.setDom d domDraining)

/-- Stored OFF_REQ values that were not acted on are evaluated again (R309). -/
def State.retryOff (s : State) : State :=
  (List.range 54).foldl (fun s d => if s.flag .pwrDomOffReq d then s.actOff d else s) s

/-- An engine's domain is to be on: a draining one stays, one that is off wakes; an OFFLINE engine stays off. It needs its
pond's fabric: while that drains, its engines go on leaving (R19). -/
def State.engineOn (s : State) (e : Nat) : State :=
  if s.flag .pwrDomOffReq e || s.dom (48 + e / 8) = domDraining then s
  else if s.dom e = domDraining then s.setDom e domOn
  else if s.engState e = engOff && (s.dom (48 + e / 8) = domOn || s.dom (48 + e / 8) = domWaking) then s.wakeDom e
  else s

/-- An OFF_REQ of 0 (R309): the fabric returns, and with it the engines whose own OFF_REQ is 0. -/
def State.actOn (s : State) (d : Nat) : State :=
  if d < 48 then s.engineOn d
  else
    let s := if s.dom d = domDraining then s.setDom d domOn else s.wakeDom d
    (List.range 8).foldl (fun s k => s.engineOn (8 * (d - 48) + k)) s

/-- The pond fabrics that come back: those whose OFF_REQ is 0. Where it is 1 for all, one was stored only (R309): the spec does
not keep which, and the last fabric stands for it (DESIGN CHOICE, log entry 66). -/
def State.pondsBack (s : State) : List Nat :=
  let l := (List.range 6).filter (fun p => !s.flag .pwrDomOffReq (48 + p))
  if l.isEmpty then [5] else l

/-- Every engine and pond-fabric domain comes back whose OFF_REQ is 0 (R303, R309), and where no engine's is, the last engine
that is off (as for the fabrics, log entry 66). -/
def State.domainsOn (s : State) : State :=
  let back := s.pondsBack
  let s := back.foldl (fun s p => s.actOn (48 + p)) s
  let mine := (List.range 48).filter (fun e => back.contains (e / 8))
  if mine.any (fun e => s.dom e ≠ domOff) then s
  else match mine.reverse.find? (fun e => s.engState e == engOff) with
    | none => s
    | some e => s.wakeDom e

/-- A self-test ends (R113): one of a powered engine, within the limits that a test runs in (R369). An engine whose pond's
fabric is to go off leaves again (R19). -/
def State.selftestDone (s : State) (e : Nat) (pass : Bool) : State :=
  if s.engState e ≠ engTesting || s.dom e = domWaking || !s.testLimits then s
  else if !pass then (s.set .engStateLastCause causeSelftest e).goOffline e
  else
    let s := s.setEngine e { s.engine e with failed := false }
    if s.flag .engCtrlOfflineReq e || (s.engine e).repairOff then s.engineDown e engOffline
    else
      let s := ((s.setEngState e engIdle).raise evEngRejoin 0xFF e).offlineCheck e
      (if s.dom (48 + e / 8) = domDraining then s.drainEngine e else s).retryOff

/-- ENGINE_SELFTEST_DONE (R113). -/
def execEngineSelftestDone (engine : Nat) (pass : Bool) (s : State) : Host.Outcome State Fault Refusal :=
  whenWf "ENGINE_SELFTEST_DONE" (Instr.wf (.engineSelftestDone engine pass)) (s.selftestDone engine pass)

/-- A write of OFFLINE_REQ (R120). -/
def State.offlineReq (s : State) (e : Nat) (v : Bool) : State :=
  let s := s.set .engCtrlOfflineReq (b2n v) e
  if v then s.offlineCheck e
  else if s.engState e == engOffline && !(s.engine e).failed && !(s.engine e).repairOff then s.testOffline e
  else s

/-- OFFLINE_REQ (R120). -/
def execOfflineReq (engine : Nat) (value : Bool) (s : State) : Host.Outcome State Fault Refusal :=
  whenWf "OFFLINE_REQ" (Instr.wf (.offlineReq engine value)) (s.blockWrite 0x08 0 (·.offlineReq engine value))

/-- A write of SELFTEST (R120). -/
def State.selftestReq (s : State) (e : Nat) : State :=
  let x := s.engine e
  if x.repairOff then s
  else if s.engState e == engFenced then s.testFenced e
  else if s.engState e == engOffline then s.testOffline e
  else s

/-- SELFTEST (R120). -/
def execSelftest (engine : Nat) (s : State) : Host.Outcome State Fault Refusal :=
  whenWf "SELFTEST" (Instr.wf (.selftest engine)) (s.blockWrite 0x08 0 (·.selftestReq engine))

/-! ### OFF_REQ and wakes (R19, R308, R309) -/

/-- A write of OFF_REQ (R309): it acts on domains 0 to 53. -/
def State.offReq (s : State) (d : Nat) (v : Bool) : State :=
  if 54 ≤ d then s
  else
    let s := s.set .pwrDomOffReq (b2n v) d
    if v then s.actOff d else s.actOn d

/-- OFF_REQ (R309). -/
def execOffReq (domain : Nat) (value : Bool) (s : State) : Host.Outcome State Fault Refusal :=
  whenWf "OFF_REQ" (Instr.wf (.offReq domain value)) (s.blockWrite 0x13 0 (·.offReq domain value))

/-- An engine's domain is on: its self-test follows; an engine named by a failure stays OFFLINE; one that is to go off again,
or whose pond's fabric is, does so at once (R19, R309). -/
def State.engineWoken (s : State) (e : Nat) : State :=
  let s := s.setDom e domOn
  if s.engState e ≠ engOff then s
  else if (s.engine e).failed || (s.engine e).repairOff then s.engineDown e engOffline
  else if s.dom (48 + e / 8) = domDraining || (s.flag .pwrDomOffReq e && s.spare e) then s.engineDown e engOff
  else s.dueTest e

/-- A domain finishes waking (R308). An engine's does so once its pond's fabric is powered (R19). -/
def State.domainWoken (s : State) (d : Nat) : State :=
  if s.dom d ≠ domWaking then s
  else if 54 ≤ d ∧ d < 58 then (s.quadWakeDone (d - 54)).decodeHeld
  else if d < 48 then (if s.pondServes (d / 8) then s.engineWoken d else s)
  else (s.setDom d domOn).retryOff

/-- DOMAIN_WAKE_DONE (R308). -/
def execDomainWakeDone (domain : Nat) (s : State) : Host.Outcome State Fault Refusal :=
  whenWf "DOMAIN_WAKE_DONE" (Instr.wf (.domainWakeDone domain)) (s.domainWoken domain)

/-- A pond-fabric domain switches off once its engines are down and its deque is empty (R19). -/
def State.pondOff (s : State) (p : Nat) : State :=
  if s.dom (48 + p) = domDraining && (s.pond p).deque.isEmpty && (List.range 8).all (fun k => s.dom (8 * p + k) = domOff) then
    s.setDom (48 + p) domOff
  else s

/-- POND_DOMAIN_OFF (R19). -/
def execPondDomainOff (pond : Nat) (s : State) : Host.Outcome State Fault Refusal :=
  whenWf "POND_DOMAIN_OFF" (Instr.wf (.pondDomainOff pond)) (s.pondOff pond)

end Sys2Proof.Machine
end

