-- ==== Sys2Proof/Machine/Tasks.lean ====
section
/-! DEFINITION. What a task does (R104, R105, R114, R115, R58, R64, R123 to R128), and its result at the job unit (R95, R111). -/

namespace Sys2Proof.Machine

/-- A unit's task fails. -/
def State.endFail (io : TaskIo) (j : Job) (unit : Nat) (st : Status) (shard : Nat) : State × Job :=
  io.st.failUnit { j with corrected := j.corrected || io.corrected } unit st shard

/-! ### COPY (R77) -/

/-- Does a range touch host memory or a peer? -/
def rangeOutside (b : Buffer) (off n : Nat) : Bool := (bufParts b off n).any (fun x => x.1.space ≠ spaceBasin)

/-- The source of a COPY's bytes from `off` on lies at a peer. -/
def rangePeer (b : Buffer) (off n : Nat) : Bool := (bufParts b off n).any (fun x => x.1.space == spacePeer)

/-- One copy unit, through its pond's DMA port (R104). Bytes that come from outside the stack are packets of that port's Pack
queue (R239, R241). -/
def State.copyUnit (s : State) (j : Job) (u e : Nat) (ext : List Fetched) : State × Job :=
  let off := u * mib
  let n := min mib (dLen j.desc - off)
  let packet : Option Packet := if rangeOutside (j.buf 64) off n then
      some { id := 0, ring := j.ring, slot := j.slot, gen := j.gen, unit := u, peer := rangePeer (j.buf 64) off n }
    else none
  let io : TaskIo := { TaskIo.engine s j.func e ext with port := 48 + e / 8, packet }
  let (io, bs, fail) := io.read (j.buf 64) off n
  match fail with
  | some st => State.endFail io j u st noShard
  | none =>
    let (io, r) := io.write { unit := u, engine := e } (j.buf 80) off bs
    State.endUnit io j r

/-! ### Object digests (R105, R134) -/

def digestParams (sha384 : Bool) : Sha2 := if sha384 then sha512Params else sha256Params
def digestIv (sha384 : Bool) : List Nat := if sha384 then sha384Iv else sha256Iv

/-- The chaining state after whole blocks. -/
def digestFeed (sha384 : Bool) (st : List Nat) (bs : List Byte) : List Nat :=
  let p := digestParams sha384
  (chunks (2 * p.bits) bs).foldl p.block st

/-- The digest from the chaining state before the last segment, that segment's bytes, and the length of it all. -/
def digestEnd (sha384 : Bool) (st : List Nat) (bs : List Byte) (total : Nat) : List Byte :=
  let p := digestParams sha384
  let blk := 2 * p.bits
  let lb := p.bits / 4
  let z := roundUp (bs.length + 1 + lb) blk - (bs.length + 1 + lb)
  let out := digestFeed sha384 st (bs ++ 0x80#8 :: zeros z ++ beBytes lb (8 * total))
  (out.flatMap (beBytes (p.bits / 8))).take (if sha384 then 48 else 32)

/-- The digest fields of the journal record (R117). Words of the chaining state are little-endian, as the record is. -/
def State.recDigest (s : State) (j : Job) : State :=
  let sha := dSha384 j.desc
  let words := fitBytes 64 (j.dstate.flatMap (leBytes (if sha then 8 else 4)))
  s.recWrite j.ring j.slot 704 (words ++ leBytes 8 j.dbytes ++ leBytes 4 j.dseg ++ leBytes 1 (if sha then 2 else 1))

/-- The last segment has run: HASH writes the digest at DST, DECODE compares it with DIGEST (R59), ENCODE keeps it. -/
def State.digestDone (io : TaskIo) (j : Job) (dg : List Byte) : State × Job :=
  let j := { j with digest := some dg }
  if j.type = tHash then io.st.writeOut j 80 io.out dg
  else if j.type = tDecode then
    let (io, want, fail) := io.read (j.buf 112) 0 (digestLen j.desc)
    match fail with
    | some st => State.endFail io j noUnit st noShard
    | none =>
      if want = dg then (io.st, { j with corrected := j.corrected || io.corrected })
      else State.endFail io j noUnit .digestMismatch noShard
  else (io.st, j)

/-- One digest segment. -/
def State.digestSegment (s : State) (j : Job) (i e : Nat) (ext : List Fetched) : State × Job :=
  let sha := dSha384 j.desc
  let total := j.digestLen
  let off := i * segBytes
  let n := min segBytes (total - off)
  let io := TaskIo.engine s j.func e ext true
  let (io, bs, fail) := io.read (j.buf (if j.type = tDecode then 80 else 64)) off n
  let j := { j with dpushed := false, corrected := j.corrected || io.corrected }
  match fail with
  | some st => State.endFail io j noUnit st noShard
  | none =>
    let st := if i = 0 then digestIv sha else j.dstate
    let last := j.segments ≤ i + 1
    let j := { j with dseg := i + 1, dbytes := off + n, dstate := if last then st else digestFeed sha st bs }
    let io := { io with st := io.st.recDigest j }
    if last then State.digestDone io j (digestEnd sha st bs total) else (io.st, j)

/-! ### ENCODE (R114, R123 to R126) -/

/-- The n sealed shards of a stripe from its object bytes (R34 to R36, R125), each with its tag. -/
def sealStripe (x : Stripe) (snap : Snapshot) (key obj : List Byte) : List (List Byte × List Byte) :=
  let kobj := objectKey key x.id snap.epoch snap.salt
  let header (c : Nat) : List Byte :=
    trailerHeader snap.enc x.p.word x.id x.j c x.size snap.ver snap.epoch snap.salt
  let stored := (List.range x.p.k).map (fun i => shardCrypt kobj (header i) (sliceBytes obj (i * x.size) x.size))
  (List.range x.p.n).map (fun c =>
    let payload := x.p.shardOf x.size (fun i => stored.getD i []) c
    let tag := shardTag kobj (header c) payload
    (payload ++ header c ++ tag, tag))

/-- The VAE mode of a job: the descriptor's, or the function's default (R76, R114). -/
def State.vaeMode (s : State) (j : Job) : Nat :=
  let m := dTflags j.desc / 2 % 4
  if m = 0 then s.vaeDefault j.func else m

/-- Is stripe `u` verified after its encoding? -/
def State.vaeSelected (s : State) (j : Job) (u : Nat) : Bool :=
  s.vaeMode j == 3 || (s.vaeMode j == 2 && u % 16 == 0)

/-- The sealed shards that a job's task computes for a stripe. A key that has been lost since leaves none (R130, R168). -/
def State.encodeBytes (s : State) (j : Job) (u e : Nat) (ext : List Fetched) :
    TaskIo × Except Status (List (List Byte × List Byte)) :=
  let io := TaskIo.engine s j.func e ext
  match s.stripeOf j u, j.snap with
  | some x, some snap =>
    let (io, obj, fail) := io.read (j.buf 64) x.start x.bytes
    (io, match fail, s.keyFor j.func snap.ver j.keys with
      | some st, _ => .error st
      | none, none => .error .keyUnavailable
      | none, some k => .ok (sealStripe x snap k.2 obj))
  | _, _ => (io, .error .internalFault)

/-- An ENCODE stripe. -/
def State.encodeStripe (s : State) (j : Job) (t : Token) (e : Nat) (ext : List Fetched) : State × Job :=
  let u := t.unit
  match s.encodeBytes j u e ext with
  | (io, .error st) => State.endFail io j u st noShard
  | (io, .ok shards) =>
    let old := (j.run u).getD { unit := u }
    let verify := s.vaeSelected j u || 0 < old.misses
    let r : UnitRun := { unit := u, engine := e, firstEnc := old.firstEnc, misses := old.misses, tokgen := t.tokgen,
                         verify := b2n verify, tags := shards.map (·.2) }
    let at_ := u * (dS j.desc + 64)
    let (io, r) := (shards.zipIdx).foldl (fun (acc : TaskIo × UnitRun) x =>
      acc.1.write acc.2 ((j.table 80).getD x.2 []) at_ x.1.1 x.2) (io, r)
    let tags := assocPut j.tags u (shards.map (·.2)).flatten
    State.endUnit io { j with tags } r

/-- Which flushing reads are those of a unit of the job (R84, R95)? -/
def Job.flushOf (j : Job) (unit : Nat) : TagFor → Bool
  | .flush q slot gen u _ => q == j.ring && slot == j.slot && gen == j.gen && u == unit
  | .descriptor _ _ | .task _ _ _ | .walk => false

/-- Two mismatches on a stripe end it as a third attempt would (R115). The new token counts its attempts from 0: the spec gives
it a higher TOKGEN only. ARG of ENG_VAE_MISMATCH is the verifying engine: the spec does not say which of the two (both DESIGN
CHOICE, log entry 63). -/
def State.vaeMismatch (s : State) (j : Job) (t : Token) (r : UnitRun) (e : Nat) : State :=
  let s := (s.putJob j).orphanReads (j.flushOf r.unit)
  let s := (s.satInc .engVaeMismatchCount).raise evEngVaeMismatch 0xFF e
  let s := (s.fenceEngine r.engine causeVae).fenceEngine e causeVae
  if 1 ≤ r.misses then s.abandon t
  else
    let gen := (r.tokgen + 1) % 256
    let tok : Token := { t with kind := kStripe, tokgen := gen, attempt := 0, excl := r.engine, excl2 := e }
    let p := s.poweredPond (s.get .jobRqCfgHomePond j.ring)
    let x := s.pond p
    let j := (s.findJob j.ring j.slot).getD j
    (s.setPond p { x with deque := tok.marked :: x.deque }).putJob
      (j.setRun { unit := r.unit, engine := r.engine, firstEnc := r.engine, misses := 1, tokgen := gen })

/-- A verify task (R114): the tags computed again. -/
def State.verifyStripe (s : State) (j : Job) (t : Token) (e : Nat) (ext : List Fetched) : State :=
  let s := s.wrapInc .engVaeChecksCount
  match j.run t.unit with
  | none => s.putJob j
  | some r =>
    match s.encodeBytes j t.unit e ext with
    | (io, .error st) =>
      let (s, j) := State.endFail io j t.unit st noShard
      s.putJob j
    | (io, .ok shards) =>
      let j := { j with corrected := j.corrected || io.corrected }
      if shards.map (·.2) = r.tags then
        let (s, j) := io.st.settleUnit j { r with verify := 3 }
        s.putJob j
      else io.st.vaeMismatch j t r e

/-! ### Reading sealed shards (R58, R128) -/

/-- The shards of a stripe as read and checked so far. -/
structure StripeIn where
  io       : TaskIo
  first    : Option (List Byte) := none
  shards   : Shards := []
  trailers : Shards := []
  key      : Option (Nat × List Byte) := none
  fail     : Option (Status × Nat) := none
  unread   : Bool := false

/-- One shard is read, then checked in the order of R128. -/
def StripeIn.add (x : Stripe) (j : Job) (a : StripeIn) (c : Nat) : StripeIn :=
  let (io, bs, bad) := a.io.read ((j.table 64).getD c []) x.at (x.size + 64)
  let payload := bs.take x.size
  let tr := bs.drop x.size
  let first := a.first.getD tr
  let key := if a.key.isSome then a.key else io.st.keyFor j.func (trKeyVer tr) j.keys
  let check : Option Status :=
    match bad, checkTrailer x.p.word x.id x.j c x.size first tr, key with
    | some st, _, _ => some st
    | none, some st, _ => some st
    | none, none, none => some .keyUnavailable
    | none, none, some k => checkTag k.2 tr payload
  let fail := match a.fail with
    | some f => some f
    | none => check.map (fun st => (st, c))
  { io, first := some first, shards := a.shards ++ [(c, payload)], trailers := a.trailers ++ [(c, tr)], key, fail,
    unread := a.unread || bad.isSome }

/-- A DECODE's object bytes (R37, R59), or a REPAIR's sealed shards (R127), from the checked shards. -/
def State.decodeOut (j : Job) (x : Stripe) (a : StripeIn) : TaskIo × UnitRun → TaskIo × UnitRun := fun acc =>
  let all := x.p.runSchedule x.size a.shards j.sched
  let first := (a.first.getD []).take 44
  let key := ((a.key.map (·.2)).getD [])
  let kobj := objectKey key x.id (trEpoch first) (trSalt first)
  if j.type = tDecode then
    let plain := (List.range x.p.k).map (fun i => shardCrypt kobj (rebuiltHeader first i) (shardAt all i))
    acc.1.write acc.2 (j.buf 80) x.start (plain.flatten.take x.bytes)
  else (j.wanted x.p).foldl (fun (acc : TaskIo × UnitRun) c =>
    let header := rebuiltHeader first c
    let payload := shardAt all c
    acc.1.write acc.2 ((j.table 80).getD c []) x.at (payload ++ header ++ shardTag kobj header payload) c) acc

/-- A DECODE, REPAIR or VERIFY stripe. A VERIFY's unit is done once every given shard of it has been checked, whatever the
result (R89), also where R43 and R128 speak of a stripe that fails (DEDUCED); one with a given shard that cannot be read has
not had it checked, and is not done (DESIGN CHOICE; both in log entry 63). -/
def State.decodeStripe (s : State) (j : Job) (u e : Nat) (ext : List Fetched) : State × Job :=
  match s.stripeOf j u with
  | none => s.failUnit j u .internalFault noShard
  | some x =>
    let io := TaskIo.engine s j.func e ext
    let a := (State.readSet j x.p).foldl (StripeIn.add x j) { io }
    let j := match a.key with
      | some k => { j with keys := if j.keys.contains k.1 then j.keys else j.keys ++ [k.1] }
      | none => j
    match a.fail with
    | some (st, c) =>
      if j.type = tVerify && !a.unread then
        let (s, j) := a.io.st.condition j { unit := u, status := st.code, shard := c }
        State.endUnit { a.io with st := s } j { unit := u, engine := e }
      else State.endFail a.io j u st c
    | none =>
      if j.type = tVerify then State.endUnit a.io j { unit := u, engine := e }
      else
        let (io, r) := State.decodeOut j x a (a.io, { unit := u, engine := e })
        State.endUnit io j r

/-! ### PLAN (R64) -/

/-- The record of one pattern entry. -/
def State.planRecord (s : State) (b : List Byte) : List Byte :=
  let pl (x : Plan) (info : Nat) (sched : List Byte) : List Byte :=
    leBytes 4 (x.result 0) ++ leBytes 4 info ++ sliceBytes b 8 8
      ++ leBytes 32 (maskOf 256 (fun c => x.reads.contains c)) ++ zeros 16
      ++ sched ++ zeros (roundUp sched.length 64 - sched.length)
  if fieldAt b 1 7 ≠ 0 then pl (Plan.none .patternInvalid) 0 []
  else match s.profile (fieldAt b 0 1) with
    | none => pl (Plan.none .profileUnknown) 0 []
    | some p =>
      let x := p.planMaps (fieldAt b 16 32) (fieldAt b 48 32)
      pl x (if decide (x.reason = PlanReason.patternInvalid) then 0 else x.info p) (x.sched p)

/-- A plan batch: its entries are read and planned; its records wait for the batches before it. -/
def State.planBatch (s : State) (j : Job) (u e : Nat) (ext : List Fetched) : State × Job :=
  let io := TaskIo.engine s j.func e ext
  let step (acc : TaskIo × Job × List (List Byte × Bool)) (v : Nat) : TaskIo × Job × List (List Byte × Bool) :=
    let (io, j, recs) := acc
    let (io, b, fail) := io.read (j.buf 64) (80 * v) 80
    match fail with
    | some st =>
      let (s, j) := io.st.condition j { unit := v, status := st.code, shard := noShard }
      ({ io with st := s }, j, recs ++ [(zeros 64, false)])
    | none => (io, j, recs ++ [(io.st.planRecord b, true)])
  let (io, j, recs) := ((List.range (j.batch u)).map (u + ·)).foldl step (io, j, [])
  let j := { j with planHeld := j.planHeld ++ [(u, recs)], corrected := j.corrected || io.corrected }
  State.planDrain (j.planHeld.length + 1) io.st j e

/-! ### The result at the job unit -/

/-- The task's effect, and the job it belongs to after it. -/
def State.runTask (s : State) (j : Job) (t : Token) (e : Nat) (ext : List Fetched) : State :=
  if t.kind = kVerify then s.verifyStripe j t e ext
  else
    let (s, j) :=
      if t.kind = kDigest then s.digestSegment j t.unit e ext
      else if t.kind = kCopy then s.copyUnit j t.unit e ext
      else if t.kind = kPlan then s.planBatch j t.unit e ext
      else if j.type = tEncode then s.encodeStripe j t e ext
      else s.decodeStripe j t.unit e ext
    s.putJob j

/-- A result that no job takes (R95). -/
def State.staleJob (s : State) (q : Nat) : State := (s.satInc .jobRqStaleCount q).count 0x06 4 (s.ringFunc q)

/-- Does a result answer this task: its slot of the engine, its job with the generation, its unit, KIND and TOKGEN? -/
def Running.answers (r : Running) (digest : Bool) (x : TaskId) (tokgen : Nat) : Bool :=
  r.digest == digest && r.tok.ring == x.q && r.tok.slot == x.slot && r.tok.jgen == x.jgen && r.tok.unit == x.unit &&
    r.tok.kind == x.kind && r.tok.tokgen == tokgen

/-- A task of engine `e` ends (R95): its effect on its job, where that is still in its slot. An engine that is to leave goes
after it (R120, R309). -/
def State.taskTaken (s : State) (e : Nat) (r : Running) (ext : List Fetched) : State :=
  let t := r.tok
  let x := s.engine e
  let s := (s.setEngine e { x with tasks := x.tasks.erase r }).showBusy e
  let s := (s.wrapInc .engTasksCount e).count 0x08 1 e
  let s := match (s.findJob t.ring t.slot).filter (fun j => j.gen == t.jgen) with
    | none => s.staleJob t.ring
    | some j => s.runTask j t e ext
  (s.dropReads e (· == r.digest)).offlineCheck e

/-- A result that no running task awaits: of a task fenced, or ended by its job, or of a TOKGEN or generation gone by (R95,
R111, R112). -/
def State.lateResult (s : State) (e : Nat) (digest : Bool) (task : TaskId) (tokgen : Nat) : State :=
  let x := s.engine e
  match x.stale.find? (fun y => y.1.answers digest task tokgen) with
  | some y =>
    let s := s.setEngine e { x with stale := x.stale.erase y }
    if y.2 then s.satInc .engStaleTokCount else s.staleJob task.q
  | none =>
    if (s.findJob task.q task.slot).any (fun j => j.gen == task.jgen) then s.satInc .engStaleTokCount else s.staleJob task.q

/-- A result reaches the job unit. -/
def State.taskResult (s : State) (e : Nat) (digest : Bool) (task : TaskId) (tokgen : Nat) (ext : List Fetched) : State :=
  match (s.engine e).tasks.find? (fun r => r.answers digest task tokgen) with
  | some r => s.taskTaken e r ext
  | none => s.lateResult e digest task tokgen

/-- TASK_RESULT (R104, R105, R111, R114). -/
def execTaskResult (engine : Nat) (digest : Bool) (task : TaskId) (tokgen : Nat) (ext : List Fetched) (s : State) :
    Host.Outcome State Fault Refusal :=
  whenWf "TASK_RESULT" (Instr.wf (.taskResult engine digest task tokgen ext))
    (s.taskResult engine digest task tokgen ext)

/-! ### Durability (R84) -/

/-- A flushing read of a unit's outputs failed (R79, R84, R408): at the host, or at a peer; `shard` is the shard it
concerns. -/
def State.flushFailed (s : State) (j : Job) (unit : Nat) (peer : Bool) (shard : Nat) : State :=
  let st := if peer then Status.peerDmaError else .hostDmaError
  let s := s.orphanReads (j.flushOf unit)
  let (s, j) := if j.outRun.isSome then
      let (s, j) := s.condition j { unit := noUnit, status := st.code, shard := noShard }
      (s, { j with outRun := none, stopped := true })
    else s.failUnit j unit st shard
  s.putJob j

/-- The unit's flushing reads that are outstanding or wait for a tag. -/
def State.flushReads (s : State) (j : Job) (unit : Nat) : List TagUse :=
  (s.pcie.tags ++ s.pcie.waiting).filter (fun r => !r.held && j.flushOf unit r.use)

/-- The shard of the first of a unit's flushing reads to the host or to peers. -/
def State.flushShard (s : State) (j : Job) (unit : Nat) (peer : Bool) : Nat :=
  match (s.flushReads j unit).find? (fun r => r.peer == peer) with
  | some { use := .flush _ _ _ _ shard, .. } => shard
  | _ => noShard

/-- A unit's outputs reach their durability point, none of its flushing reads being under way any more: their Lake lines are
written back, and the unit is done unless its verify task has still to answer. -/
def State.unitDurable (s : State) (q slot unit : Nat) (flushFail : Option Bool) : State :=
  match s.findJob q slot with
  | none => s
  | some j =>
    let shard := s.flushShard j unit (flushFail.getD false)
    match j.outRun, j.run unit, flushFail with
    | some r, _, none =>
      if !(s.flushReads j unit).isEmpty then s
      else
        let s := s.flushRanges r.ranges
        let j := { j with outRun := none, outDone := true }
        let (s, j) := if j.type = tScrub then (s, j) else if j.type = tSeal then s.settleSeal j else s.unitDone j 0
        s.putJob j
    | some _, _, some peer => s.flushFailed j unit peer shard
    | none, some r, some peer => if r.written && !r.durable then s.flushFailed j unit peer shard else s
    | none, some r, none =>
      if !r.written || r.durable || !(s.flushReads j unit).isEmpty then s
      else
        let (s, j) := (s.flushRanges r.ranges).settleUnit j { r with durable := true }
        s.putJob j
    | none, none, _ => s

/-- UNIT_DURABLE (R84). -/
def execUnitDurable (q slot unit : Nat) (flushFail : Option Bool) (s : State) : Host.Outcome State Fault Refusal :=
  whenWf "UNIT_DURABLE" (Instr.wf (.unitDurable q slot unit flushFail)) (s.unitDurable q slot unit flushFail)

end Sys2Proof.Machine
end

