-- ==== Sys2Proof/Machine/Jobs.lean ====
section
/-! DEFINITION. Doorbells, the end of jobs, cancellation and ring control (04_jobs.md), receipt entries and SEALs at their
start (06_sealing.md), and the function-level reset (R99, R196). -/

namespace Sys2Proof.Machine

/-! ### Doorbells (R68) -/

/-- Where a doorbell write goes: nowhere before READY (R195), in the hold (R173) or after a fatal fault (R325). -/
def State.doorbell (s : State) (func ring : Nat) (f : State → Nat → State) : State :=
  if !s.ready then s.set .pcxStatusDbEarly 1
  else if s.inHold || s.fatal then s
  else match s.ringPair func ring with
    | none => s
    | some q => (f s q).showRing q

/-- A doorbell value at or above the ring size (R68). -/
def State.doorbellError (s : State) (q : Nat) : State :=
  (s.set .jobRqStatusDbErr 1 q).raise evJobDbError (s.ringFunc q) q

/-- Word 0: SQ_TAIL. -/
def State.sqTail (s : State) (v q : Nat) : State :=
  if s.ringSize q ≤ v then s.doorbellError q else s.set .jobRqDbSqTail v q

/-- Word 1: CQ_HEAD. -/
def State.cqHead (s : State) (v q : Nat) : State :=
  if s.ringSize q ≤ v then s.doorbellError q else s.set .jobRqDbCqHead v q

/-- DOORBELL_SQ_TAIL (R68). -/
def execDoorbellSqTail (func ring : Nat) (value : Word) (s : State) : Host.Outcome State Fault Refusal :=
  whenWf "DOORBELL_SQ_TAIL" (Instr.wf (.doorbellSqTail func ring value))
    (s.barWrite func (fun s => s.doorbell func ring (fun s q => s.sqTail (value.toNat % 65536) q)))

/-- DOORBELL_CQ_HEAD (R68). -/
def execDoorbellCqHead (func ring : Nat) (value : Word) (s : State) : Host.Outcome State Fault Refusal :=
  whenWf "DOORBELL_CQ_HEAD" (Instr.wf (.doorbellCqHead func ring value))
    (s.barWrite func (fun s => s.doorbell func ring (fun s q => s.cqHead (value.toNat % 65536) q)))

/-! ### The end of a job (R82) -/

/-- No unit of the job is running: nothing on a deque, on an engine or on its way to its durability point. -/
def State.jobQuiet (s : State) (j : Job) : Bool :=
  s.entriesOf j.ring j.slot == 0 && (s.tasksOf j.ring j.slot).isEmpty && j.runs.isEmpty && j.outRun.isNone

/-- Does the window of R86 stop the job's next unit? -/
def Job.stuck (j : Job) : Bool := j.progress + 4096 < j.issued + j.batch j.issued

/-- Everything of the job that its type asks for has ended. A PLAN or VERIFY whose failed unit holds PROGRESS for good ends
once the window stops its next unit, nothing of it running any more (DEDUCED from R82 and R86, log entry 63). -/
def Job.complete (j : Job) : Bool :=
  if j.type = tSeal then decide (j.stage = .signing) && j.receipt
  else if j.type = tQuery || j.type = tScrub then decide (j.stage = .signing)
  else if j.type = tFence then false
  else if j.type = tHash then j.segments ≤ j.dseg
  else (j.units ≤ j.issued || j.stuck) && j.segments ≤ j.dseg && j.planHeld.isEmpty

/-- Has the job ended but for its receipt entry and its completion? -/
def State.jobEnded (s : State) (j : Job) : Bool :=
  decide (j.stage ≠ .held) && s.jobQuiet j &&
  (decide (j.stage = .closing) || j.complete || (j.stopped && !(j.type == tSeal && decide (j.stage = .signing))))

/-- Does an ENCODE that ends OK or OK_CORRECTED still lack its receipt entry (R82, R135)? -/
def Job.owesReceipt (j : Job) : Bool := j.type == tEncode && j.status.isNone && !j.receipt

/-- The job's final status (R11, R12). -/
def Job.finalStatus (j : Job) : Nat :=
  match j.status with
  | some c => c.status
  | none => if j.corrected then Status.okCorrected.code else Status.ok.code

/-- The 32 bytes of a completion (R82). -/
def completionBytes (cookie progress done slot gen status unit shard cause type ncond phase : Nat) : List Byte :=
  leBytes 8 cookie ++ leBytes 4 progress ++ leBytes 4 done ++ leBytes 2 slot ++ leBytes 1 gen ++ leBytes 1 status
    ++ leBytes 4 unit ++ leBytes 1 shard ++ leBytes 1 cause ++ leBytes 1 type ++ leBytes 1 ncond ++ zeros 3 ++ leBytes 1 phase

/-- A completion written at TAIL, TAIL and PHASE advanced (R71). -/
def State.cqWrite (s : State) (q : Nat) (entry : Nat → List Byte) : State :=
  let tail := s.get .jobRqCqTail q
  let phase := s.get .jobRqCqPhase q
  let base := s.get .jobRqCqbaseLoAddr q * 4096 + s.get .jobRqCqbaseHiAddr q * 2 ^ 32
  let s := s.hostWrite (s.ringFunc q) (base + 32 * tail) (entry phase)
  let wrap := s.ringSize q ≤ tail + 1
  let s := s.set .jobRqCqTail (if wrap then 0 else tail + 1) q
  if wrap then s.set .jobRqCqPhase (1 - phase) q else s

/-- The ring's message (R72). The count of completions starts again once one is sent: none is while MSI-X Enable is 0, and one
that pends is sent later. A message that the link still holds stands behind the completions written before it, and counts as
sent. -/
def State.ringMessage (s : State) (q : Nat) : State :=
  let f := s.ringFunc q
  let v := s.get .jobRqIrqVector q
  if !s.flag .cfgMsixEn f then s
  else
    let masked := s.flag .msixMask f v || s.flag .cfgMsixFuncMask f
    (s.setRing q { s.ring q with unsig := if masked then (s.ring q).unsig else 0, pended := masked }).sendMsix f v

/-- The ring's message after a completion (R72): by the IRQ flag or the count rule. Completions are counted by ring: a message
that another source sends on a shared vector (R203) does not restart the count (DESIGN CHOICE, log entry 65). -/
def State.cqSignal (s : State) (q : Nat) (irq : Bool) : State :=
  let r := s.ring q
  let n := r.unsig + 1
  let cnt := s.get .jobRqIrqCoalCnt q
  let s := s.setRing q { r with unsig := n }
  if irq || (cnt ≠ 0 && cnt ≤ n) then s.ringMessage q else s

/-- A pending message of a vector has been sent: of the rings whose messages pended on it, the count starts again (R72). -/
def State.ringsSent (s : State) (f vector : Nat) : State :=
  { s with jobUnit := { s.jobUnit with rings := s.jobUnit.rings.map (fun (x : Nat × Ring) =>
      if x.2.pended && s.ringFunc x.1 == f && s.get .jobRqIrqVector x.1 == vector then
        (x.1, { x.2 with unsig := 0, pended := false })
      else x) } }

/-- The record of a completed job (R97, R117). -/
def State.recComplete (s : State) (q slot status : Nat) : State :=
  (s.recWrite q slot 5 (leBytes 1 status)).recState q slot jComplete

/-- The job's completion is written (R71, R72, R82). -/
def State.completeJob (s : State) (j : Job) : State :=
  let st := j.finalStatus
  let c := j.status.getD { unit := noUnit, status := st, shard := noShard }
  let ncond := s.recNcond j.ring j.slot
  let s := s.recComplete j.ring j.slot st
  let s := s.cqWrite j.ring (completionBytes (fieldAt j.desc 8 8) j.progress j.doneCnt j.slot j.gen st c.unit c.shard
    (if st = Status.partial_.code then j.cause else 0) j.type ncond)
  let s := (s.count 0x06 1 j.func).count 0x06 3 j.func (b2n (st == Status.partial_.code))
  let s := (s.dropJob j.ring j.slot).cqSignal j.ring (dIrq j.desc)
  let s := if j.type = tFence then s.releaseFence j.ring else s
  s.showRing j.ring

/-- No completion is written while PERST# is asserted (R342), in the hold after a wipe (R173), after a fatal fault of
JOB_PATH_ERR, PCX_PHY_ERR or DEV_CORE_ERR that opened CONTAIN_F (R325), or of a clock, whose interrupted jobs the next start handles (R23). -/
def State.noCompletions (s : State) : Bool :=
  s.boot.perst || s.inHold || (s.fatal &&
    s.collector.opened.any [evJobPathErr, evPcxPhyErr, evDevCoreErr, evClkXtalFail, evClkPllUnlock].contains)

/-- A job's completion where it is due. -/
def State.jobComplete (s : State) (q slot : Nat) : State :=
  if s.noCompletions then s
  else match s.findJob q slot with
  | none => s
  | some j => if s.jobEnded j && !j.owesReceipt then s.completeJob j else s

/-- JOB_COMPLETE (R82). -/
def execJobComplete (q slot : Nat) (s : State) : Host.Outcome State Fault Refusal :=
  whenWf "JOB_COMPLETE" (Instr.wf (.jobComplete q slot)) (s.jobComplete q slot)

/-- COAL_US has passed since the first completion not yet signalled (R72). -/
def State.coalExpire (s : State) (q : Nat) : State :=
  if s.get .jobRqIrqCoalUs q = 0 || (s.ring q).unsig = 0 then s else s.ringMessage q

/-- COAL_TIMER_EXPIRE (R72). -/
def execCoalTimerExpire (q : Nat) (s : State) : Host.Outcome State Fault Refusal :=
  whenWf "COAL_TIMER_EXPIRE" (Instr.wf (.coalTimerExpire q)) (s.coalExpire q)

/-! ### SEAL, FENCE and receipt entries -/

/-- Must a SEAL still wait (R92, R139): for the function's seals triggered or fetched before it, and for the completion of an
ENCODE whose entry is in the open batch already, so that no ENCODE that completes after the SEAL starts is in its batch? -/
def State.sealWaits (s : State) (j : Job) : Bool :=
  !(s.seal j.func).closing.isEmpty ||
  s.jobUnit.jobs.any (fun x => x.func == j.func &&
    ((x.type == tSeal && decide (x.stage = .started ∨ x.stage = .held) && !x.stopped && seqBefore x.fetchSeq j.fetchSeq) ||
     (x.type == tEncode && x.receipt)))

/-- A SEAL starts after the function's earlier seals (R92, R139, R147). -/
def State.sealStart (s : State) (q slot : Nat) : State :=
  match s.findJob q slot with
  | none => s
  | some j =>
    let f := j.func
    if j.type ≠ tSeal || decide (j.stage ≠ .started) || j.stopped || s.sealWaits j || s.shutdown then s
    else
      let e := dLen j.desc
      if e < s.epoch f then
        let (s, j) := (s.satInc .sealEpochRejCount f).condition j
          { unit := noUnit, status := Status.epochRegression.code, shard := noShard }
        s.putJob j.close
      else
        let (s, j) := s.issueOne { j with stage := .signing }
        let s := (s.putJob j).closeBatch f e false (some (q, slot, j.gen))
        if s.epoch f < e then s.raiseEpoch f e else s

/-- SEAL_START (R147). -/
def execSealStart (q slot : Nat) (s : State) : Host.Outcome State Fault Refusal :=
  whenWf "SEAL_START" (Instr.wf (.sealStart q slot)) (s.sealStart q slot)

/-- Does the FENCE wait for ring pair `r`: its own ring, or with SCOPE 1 every ring of its function (R91)? -/
def State.fenceScope (s : State) (j : Job) (r : Nat) : Bool :=
  r == j.ring || (bitAt (dTflags j.desc) 0 && s.ringAlloc r && s.ringFunc r == j.func)

/-- A FENCE starts once every earlier-fetched job of its scope has had its completion written (R91), those held INTERRUPTED
among them (R100). -/
def State.fencePass (s : State) (q slot : Nat) : State :=
  match s.findJob q slot with
  | none => s
  | some j =>
    let before := s.jobUnit.jobs.any (fun x => s.fenceScope j x.ring && seqBefore x.fetchSeq j.fetchSeq)
    let coming := s.jobUnit.rings.any (fun r => s.fenceScope j r.1 &&
      (r.2.fetches.any (fun f => seqBefore f.seq j.fetchSeq) || !r.2.interrupted.isEmpty))
    if j.type ≠ tFence || decide (j.stage ≠ .started) || before || coming then s
    else
      let (s, j) := s.issueOne j
      let (s, j) := s.unitDone j 0
      s.putJob j.close

/-- FENCE_PASS (R91). -/
def execFencePass (q slot : Nat) (s : State) : Host.Outcome State Fault Refusal :=
  whenWf "FENCE_PASS" (Instr.wf (.fencePass q slot)) (s.fencePass q slot)

/-- The receipt entry of an ENCODE (R135) for the open batch. -/
def State.entryOf (s : State) (j : Job) (p : Profile) (snap : Snapshot) : List Byte :=
  let d := j.desc
  receiptEntry { objId := dObjId d, objLen := dLen d, epoch := snap.epoch, word := p.word, salt := snap.salt,
                 stripes := j.units, ssize := fieldAt d 42 2, ver := snap.ver, func := j.func, enc := snap.enc,
                 sha384 := dSha384 d, digest := j.digest.getD [],
                 tags := ((List.range j.units).map (fun u => (assoc j.tags u).getD [])).flatten }
    (s.chainId j.func) (s.batchSeq j.func) (s.get .sealOpenEntries j.func)

/-- An ENCODE's entry is due (R137, R138): it goes to a free slot, behind every held record; an entry that finds none
waits, and LOG_FULL shows it. -/
def State.entryAdd (s : State) (q slot : Nat) (ok : Bool) : State :=
  match s.findJob q slot with
  | none => s
  | some j =>
    if !s.jobEnded j || !j.owesReceipt then s
    else if !s.logFree j.func || !(s.seal j.func).records.isEmpty then s.logFull j.func
    else match s.jobProfile j, j.snap with
      | some p, some snap =>
        let s := s.startChain j.func
        let entry := s.entryOf j p snap
        let s := (s.logWrite j.func 1 entry ok).set .sealStatusLogFull 0 j.func
        if ok then (s.putJob { j with receipt := true }).addEntry j.func entry
        else
          let (s, j) := s.condition j { unit := noUnit, status := Status.hostDmaError.code, shard := noShard }
          s.putJob j
      | _, _ => s

/-- RECEIPT_ENTRY_ADD (R137). -/
def execReceiptEntryAdd (q slot : Nat) (slotWriteOk : Bool) (s : State) : Host.Outcome State Fault Refusal :=
  whenWf "RECEIPT_ENTRY_ADD" (Instr.wf (.receiptEntryAdd q slot slotWriteOk)) (s.entryAdd q slot slotWriteOk)

/-! ### Cancellation (R93, R94) -/

/-- A Sluice on queue `q` for the unit that `mine` names (R242): the packet at the queue's head is dropped with its words still
queued and those its producer holds, whose credits return; a pending flush completes at once. A head packet of another unit is
not open to it. -/
def State.sluice (s : State) (q : Nat) (mine : Packet → Bool) : State :=
  let x := s.pack q
  match x.packets with
  | [] => s
  | p :: rest =>
    if !mine p then s
    else
      let gone (r : PortReq) : Bool := r.inPacket q (· == p.id)
      let n := (s.weirs.queue.filter gone).length
      let s := { s with weirs := { s.weirs with queue := s.weirs.queue.filter (fun r => !gone r) } }
      (s.setPack { x with packets := rest, credits := x.credits + n, held := x.held.filter (fun r => !gone r), flush := false
                   }).packPump q

/-- The mechanism of R93: units that have not started are removed, running ones end without done bits; `j` is what the job
becomes. -/
def State.abortUnits (s : State) (j : Job) : State :=
  let s := (List.range 59).foldl (fun s q =>
    s.sluice q (fun p => p.ring == j.ring && p.slot == j.slot && p.gen == j.gen && !j.doneSet.contains p.unit
      && j.progress ≤ p.unit)) s
  let s := (s.dropTokens j.ring j.slot).dropTasks j.ring j.slot
  let s := s.orphanReads (fun x => match x with
    | .flush q slot _ _ _ => q == j.ring && slot == j.slot
    | .descriptor _ _ | .task _ _ _ | .walk => false)
  let s := { s with dredge := { s.dredge with
    passes := s.dredge.passes.filter (fun p => !(decide (p.kind = PassKind.scrub) && p.ring == j.ring && p.slot == j.slot)) } }
  s.putJob { j with runs := [], outRun := none, planHeld := [], stopped := true,
                    stage := if decide (j.stage = Stage.held) then .closing else j.stage }

/-- A cancel that matches no cancellable job. -/
def State.cancelMiss (s : State) (q : Nat) : State := s.satInc .jobRqCmissCount q

/-- Is every unit of the job done, or its processing over: a cancel has no effect (R94)? -/
def Job.allDone (j : Job) : Bool :=
  decide (j.stage = .closing) || (j.units ≤ j.doneCnt && 1 ≤ j.units && j.type ≠ tFence)

/-- A cancel of (slot, gen) on ring pair `q` (R93, R94). A descriptor still on its way counts as not fetched, and so does a job
held INTERRUPTED: R94 has no row for it (DESIGN CHOICE, log entry 63). -/
def State.cancelJob (s : State) (q slot gen : Nat) : State :=
  match s.findJob q slot with
  | none => s.cancelMiss q
  | some j =>
    if j.gen ≠ gen then s.cancelMiss q
    else if j.allDone then s
    else if decide (j.stage = .signing) && (j.type == tSeal || j.type == tQuery) then s.cancelMiss q
    else
      let (s, j) := s.stopJob j .cancelled 0
      let s := s.abortUnits j
      let s := if j.type = tFence then s.putJob { j with stage := .closing } else s
      s.showRing q

/-- May a function write the context of ring pair `q` (R72, R73): its own ring? -/
def State.ringOwn (s : State) (func q : Nat) : Bool := s.ringAlloc q && s.ringFunc q == func

/-- A write of JOB_RQ_CANCEL. -/
def State.cancelWrite (s : State) (func q v : Nat) : State :=
  if !s.ringOwn func q || !bitAt v 31 then s else s.cancelJob q (bits v 15 0) (bits v 19 16)

/-- CANCEL (R93). -/
def execCancel (func q : Nat) (value : Word) (s : State) : Host.Outcome State Fault Refusal :=
  whenWf "CANCEL" (Instr.wf (.cancel func q value)) (s.blockWrite 0x06 func (·.cancelWrite func q value.toNat))

/-! ### Ring control (R98 to R100) -/

/-- The completion of a job held INTERRUPTED, from its record: PARTIAL with CAUSE WARM_START (R100, step 3), which is one of the
job's other conditions where one arose before PERST# (R12). -/
def State.completeInterrupted (s : State) (q slot : Nat) : State :=
  let r := s.recRead q slot 0 1024
  let first := 0 < fieldAt r 6 1
  let c : Cond := if first then { unit := fieldAt r 576 4, status := fieldAt r 580 1, shard := fieldAt r 581 1 }
    else { unit := noUnit, status := Status.partial_.code, shard := noShard }
  let s := if first then s.recCond q slot { unit := noUnit, status := Status.partial_.code, shard := noShard } else s
  let s := s.recComplete q slot c.status
  let s := s.cqWrite q (completionBytes (fieldAt r 40 8) (fieldAt r 12 4) (fieldAt r 16 4) slot (fieldAt r 2 1)
    c.status c.unit c.shard (if first then 0 else 2) (fieldAt r 3 1) (s.recNcond q slot))
  let f := s.ringFunc q
  ((s.count 0x06 1 f).count 0x06 3 f (b2n (!first))).cqSignal q (bitAt (fieldAt r 53 1) 0)

/-- The completions of the jobs held INTERRUPTED, in order of fetch (R100, step 3). -/
def State.writeInterrupted (s : State) (q : Nat) : State :=
  let slots := (s.ring q).interrupted
  slots.foldl (fun s slot => s.completeInterrupted q slot) (s.setRing q { s.ring q with interrupted := [], keys := [] })

/-- A write of EN: the owner's, or PF0's write of 0 (R72, R98, R100). -/
def State.ringEnable (s : State) (func q : Nat) (en : Bool) : State :=
  if !s.ringAlloc q || (s.ringFunc q ≠ func && (func ≠ 0 || en)) then s
  else
    let rise := en && !s.flag .jobRqCtrlEn q
    let s := s.set .jobRqCtrlEn (b2n en) q
    (if rise then s.writeInterrupted q else s).showRing q

/-- RING_EN (R98). -/
def execRingEn (func q : Nat) (en : Bool) (s : State) : Host.Outcome State Fault Refusal :=
  whenWf "RING_EN" (Instr.wf (.ringEn func q en)) (s.blockWrite 0x06 func (·.ringEnable func q en))

/-- CFG_REJECT of a ring (R9, R73). -/
def State.ringReject (s : State) (q : Nat) : State :=
  (s.set .jobRqStatusCfgReject 1 q).raise evJobCfgReject (s.ringFunc q) q

/-- Do RESET and DROP_INT act (R98)? -/
def State.ringIdle (s : State) (q : Nat) : Bool :=
  !s.flag .jobRqCtrlEn q && (s.jobsOf q).isEmpty && (s.ring q).fetches.isEmpty

/-- Fields of a context at their cold values. -/
def State.ringCold (s : State) (q : Nat) (fs : List FN) : State := fs.foldl (fun s f => s.set f (f.cold q 0) q) s

/-- The values that RESET gives a ring's context (R98); its records become VOID. -/
def State.ringFresh (s : State) (q : Nat) : State :=
  let s := (s.ringCold q [.jobRqSqHead, .jobRqSqLap, .jobRqCqTail, .jobRqDbSqTail, .jobRqDbCqHead]).set .jobRqCqPhase 1 q
  ((s.setRing q {}).recVoid q).showRing q

/-- RESET of a ring (R98). -/
def State.ringReset (s : State) (func q : Nat) : State :=
  if !s.ringOwn func q then s
  else if !s.ringIdle q then s.ringReject q
  else s.ringFresh q

/-- RESET (R98). -/
def execReset (func q : Nat) (s : State) : Host.Outcome State Fault Refusal :=
  whenWf "RESET" (Instr.wf (.reset func q)) (s.blockWrite 0x06 func (·.ringReset func q))

/-- DROP_INT (R98, R100). -/
def State.ringDropInt (s : State) (func q : Nat) : State :=
  if !s.ringOwn func q then s
  else if !s.ringIdle q then s.ringReject q
  else (s.setRing q { s.ring q with interrupted := [], keys := [] }).showRing q

/-- DROP_INT (R98). -/
def execDropInt (func q : Nat) (s : State) : Host.Outcome State Fault Refusal :=
  whenWf "DROP_INT" (Instr.wf (.dropInt func q)) (s.blockWrite 0x06 func (·.ringDropInt func q))

/-! ### Function-level reset (R99, R196) -/

/-- The image's record of a ring pair: its HOME_POND and VECTOR. -/
def State.ringImage (s : State) (q : Nat) : Nat × Nat :=
  match s.imageRec imgRing q with
  | some r => (fieldAt r 3 1, fieldAt r 4 1)
  | none => (0, 0)

/-- Every job of a ring ends without a completion, and the context takes its cold and image values (R99). -/
def State.ringFlr (s : State) (q : Nat) : State :=
  let s := (s.jobsOf q).foldl (fun s j => (s.abortUnits j).dropJob j.ring j.slot) s
  let s := s.orphanReads (fun x => match x with
    | .descriptor r _ => r == q
    | .flush _ _ _ _ _ | .task _ _ _ | .walk => false)
  let s := s.forgetSeals (· == q)
  let (home, vector) := s.ringImage q
  let s := s.ringCold q [.jobRqSqbaseLoAddr, .jobRqSqbaseHiAddr, .jobRqCqbaseLoAddr, .jobRqCqbaseHiAddr, .jobRqCtrlEn,
    .jobRqSqHead, .jobRqSqLap, .jobRqCqTail, .jobRqCqPhase, .jobRqDbSqTail, .jobRqDbCqHead, .jobRqIrqCoalCnt,
    .jobRqIrqCoalUs, .jobRqStatusCfgReject, .jobRqStatusDbErr, .jobRqStaleCount, .jobRqCmissCount]
  let s := (s.set .jobRqCfgHomePond home q).set .jobRqIrqVector vector q
  ((s.setRing q {}).recVoid q).showRing q

/-- A function's MSI-X table and AER registers take their reset values, and the completions owed to it are discarded. -/
def State.funcPciReset (s : State) (f : Nat) : State :=
  let s := (List.range 128).foldl (fun s v =>
    [FN.msixAddrLo, .msixAddrHi, .msixData, .msixMask].foldl (fun s x => s.set x (x.cold f v) f v) s) s
  let s := (List.range 4).foldl (fun s w => s.set .msixPba 0 f w) s
  let aer : List FN := if f = 0 then [] else
    [.cfgAerUncStatus, .cfgAerUncMask, .cfgAerUncSev, .cfgAerCorStatus, .cfgAerCorMask, .cfgAerFep, .cfgAerEcrcGen,
     .cfgAerEcrcChk]
  let s := if f = 0 then s else (List.range 4).foldl (fun s w => s.set .cfgAerHdr 0 f w) s
  let s := ([FN.cfgMsixEn, .cfgMsixFuncMask] ++ aer).foldl (fun s x => s.set x (x.cold f 0) f) s
  let mine (o : Out) : Bool := match o with
    | .write g _ _ _ _ | .read _ g _ _ _ | .flushRead _ g _ _ | .msix g _ _ _ => g == f
    | .data g _ | .poisoned g _ | .unsupported g | .aborted g => g == f
    | _ => false
  { s with
    pcie := { s.pcie with held := s.pcie.held.filter (fun o => !mine o) }
    planSlots := s.planSlots.map (fun x => if x.1 / 128 == f then (x.1, { x.2 with running := none, held := [] }) else x) }

/-- R99 and R196 for one function. -/
def State.resetFunc (s : State) (f : Nat) : State :=
  ((s.ringsOf f).foldl (fun s q => s.ringFlr q) s).funcPciReset f

/-- A function-level reset (R196): PF0's takes every VF with it and clears VF Enable. -/
def State.flr (s : State) (f : Nat) : State :=
  if !s.funcExists f then s
  else
    let s := if f = 0 then ((List.range 64).foldl (fun s v => s.resetFunc v) s).set .cfgVfEnable 0 else s.resetFunc f
    s.raise evJobFlr f

/-- FLR (R99, R196). -/
def execFlr (func : Nat) (s : State) : Host.Outcome State Fault Refusal :=
  whenWf "FLR" (Instr.wf (.flr func)) (s.flr func)

/-! ### Stops of all work (R173, R187, R302, R325, R342) -/

/-- Every fetched job's units end by the mechanism of R93. -/
def State.haltJobs (s : State) : State := s.jobUnit.jobs.foldl (fun s j => s.abortUnits j) s

/-- Every fetched job that `which` names is stopped by the mechanism of R93; its completion remains. -/
def State.stopJobs (s : State) (st : Status) (cause : Nat) (which : Job → Bool := fun _ => true) : State :=
  (s.jobUnit.jobs.filter which).foldl (fun s j =>
    let (s, j) := s.stopJob j st cause
    s.abortUnits j.close) s

/-- Every fetched job ends and is forgotten, with the descriptors on their way. -/
def State.dropJobs (s : State) : State :=
  let s := s.haltJobs.orphanReads (fun x => match x with
    | .descriptor _ _ => true
    | .flush _ _ _ _ _ | .task _ _ _ | .walk => false)
  let s := s.forgetSeals (fun _ => true)
  { s with jobUnit := { s.jobUnit with
      jobs := []
      rings := s.jobUnit.rings.map (fun (r : Nat × Ring) => (r.1, { r.2 with fetches := [] })) } }

/-- Every fetched job gets its THERMAL_ABORT; SEALs whose signing has started go on (R302). -/
def State.thermalAborts (s : State) : State :=
  s.stopJobs .thermalAbort 0 (fun j => !(j.type == tSeal && decide (j.stage = .signing)))

/-- The engine domains go off (R187, R302, R325); OFF_REQ is unchanged (R309), an OFFLINE engine stays OFFLINE, and one fenced
REJOIN_LIMIT times becomes it (R113). -/
def State.enginesOff (s : State) : State :=
  let s := (List.range 48).foldl (fun s e =>
    let s := (s.dropReads e (fun _ => true)).setEngine e { s.engine e with tasks := [], fenced := [], testDue := false }
    let s := if s.engState e = engFenced && s.fencedOut e then s.goOffline e
      else if s.engState e = engOffline then s else s.set .engStateState engOff e
    s.setDom e domOff) s
  { s.showEngines with scratch := [], eddies := [], stalls := [] }

/-- The pond-fabric domains go off with them (R302). -/
def State.fabricOff (s : State) : State :=
  (List.range 6).foldl (fun s p => s.setDom (48 + p) domOff) s

end Sys2Proof.Machine
end

