-- ==== Sys2Proof/Machine/Trust.lean ====
section
/-! DEFINITION. Keys, the signer, SPDM, IDE streams, the Tarn, its wipe and the hold (R151 to R158, R168 to R173). -/

namespace Sys2Proof.Machine

/-! ### The OTP shadows (R363) -/

/-- `n` bytes of the shadows from logical byte `o`. -/
def State.shadowBytes (s : State) (o n : Nat) : List Byte :=
  (List.range n).map (fun k => BitVec.ofNat 8 (s.get .otpShadowData ((o + k) / 4) / 2 ^ (8 * ((o + k) % 4))))

/-- A logical bit of the shadows set. -/
def State.shadowSet (s : State) (bit : Nat) : State :=
  let w := bit / 32
  let v := s.get .otpShadowData w
  if w < 8 || bitAt v (bit % 32) then s else s.set .otpShadowData (v + 2 ^ (bit % 32)) w

/-- One above the highest position blown (R358). -/
def highestPlus1 (n w : Nat) : Nat := ((List.range n).reverse.find? (bitAt w)).elim 0 (· + 1)

/-- The anti-rollback count in the shadows (R358). -/
def State.arbShadow (s : State) : Nat := highestPlus1 128 (leNat (s.shadowBytes 0x090 16))

/-- The first byte of owner slot `k` (R354). -/
def ownerByte (k : Nat) : Nat := 0x100 + 0x30 * k

/-- OWNER_HASH of the current owner; 48 bytes of zero without one (R152, R160). -/
def State.ownerHash (s : State) : List Byte :=
  if s.flag .lcsStateOwnerOk then s.shadowBytes (ownerByte (s.get .lcsStateOwnerSlot)) 48 else zeros 48

/-! ### Keys (R151, R152) -/

/-- The life-cycle state in force. -/
def State.lc (s : State) : Nat := s.get .lcsStateState

def lcBlank : Nat := 0
def lcMfg : Nat := 1
def lcProvisioned : Nat := 2
def lcDeployed : Nat := 3
def lcReturned : Nat := 4
def lcScrapped : Nat := 5

/-- The wrap key's seed, where the Tarn holds it. -/
def State.wrapKey (s : State) : Option (List Byte) := s.trust.held.map (·.wrap)

/-- The keys of the running firmware and owner are derived into the Tarn (R152, R168); none where derivation refuses (R151). -/
def State.deriveHeld (s : State) : State :=
  { s with trust := { s.trust with
      held := s.trust.uds.map (fun u => { cdi := cdiOf u s.trust.fwMeas s.trust.fwSvn, wrap := wrapSeed u s.ownerHash }) } }

/-! ### SPDM (R153 to R156): codes and layouts of the base specification are PRESUMED, log entry 26 -/

def spdmErrInvalid : Nat := 0x01
def spdmErrUnexpected : Nat := 0x04
def spdmErrUnspecified : Nat := 0x05
def spdmErrUnsupported : Nat := 0x07
def spdmErrSessionLimit : Nat := 0x0A
def spdmErrVersion : Nat := 0x41

def transportNo : Transport → Nat
  | .doe => 0 | .mctp => 1

def State.conn (s : State) (t : Transport) : SpdmConn := (assoc s.trust.conns (transportNo t)).getD {}

def State.setConn (s : State) (t : Transport) (c : SpdmConn) : State :=
  { s with trust := { s.trust with conns := assocPut s.trust.conns (transportNo t) c } }

/-- A response object in the DOE mailbox (R207): header, then the bytes in dwords; the mailbox is no longer busy. -/
def State.doeReply (s : State) (type : Nat) (bytes : List Byte) (o : Out) : State :=
  let n := (bytes.length + 3) / 4
  let object := (1 + 65536 * type) :: (n + 2) :: (List.range n).map (fun k => fieldAt bytes (4 * k) 4)
  let s := { s with pcie := { s.pcie with doeOut := object } }
  ((s.set .cfgDoeBusy 0).set .cfgDoeReady 1).emit o

/-- An SPDM message leaves on a transport; over DOE the mailbox is no longer busy and holds it. -/
def State.spdmOut (s : State) (t : Transport) (body : List Byte) : State :=
  match t with
  | .doe => s.doeReply 1 body (.spdm t body)
  | .mctp => s.emit (.spdm t body)

/-- A response leaves on a transport; it stays for CHUNK_GET. -/
def State.spdmSend (s : State) (t : Transport) (code : Nat) (content : List Byte) : State :=
  let body := Config.spdmBody code content
  (s.setConn t { s.conn t with large := body }).spdmOut t body

/-- ERROR with an error code. -/
def State.spdmError (s : State) (t : Transport) (err : Nat) : State :=
  s.spdmOut t (Config.spdmBody 0x7F (leBytes 2 err))

/-- Can a request reach the device: the link is up, or the sideband acknowledges its address (R397)? -/
def State.spdmOpen (s : State) (t : Transport) : Bool :=
  match t with
  | .doe => s.flag .pcxLinkStatusDlUp
  | .mctp => s.boot.sideband.up

/-- A request is served: Unspecified where no key is derived (R151), otherwise `f`. -/
def State.spdmServe (s : State) (t : Transport) (f : State → State) : State :=
  if s.trust.uds.isNone then s.spdmError t spdmErrUnspecified else f s

/-- A request that needs the negotiated state of its transport (R156). -/
def State.spdmNegotiated (s : State) (t : Transport) (f : State → State) : State :=
  s.spdmServe t (fun s => if (s.conn t).algs then f s else s.spdmError t spdmErrUnexpected)

/-- A request that needs the alias keys: Unspecified while the Tarn holds none (R151, R172; log entry 26). -/
def State.spdmKeyed (s : State) (t : Transport) (f : State → State) : State :=
  s.spdmNegotiated t (fun s => if s.trust.held.isNone then s.spdmError t spdmErrUnspecified else f s)

/-- GET_VERSION (R154): 1.2 and 1.3; the transport's negotiation starts again. -/
def State.spdmVersion (s : State) (t : Transport) : State :=
  s.spdmServe t (fun s => (s.setConn t {}).spdmSend t 0x04 [0x12, 0x13])

/-- The capability flags of R154. -/
def spdmCaps : List String := ["CERT", "CHAL", "MEAS_SIG", "MEAS_FRESH", "KEY_EX", "ENCRYPT", "MAC", "KEY_UPD", "CHUNK"]

/-- GET_CAPABILITIES (R154): the version offered is taken when it is 1.2 or 1.3; CTExponent is 16. -/
def State.spdmCapabilities (s : State) (t : Transport) (version : Nat) : State :=
  s.spdmServe t (fun s =>
    if version ≠ 0x12 ∧ version ≠ 0x13 then s.spdmError t spdmErrVersion
    else (s.setConn t { s.conn t with version := some version, caps := true, algs := false }).spdmSend t 0x61
      (leBytes 1 version ++ [16] ++ asciiBytes (String.intercalate " " spdmCaps)))

/-- NEGOTIATE_ALGORITHMS (R154): the one suite. -/
def State.spdmAlgorithms (s : State) (t : Transport) (suiteOffered : Bool) : State :=
  s.spdmServe t (fun s =>
    if !(s.conn t).caps then s.spdmError t spdmErrUnexpected
    else if !suiteOffered then s.spdmError t spdmErrInvalid
    else (s.setConn t { s.conn t with algs := true }).spdmSend t 0x63
      (asciiBytes "ECDSA_P384 SHA_384 SECP384R1 AES_256_GCM MEAS_SHA_384"))

/-- The certificate chain of a slot (R153): through DeviceID to the attestation or the receipt alias. -/
def State.certChain (s : State) (slot : Nat) : List Byte :=
  let alias_ := match s.cdi with
    | some c => publicKey97 (if slot = 0 then attestSeed c else receiptSeed c)
    | none => []
  Config.certificate slot (s.trust.cert ++ s.trust.fwMeas ++ leBytes 1 s.trust.fwSvn ++ alias_)

/-- GET_DIGESTS (R153): the digests of slots 0 and 1. -/
def State.spdmDigests (s : State) (t : Transport) : State :=
  s.spdmKeyed t (fun s => s.spdmSend t 0x01 (sha384 (s.certChain 0) ++ sha384 (s.certChain 1)))

/-- GET_CERTIFICATE (R153): Unspecified while CERT_OK is 0. -/
def State.getCertificate (s : State) (t : Transport) (slot offset length : Nat) : State :=
  s.spdmKeyed t (fun s =>
    if 1 < slot then s.spdmError t spdmErrInvalid
    else if !s.flag .lcsStateCertOk then s.spdmError t spdmErrUnspecified
    else
      let chain := s.certChain slot
      if chain.length ≤ offset then s.spdmError t spdmErrInvalid
      else
        let part := (chain.drop offset).take length
        s.spdmSend t 0x02 (leBytes 1 slot ++ leBytes 2 part.length ++ leBytes 2 (chain.length - offset - part.length) ++ part))

/-- A response that waits for the signer (R156). -/
def State.spdmSign (s : State) (t : Transport) (code : Nat) (content : List Byte) : State :=
  { s with trust := { s.trust with signer := s.trust.signer ++ [{ transport := t, code, content }] } }

/-- The measurement blocks of R155; the anti-rollback count is that of the shadow (R363). -/
def State.measurement (s : State) (index : Nat) : List Byte :=
  match index with
  | 1 => Config.romDigest
  | 2 => s.trust.fwMeas
  | 3 => leBytes 1 s.trust.fwSvn ++ leBytes 1 s.arbShadow ++ leBytes 1 (s.get .bootStatusSlot) ++ [0]
  | 4 => s.trust.cfgMeas
  | 5 => leBytes 1 s.lc ++ leBytes 1 (maskOf 6 (fun r => s.flag .otpRegionValid r)) ++ [0, 0]
  | 6 => s.ownerHash
  | _ => []

/-- Every block, each behind its index. -/
def State.measurementAll (s : State) : List Byte :=
  ((List.range 6).map (fun k => leBytes 1 (k + 1) ++ s.measurement (k + 1))).flatten

/-- CHALLENGE (R154): signed by the attestation alias. -/
def State.challenge (s : State) (t : Transport) (slot : Nat) (nonce : List Byte) : State :=
  s.spdmKeyed t (fun s =>
    if 1 < slot then s.spdmError t spdmErrInvalid
    else s.spdmSign t 0x03 (leBytes 1 slot ++ sha384 (s.certChain slot) ++ nonce ++ sha384 s.measurementAll))

/-- GET_MEASUREMENTS (R155): index 0 asks for their number, 1 to 6 for a block, 0xFF for all. -/
def State.getMeasurements (s : State) (t : Transport) (index : Nat) (signed : Bool) (nonce : List Byte) : State :=
  let answer (s : State) : State :=
    if 6 < index ∧ index ≠ 0xFF then s.spdmError t spdmErrInvalid
    else
      let body := if index = 0 then [6] else if index = 0xFF then s.measurementAll else leBytes 1 index ++ s.measurement index
      if signed then s.spdmSign t 0x60 (body ++ nonce) else s.spdmSend t 0x60 body
  if signed then s.spdmKeyed t answer else s.spdmNegotiated t answer

/-! ### Secure sessions (R154) -/

def State.session (s : State) (id : Nat) : Option SpdmSession := s.trust.sessions.find? (·.id == id)

/-- KEY_EXCHANGE (R154): a session starts, up to 4 over both transports; the response is signed. Exchange data is X ‖ Y of a
point (PRESUMED, log entry 26). -/
def State.keyExchange (s : State) (t : Transport) (slot reqSession : Nat) (exchangeData : List Byte) : State :=
  s.spdmKeyed t (fun s =>
    if 1 < slot then s.spdmError t spdmErrInvalid
    else if 4 ≤ s.trust.sessions.length then s.spdmError t spdmErrSessionLimit
    else
      let (s, eph) := s.draw 48
      match sharedX eph (0x04 :: exchangeData) with
      | none => s.spdmError t spdmErrInvalid
      | some z =>
        let id := reqSession + 2 ^ 16 * s.trust.nextId
        let x : SpdmSession := { id, transport := t, established := false, secret := z, updates := 0 }
        let s := { s with trust := { s.trust with nextId := s.trust.nextId + 1, sessions := s.trust.sessions ++ [x] } }
        s.spdmSign t 0x64 (leBytes 2 (id / 2 ^ 16) ++ (publicKey97 eph).drop 1 ++ sha384 s.measurementAll))

/-- A session of the transport, or the error of a request outside one. -/
def State.inSession (s : State) (t : Transport) (id : Nat) (f : State → SpdmSession → State) : State :=
  s.spdmServe t (fun s =>
    match s.session id with
    | some x => if x.transport = t then f s x else s.spdmError t spdmErrUnexpected
    | none => s.spdmError t spdmErrUnexpected)

def State.putSession (s : State) (x : SpdmSession) : State :=
  { s with trust := { s.trust with sessions := s.trust.sessions.map (fun y => if y.id == x.id then x else y) } }

def State.dropSessions (s : State) (p : SpdmSession → Bool) : State :=
  { s with trust := { s.trust with sessions := s.trust.sessions.filter (fun x => !p x) } }

/-- The verify data that a session's FINISH must carry (log entry 26). -/
def finishData (secret : List Byte) : List Byte := hmacSha384 secret (asciiBytes "finish")

/-- FINISH (R154): the session is established when its verify data is right; otherwise it ends. -/
def State.spdmFinish (s : State) (t : Transport) (session : Nat) (verifyData : List Byte) : State :=
  s.inSession t session (fun s x =>
    if x.established then s.spdmError t spdmErrUnexpected
    else if verifyData = finishData x.secret then (s.putSession { x with established := true }).spdmSend t 0x65 []
    else (s.dropSessions (·.id == session)).spdmError t spdmErrInvalid)

/-- A request inside an established session. -/
def State.inSecure (s : State) (t : Transport) (id : Nat) (f : State → SpdmSession → State) : State :=
  s.inSession t id (fun s x => if x.established then f s x else s.spdmError t spdmErrUnexpected)

/-- KEY_UPDATE (R154). -/
def State.spdmKeyUpdate (s : State) (t : Transport) (session : Nat) : State :=
  s.inSecure t session (fun s x => (s.putSession { x with updates := x.updates + 1 }).spdmSend t 0x69 [])

/-- END_SESSION (R154). -/
def State.spdmEndSession (s : State) (t : Transport) (session : Nat) : State :=
  s.inSecure t session (fun s x => (s.dropSessions (·.id == x.id)).spdmSend t 0x6C [])

/-- CHUNK_SEND (R154): a chunk of a large request is kept and acknowledged. -/
def State.spdmChunk (s : State) (t : Transport) (bytes : List Byte) : State :=
  s.spdmNegotiated t (fun s =>
    let c := s.conn t
    (s.setConn t { c with chunkIn := c.chunkIn ++ bytes }).spdmOut t (Config.spdmBody 0x05 (c.chunkIn ++ bytes)))

/-- CHUNK_GET (R154): a chunk of the transport's last response. -/
def State.spdmChunkGet (s : State) (t : Transport) (seq : Nat) : State :=
  s.spdmNegotiated t (fun s =>
    let large := (s.conn t).large
    if large.isEmpty then s.spdmError t spdmErrUnexpected
    else s.spdmOut t (Config.spdmBody 0x06 (leBytes 2 seq ++ large)))

/-! ### IDE streams (R157) -/

def State.stream (s : State) (n : Nat) : IdeStream := (assoc s.trust.streams n).getD {}

def State.setStream (s : State) (n : Nat) (x : IdeStream) : State :=
  { s with trust := { s.trust with streams := assocPut s.trust.streams n x } }

/-- IDE_KM is accepted only in an established secure session over DOE, for the 8 streams and two key sets there are (R157). -/
def State.ideKm (s : State) (t : Transport) (session : Option Nat) (f : State → State) (stream : Nat := 0) (keySet : Nat := 0) :
    State :=
  s.spdmServe t (fun s =>
    match t, session.bind s.session with
    | .doe, some x =>
      if decide (x.transport = .doe) && x.established then
        (if stream < 8 && keySet < 2 then f s else s.spdmError t spdmErrInvalid)
      else s.spdmError t spdmErrUnspecified
    | _, _ => s.spdmError t spdmErrUnspecified)

/-- VENDOR_DEFINED_REQUEST (R154, R157): IDE_KM only. -/
def State.spdmVendor (s : State) (t : Transport) (session : Option Nat) (ideKm : Bool) : State :=
  if ideKm then s.ideKm t session (fun s => s.spdmSend t 0x7E [])
  else s.spdmServe t (fun s => s.spdmError t spdmErrUnsupported)

/-- KEY_PROG (R157): a 256-bit key. -/
def State.ideKeyProg (s : State) (t : Transport) (session : Option Nat) (stream keySet subStream : Nat) (key : List Byte) :
    State :=
  s.ideKm t session (fun s =>
    let x := s.stream stream
    if key.length ≠ 32 then s.spdmError t spdmErrInvalid
    else (s.setStream stream { x with keys := assocPut x.keys (keySet * 16 + subStream % 16) key }).spdmSend t 0x7E
      [0x03, BitVec.ofNat 8 stream, BitVec.ofNat 8 keySet]) stream keySet

/-- K_SET_GO (R157): the stream uses the key set, and is Secure; a set without keys is refused. -/
def State.ideSetGo (s : State) (t : Transport) (session : Option Nat) (stream keySet : Nat) : State :=
  s.ideKm t session (fun s =>
    let x := s.stream stream
    if !(x.keys.any (fun k => k.1 / 16 == keySet)) then s.spdmError t spdmErrInvalid
    else (s.setStream stream { x with active := some keySet, secure := true }).spdmSend t 0x7E
      [0x06, BitVec.ofNat 8 stream, BitVec.ofNat 8 keySet]) stream keySet

/-- K_SET_STOP (R157). -/
def State.ideSetStop (s : State) (t : Transport) (session : Option Nat) (stream keySet : Nat) : State :=
  s.ideKm t session (fun s =>
    let x := s.stream stream
    let x := if x.active = some keySet then { x with active := none, secure := false } else x
    (s.setStream stream x).spdmSend t 0x7E [0x07, BitVec.ofNat 8 stream, BitVec.ofNat 8 keySet]) stream keySet

/-- IDE_KM QUERY (R157): 8 selective streams, their states. -/
def State.ideQuery (s : State) (t : Transport) (session : Option Nat) : State :=
  s.ideKm t session (fun s =>
    s.spdmSend t 0x7E ([0x01, 8] ++ (List.range 8).map (fun n => BitVec.ofNat 8 (b2n (s.stream n).secure))))

/-! ### Requests, one at a time in arrival order (R156) -/

/-- The response to a request that came inside a secure session is a Secured CMA/SPDM object (R207). -/
def State.asSecured (s : State) (t : Transport) (session : Option Nat) : State :=
  if decide (t = .doe) && session.isSome then
    { s with pcie := { s.pcie with doeOut := (1 + 65536 * 2) :: s.pcie.doeOut.drop 1 } }
  else s

/-- A request served. A code that R154 does not list, the unsupported ones among them, is answered Unsupported. -/
def State.spdmRun (s : State) (t : Transport) : SpdmReq → State
  | .getVersion => s.spdmVersion t
  | .getCapabilities version => s.spdmCapabilities t version
  | .negotiateAlgorithms suiteOffered => s.spdmAlgorithms t suiteOffered
  | .getDigests => s.spdmDigests t
  | .getCertificate slot offset length => s.getCertificate t slot offset length
  | .challenge slot nonce => s.challenge t slot nonce
  | .getMeasurements index signed nonce => s.getMeasurements t index signed nonce
  | .keyExchange slot r data => s.keyExchange t slot r data
  | .finish session data => (s.spdmFinish t session data).asSecured t (some session)
  | .keyUpdate session => (s.spdmKeyUpdate t session).asSecured t (some session)
  | .endSession session => (s.spdmEndSession t session).asSecured t (some session)
  | .chunkSend bytes => s.spdmChunk t bytes
  | .chunkGet seq => s.spdmChunkGet t seq
  | .vendorDefined session ideKm => (s.spdmVendor t session ideKm).asSecured t session
  | .keyProg session stream keySet sub key => (s.ideKeyProg t session stream keySet sub key).asSecured t session
  | .kSetGo session stream keySet => (s.ideSetGo t session stream keySet).asSecured t session
  | .kSetStop session stream keySet => (s.ideSetStop t session stream keySet).asSecured t session
  | .ideKmQuery session => (s.ideQuery t session).asSecured t session
  | .unsupported _ => s.spdmServe t (fun s => s.spdmError t spdmErrUnsupported)

/-- The waiting requests served, oldest first, up to one that waits for its signature; `fuel` covers their number. -/
def State.spdmDrain (s : State) : Nat → State
  | 0 => s
  | fuel + 1 =>
    if !s.trust.signer.isEmpty then s
    else match s.trust.requests with
      | [] => s
      | (t, r) :: rest => ({ s with trust := { s.trust with requests := rest } }.spdmRun t r).spdmDrain fuel

/-- Requests wait behind those of both transports that arrived before them. -/
def State.spdmQueue (s : State) (rs : List (Transport × SpdmReq)) : State :=
  let all := s.trust.requests ++ rs
  { s with trust := { s.trust with requests := all } }.spdmDrain all.length

/-- A request arrives. -/
def State.spdmRequest (s : State) (t : Transport) (r : SpdmReq) : State :=
  if s.spdmOpen t then s.spdmQueue [(t, r)] else s

/-- GET_VERSION (R154). -/
def execGetVersion (t : Transport) (s : State) : Host.Outcome State Fault Refusal := .next (s.spdmRequest t .getVersion)

/-- GET_CAPABILITIES (R154). -/
def execGetCapabilities (t : Transport) (version : Nat) (s : State) : Host.Outcome State Fault Refusal :=
  .next (s.spdmRequest t (.getCapabilities version))

/-- NEGOTIATE_ALGORITHMS (R154). -/
def execNegotiateAlgorithms (t : Transport) (suiteOffered : Bool) (s : State) : Host.Outcome State Fault Refusal :=
  .next (s.spdmRequest t (.negotiateAlgorithms suiteOffered))

/-- GET_DIGESTS (R154). -/
def execGetDigests (t : Transport) (s : State) : Host.Outcome State Fault Refusal := .next (s.spdmRequest t .getDigests)

/-- GET_CERTIFICATE (R153). -/
def execGetCertificate (t : Transport) (slot offset length : Nat) (s : State) : Host.Outcome State Fault Refusal :=
  .next (s.spdmRequest t (.getCertificate slot offset length))

/-- CHALLENGE (R154). -/
def execChallenge (t : Transport) (slot : Nat) (nonce : List Byte) (s : State) : Host.Outcome State Fault Refusal :=
  .next (s.spdmRequest t (.challenge slot nonce))

/-- GET_MEASUREMENTS (R155). -/
def execGetMeasurements (t : Transport) (index : Nat) (signed : Bool) (nonce : List Byte) (s : State) :
    Host.Outcome State Fault Refusal :=
  .next (s.spdmRequest t (.getMeasurements index signed nonce))

/-- KEY_EXCHANGE (R154). -/
def execKeyExchange (t : Transport) (slot reqSession : Nat) (exchangeData : List Byte) (s : State) :
    Host.Outcome State Fault Refusal :=
  .next (s.spdmRequest t (.keyExchange slot reqSession exchangeData))

/-- FINISH (R154). -/
def execFinish (t : Transport) (session : Nat) (verifyData : List Byte) (s : State) : Host.Outcome State Fault Refusal :=
  .next (s.spdmRequest t (.finish session verifyData))

/-- KEY_UPDATE (R154). -/
def execKeyUpdate (t : Transport) (session : Nat) (s : State) : Host.Outcome State Fault Refusal :=
  .next (s.spdmRequest t (.keyUpdate session))

/-- END_SESSION (R154). -/
def execEndSession (t : Transport) (session : Nat) (s : State) : Host.Outcome State Fault Refusal :=
  .next (s.spdmRequest t (.endSession session))

/-- What a CHUNK_SEND brings: its chunk, and with the last one the request that the chunks make up. -/
def chunkRequests (t : Transport) (whole : Option SpdmReq) (bytes : List Byte) : List (Transport × SpdmReq) :=
  (t, .chunkSend bytes) :: whole.toList.map (fun r => (t, r))

/-- The request assembled from chunks starts anew. -/
def State.chunksTaken (s : State) (t : Transport) (whole : Option SpdmReq) : State :=
  if whole.isSome then s.setConn t { s.conn t with chunkIn := [] } else s

/-- CHUNK_SEND (R154): the last chunk runs the request. -/
def execChunkSend (t : Transport) (whole : Option SpdmReq) (bytes : List Byte) (s : State) : Host.Outcome State Fault Refusal :=
  .next (if s.spdmOpen t then (s.spdmQueue (chunkRequests t whole bytes)).chunksTaken t whole else s)

/-- CHUNK_GET (R154). -/
def execChunkGet (t : Transport) (seq : Nat) (s : State) : Host.Outcome State Fault Refusal :=
  .next (s.spdmRequest t (.chunkGet seq))

/-- VENDOR_DEFINED_REQUEST (R154, R157). -/
def execVendorDefinedRequest (t : Transport) (session : Option Nat) (ideKm : Bool) (s : State) :
    Host.Outcome State Fault Refusal :=
  .next (s.spdmRequest t (.vendorDefined session ideKm))

/-- KEY_PROG (R157). -/
def execKeyProg (t : Transport) (session : Option Nat) (stream keySet subStream : Nat) (key : List Byte) (s : State) :
    Host.Outcome State Fault Refusal :=
  .next (s.spdmRequest t (.keyProg session stream keySet subStream key))

/-- K_SET_GO (R157). -/
def execKSetGo (t : Transport) (session : Option Nat) (stream keySet : Nat) (s : State) : Host.Outcome State Fault Refusal :=
  .next (s.spdmRequest t (.kSetGo session stream keySet))

/-- K_SET_STOP (R157). -/
def execKSetStop (t : Transport) (session : Option Nat) (stream keySet : Nat) (s : State) :
    Host.Outcome State Fault Refusal :=
  .next (s.spdmRequest t (.kSetStop session stream keySet))

/-- IDE_KM QUERY (R157). -/
def execIdeKmQuery (t : Transport) (session : Option Nat) (s : State) : Host.Outcome State Fault Refusal :=
  .next (s.spdmRequest t (.ideKmQuery session))

/-! ### The signer (R156) -/

/-- Has a batch that waits for its signature waited behind an SPDM signature already? -/
def State.batchWaited (s : State) : Bool := s.seals.any (fun x => x.2.closing.any (·.waited))

/-- An SPDM signature is made: every batch that waits has waited behind it. -/
def State.batchesWait (s : State) : State :=
  { s with seals := s.seals.map (fun x =>
      (x.1, { x.2 with closing := x.2.closing.map (fun (b : Batch) => { b with waited := true }) })) }

/-- One SPDM signature: the response leaves. A batch never waits behind more than one of them. -/
def State.signSpdm (s : State) : State :=
  match s.trust.signer with
  | [] => s
  | r :: rest =>
    if s.batchWaited then s
    else
      let (s, rnd) := s.draw 48
      let s := { s with trust := { s.trust with signer := rest } }.batchesWait
      let s := match s.cdi with
        | some c => (s.count 0x0B 2 0).spdmSend r.transport r.code (r.content ++ signature (attestSeed c) r.content rnd)
        | none => s.spdmError r.transport spdmErrUnspecified
      s.spdmQueue []

/-- One batch signature (R139, R140): the record goes to the log, and to OUT of the SEAL that closed the batch. -/
def State.signOne (s : State) (f : Nat) (slotWriteOk : Bool) : State :=
  match s.signBatch f slotWriteOk with
  | (s, some (record, job)) =>
    match s.sealJob (some job) with
    | some j =>
      let (s, j) := s.writeOut j 80 58 record
      s.putJob j
    | none => s
  | (s, none) => s

/-- SIGNATURE_DONE (R156). -/
def execSignatureDone (what : Signed) (slotWriteOk : Bool) (s : State) : Host.Outcome State Fault Refusal :=
  whenWf "SIGNATURE_DONE" (Instr.wf (.signatureDone what slotWriteOk))
    (match what with
      | .batch f => s.signOne f slotWriteOk
      | .spdm => s.signSpdm)

/-! ### Checks of received TLPs (R158, R205) -/

/-- A read of a job has failed (R79, R81, R84); one whose unit has gone concerns nobody (R201). -/
def State.readFailed (s : State) (r : TagUse) : State :=
  if r.held then s
  else match r.use with
    | .descriptor q slot => s.fetchFail q (· == slot)
    | .flush q slot gen unit shard =>
      match (s.findJob q slot).filter (fun j => j.gen == gen) with
      | some j => s.flushFailed j unit r.peer shard
      | none => s
    | .task _ _ _ => { s with pcie := { s.pcie with lost := s.pcie.lost ++ [r.use] } }
    | .walk => s

/-- Do a function's transfers use IDE stream `n`: a requester ID of its number lies in the stream's RID association (R207)? The
low byte of a requester ID is the function's number (PRESUMED, log entry 62). -/
def State.usesStream (s : State) (n func : Nat) : Bool :=
  let base := s.get .cfgIdeRidBase 0 n
  let rid := base - base % 256 + func
  s.flag .cfgIdeRidValid 0 n && (if rid < base then rid + 256 else rid) ≤ s.get .cfgIdeRidLimit 0 n

/-- The reads under way over a stream fail, and with them the jobs they serve (R158). -/
def State.streamReadsFail (s : State) (n : Nat) : State :=
  ((s.pcie.tags ++ s.pcie.waiting).filter (fun r => !r.held && s.usesStream n r.func)).foldl (fun s r =>
    (s.readFailed r).orphanReads (fun x => decide (x = r.use))) s

/-- A stream enters Insecure: the reads under way over it fail (R158). -/
def State.streamInsecure (s : State) (n : Nat) : State :=
  let s := if (s.stream n).secure then s.streamReadsFail n else s
  s.setStream n { s.stream n with active := none, secure := false }

/-- An IDE check fails (R158, R205): the stream enters Insecure, class U; the TLP is dropped by the caller. -/
def State.ideFail (s : State) (n : Nat) (bit : Nat := aerIdeCheck) : State :=
  let s := s.aerUncorrectable 0 bit false true
  if 8 ≤ n then s
  else (s.streamInsecure n).report { cls := .u, source := evLcsIdeFail, cause := causeIdeCheck, arg := n, detail := n }

/-- Is a requester ID bound to a Secure stream: within the stream's RID association (R158, R207)? -/
def State.ridBound (s : State) (rid : Nat) : Bool :=
  (List.range 8).any (fun n => (s.stream n).secure && s.flag .cfgIdeRidValid 0 n && s.get .cfgIdeRidBase 0 n ≤ rid
    && rid ≤ s.get .cfgIdeRidLimit 0 n)

/-- A received TLP that fails its checks is dropped and reported (R158, R205); otherwise `f`. `func`: the function whose BAR
or configuration space it asks. ECRC is checked while its enable is 1. -/
def State.tlpGuard (s : State) (func : Nat) (nonPosted : Bool) (tlp : Tlp) (f : State → State) : State :=
  match tlp with
  | .good | .poisoned => f s
  | .ecrc => if s.flag .cfgAerEcrcChk func then s.aerUncorrectable func aerEcrc false true else f s
  | .ideCheck n => s.ideFail n
  | .misroutedIde n => s.ideFail n aerMisroutedIde
  | .pcrc n => s.ideFail n aerPcrc
  | .plain rid => if s.ridBound rid then s.respondUr func nonPosted else f s

/-! ### The Tarn (R168 to R170) -/

def State.tarnWord (s : State) (addr : Nat) : Nat := (sparseGet s.trust.tarn addr).getD 0

def State.setTarnWord (s : State) (addr v : Nat) : State :=
  { s with trust := { s.trust with
    tarn := if v = 0 then sparseDel s.trust.tarn addr else sparsePut s.trust.tarn addr v } }

/-- May port B reach the word (R168)? `addr` is a word number; key slots are read, and their reference counts written: the spec
does not say where in a slot a count stands, byte 0x78 is the model's place (DESIGN CHOICE, log entry 67). -/
def portBMay (addr : Nat) (write : Bool) : Bool :=
  let byte := 8 * addr
  if 0x50000 ≤ byte ∧ byte ≤ 0xFFFFF then true
  else if 0x10000 ≤ byte ∧ byte ≤ 0x1FFFF then !write || byte % 0x80 == 0x78
  else false

/-- One access performed. -/
def State.tarnAccess (s : State) (addr : Nat) (x : Option (BitVec 64)) : State :=
  match x with
  | some d => s.setTarnWord addr d.toNat
  | none => s

/-- Ports A and B reach one word in one cycle (R169): A first, B repeated in the next cycle. -/
def State.tarnCollision (s : State) (addr : Nat) (a b : Option (BitVec 64)) : State :=
  if !s.flag .tarnStatusKeypathOpen || !portBMay addr b.isSome then s.tarnAccess addr a
  else
    match a, b with
    | none, none => s
    | some x, some y =>
      if x = y then s.tarnAccess addr a
      else ((s.tarnAccess addr a).tarnAccess addr b).satInc .tarnCollWwCount
    | _, _ => ((s.tarnAccess addr a).tarnAccess addr b).satInc .tarnCollRwCount

/-- TARN_COLLISION (R169). -/
def execTarnCollision (addr : Nat) (a b : Option (BitVec 64)) (s : State) : Host.Outcome State Fault Refusal :=
  whenWf "TARN_COLLISION" (Instr.wf (.tarnCollision addr a b)) (s.tarnCollision addr a b)

/-- KEY_REQUEST_REISSUE (R170): the lost key requests are issued again; jobs are not affected. -/
def execKeyRequestReissue (s : State) : Host.Outcome State Fault Refusal :=
  .next { s with trust := { s.trust with reissue := false } }

/-! ### The wipe (R172) -/

/-- The sealing registers that stand in the Tarn (R149), at their cold values. -/
def sealTarnFields : List FN :=
  [.sealEpochLoEpoch, .sealEpochHiEpoch, .sealLogPtrTail, .sealLogPtrPhase, .sealLogHeadHead, .sealStatusLogFull,
   .sealStatusSealing, .sealBseqLoSeq, .sealBseqHiSeq, .sealOpenEntries, .sealLastLoEpoch, .sealLastHiEpoch]

def State.clearSealRegs (s : State) (f : Nat) : State :=
  let s := sealTarnFields.foldl (fun s x => s.set x (x.cold f 0) f) s
  let s := (List.range 4).foldl (fun s w => s.set .sealChainId 0 f w) s
  (List.range 8).foldl (fun s v =>
    [FN.sealKeyVer, .sealKeyState, .sealKactLoEpoch, .sealKactHiEpoch, .sealKuseCount].foldl (fun s x => s.set x 0 f v) s) s

/-- Every Tarn word is zero: sealing state, data keys, SPDM sessions and IDE streams are gone (R149, R158, R168). -/
def State.clearTarn (s : State) : State :=
  let s := (List.range 64).foldl (fun s f => s.clearSealRegs f) s
  { s with seals := []
           trust := { s.trust with
             tarn := [], held := none, sessions := [], signer := [], requests := [], streams := [] } }

/-- Can the stack be zeroed now: rails in range, stack PLL locked, the interface up since step 8? -/
def State.stackReach (s : State) : Bool := s.boot.stackOk && s.boot.stackPll && s.boot.crystal

/-- The response of R172 and the hold of R173: port B closes, the Tarn is cleared, Lake lines are invalidated without
write-back, zeroing starts or is owed to the next start, jobs end without completions. A start that waits is over: only PERST# or
a cold start ends the hold. -/
def State.wipe (s : State) : State :=
  let s := s.dropJobs
  let s := (s.set .tarnStatusKeypathOpen 0).clearTarn
  let s := ((s.set .tarnStatusWiped 1).satInc .tarnWipesCount).satInc .lcsTamperCount
  let s := s.dropTraffic.lakeInvalidate
  let s := { s with trust := { s.trust with wiped := true }, dram := { s.dram with zeroing := s.stackReach } }
  let s := if s.stackReach then s else (s.set .lcsTamperStackPending 1).set .bootStatusStackValid 0
  { s with boot := { s.boot with run := none } }.set .lcsStateHold 1

/-- STACK_ZEROING_DONE (R172). -/
def execStackZeroingDone (s : State) : Host.Outcome State Fault Refusal :=
  .next (if s.dram.zeroing then
      let s := s.zeroStack
      { s with dram := { s.dram with zeroing := false } }
    else s)

/-- SIDEBAND_RESET (R156): every session held on MCTP ends. -/
def execSidebandReset (s : State) : Host.Outcome State Fault Refusal :=
  .next (s.dropSessions (fun x => decide (x.transport = .mctp)))

end Sys2Proof.Machine
end

