-- ==== Sys2Proof/Machine/Otp.lean ====
section
/-! DEFINITION. The fuse array (R353 to R359, R366, R367): cells, sensing, region validity, the decided life cycle, repairs
and trims. -/

namespace Sys2Proof.Machine

/-! ### The array (R353) -/

/-- First physical byte of bank B. -/
def bankB : Nat := 4096

/-- A physical byte of the array. -/
def State.cellByte (s : State) (k : Nat) : Byte := Mem.read 0 s.fuses.cells k

/-- A physical bit blown; it cannot be cleared. -/
def State.blowCell (s : State) (bit : Nat) : State :=
  let k := bit / 8
  let b := s.cellByte k ||| BitVec.ofNat 8 (2 ^ (bit % 8))
  { s with fuses := { s.fuses with cells := Mem.write 0 s.fuses.cells k b } }

/-- A logical bit programmed: both copies are blown. -/
def State.blow (s : State) (bit : Nat) : State := (s.blowCell bit).blowCell (8 * bankB + bit)

/-- Logical bits programmed in order. -/
def State.blowAll (s : State) (bs : List Nat) : State := bs.foldl (fun s b => s.blow b) s

/-- Does either copy of logical byte `k` show a blown bit (R355)? -/
def State.arrayByte (s : State) (k : Nat) : Byte := s.cellByte k ||| s.cellByte (bankB + k)

def State.arrayBit (s : State) (bit : Nat) : Bool := bitAt (s.arrayByte (bit / 8)).toNat (bit % 8)

/-- The bits set in `data` from logical byte `o` on that are unblown in the array. -/
def State.bitsToBlow (s : State) (o : Nat) (data : List Byte) : List Nat :=
  (List.range (8 * data.length)).filterMap (fun i =>
    let b := 8 * o + i
    if bitAt (data.getD (i / 8) 0).toNat (i % 8) && !s.arrayBit b then some b else none)

/-! ### Sensing (R355 to R358) -/

/-- The marginal bits of a physical byte. -/
def marginByte (margins : List Nat) (k : Nat) : Byte :=
  (margins.filter (fun m => m / 8 == k)).foldl (fun b m => b ||| BitVec.ofNat 8 (2 ^ (m % 8))) 0

/-- Blown and marginal bits of logical byte `k` (R355). -/
def State.senseByte (s : State) (margins : List Nat) (k : Nat) : Byte × Byte :=
  let (ma, mb) := (marginByte margins k, marginByte margins (bankB + k))
  let blown := (s.cellByte k &&& ~~~ma) ||| (s.cellByte (bankB + k) &&& ~~~mb)
  (blown, (ma ||| mb) &&& ~~~blown)

/-- First byte and length of each region (R354). -/
def regionSpan (r : Nat) : Nat × Nat :=
  ([(0, 0x80), (0x80, 0x10), (0x90, 0x20), (0x100, 0xE0), (0x200, 0x800), (0xA00, 0x400)] : List (Nat × Nat)).getD r (0, 0)

/-- The region that holds logical byte `k`. -/
def regionOf (k : Nat) : Option Nat :=
  (List.range 6).find? (fun r => let (a, n) := regionSpan r; a ≤ k && k < a + n)

/-- The check word's and the lock word's first byte. -/
def checkByte (r : Nat) : Nat := let (a, n) := regionSpan r; a + n - 8
def lockByte (r : Nat) : Nat := let (a, n) := regionSpan r; a + n - 4

/-- The fixed check words of regions 1, 2 and 3; 0 where the check word is a CRC. -/
def fixedCheck (r : Nat) : Nat := ([0, 0x314C5842, 0x3141_5842, 0x314F_5842] : List Nat).getD r 0

/-- Reserved bits of a byte (R354). -/
def otpReserved (k : Nat) : Byte :=
  if (0x058 ≤ k ∧ k < 0x078) ∨ (0x081 ≤ k ∧ k < 0x088) ∨ (0x0A0 ≤ k ∧ k < 0x0A8) ∨ (0x1D0 ≤ k ∧ k < 0x1D8) then 0xFF
  else if k = 0x080 then 0xE0
  else match regionOf k with
    | some r => if k = lockByte r then 0xFC else if lockByte r < k then 0xFF else 0
    | none => 0

/-- A marginal bit of the byte makes its region invalid (R357): UDS, CERT_HASH, SERIAL, owner slots and slot checks, trims. -/
def margInvalidates (k : Nat) : Bool := k < 0x058 || (0x100 ≤ k && k < 0x1D0) || (0xA00 ≤ k && k < 0xDF8)

/-- A marginal bit of the byte is taken as blown (R357): positions, check and lock words, repair entries, trims. -/
def margBlown (k : Nat) : Bool :=
  match regionOf k with
  | some r => checkByte r ≤ k || k == 0x080 || (0x090 ≤ k && k < 0x0A0) || r == 4 || r == 5
  | none => false

/-- A byte's value after sensing (R357); a marginal reserved bit reads unblown (DEDUCED, log entry 30). -/
def State.senseTaken (s : State) (margins : List Nat) (k : Nat) : Byte :=
  let (b, m) := s.senseByte margins k
  if !margBlown k then b
  else match regionOf k with
    | some r => b ||| (if checkByte r ≤ k then m else m &&& ~~~otpReserved k)
    | none => b

/-- Does a CRC check word validate with the bytes that `f` gives (R356)? -/
def otpCrcOk (f : Nat → Byte) (r : Nat) : Bool :=
  let (a, _) := regionSpan r
  let body := (List.range (checkByte r - a)).map (fun i => f (a + i))
  crc32c body == leNat ((List.range 4).map (fun i => f (checkByte r + i)))

/-- The bytes of a region, as numbers of bytes. -/
def regionBytes (r : Nat) : List Nat := let (a, n) := regionSpan r; (List.range n).map (a + ·)

/-- Positions contiguous from the lowest (R358). -/
def contiguous (n w : Nat) : Nat := ((List.range (n + 1)).find? (fun i => !bitAt w i)).getD n

/-- Is an owner slot programmed, in the bytes that `f` gives, and does its check hold (R358)? -/
def ownerProgrammed (f : Nat → Byte) (k : Nat) : Bool := (List.range 48).any (fun i => f (ownerByte k + i) != 0)

def ownerCheckOk (f : Nat → Byte) (k : Nat) : Bool :=
  crc32c ((List.range 48).map (fun i => f (ownerByte k + i))) == leNat ((List.range 4).map (fun i => f (0x1C0 + 4 * k + i)))

/-- The conditions of R358 on a thermometer or owner region. -/
def regionShape (f : Nat → Byte) (r : Nat) : Bool :=
  match r with
  | 1 => let p := (f 0x080).toNat % 32; contiguous 5 p == highestPlus1 5 p
  | 2 => let p := leNat ((List.range 16).map (fun i => f (0x090 + i))); contiguous 128 p == highestPlus1 128 p
  | 3 => (List.range 4).all (fun k => !ownerProgrammed f k || ownerCheckOk f k)
  | _ => true

/-- Is a region EMPTY (R356)? -/
def State.senseEmpty (s : State) (margins : List Nat) (r : Nat) : Bool :=
  (regionBytes r).all (fun k => s.senseByte margins k == (0, 0))

/-- Is a region valid at sensing (R356, R357)? -/
def State.senseValid (s : State) (margins : List Nat) (r : Nat) : Bool :=
  let low (k : Nat) : Byte := (s.senseByte margins k).1
  let marg (k : Nat) : Byte := (s.senseByte margins k).2
  let high (k : Nat) : Byte := low k ||| marg k
  let taken := s.senseTaken margins
  let fixed := fixedCheck r
  let check :=
    if fixed = 0 then otpCrcOk low r || otpCrcOk high r
    else leNat ((List.range 4).map (fun i => low (checkByte r + i))) == fixed
      && (List.range 8).all (fun i => marg (checkByte r + i) == 0)
  !bitAt (taken (lockByte r)).toNat 1 && (regionBytes r).all (fun k => taken k &&& otpReserved k == 0)
    && (regionBytes r).all (fun k => !margInvalidates k || marg k == 0) && check && regionShape taken r

/-- The value of the low `n` bits set in a byte string. -/
def bitCount (bs : List Byte) : Nat := (bs.map (fun b => popCount 8 b.toNat)).foldl (· + ·) 0

/-- The registers of one region after sensing (R374). -/
def State.senseRegion (s : State) (margins : List Nat) (r : Nat) : State :=
  let lock := (s.senseTaken margins (lockByte r)).toNat
  let marg := bitCount ((regionBytes r).map (fun k => (s.senseByte margins k).2))
  let s := (s.set .otpRegionValid (b2n (s.senseValid margins r)) r).set .otpRegionEmpty (b2n (s.senseEmpty margins r)) r
  ((s.set .otpRegionLocked (lock % 2) r).set .otpRegionForced (lock / 2 % 2) r).set .otpRegionMarginal (min 255 marg) r

/-- The logical bits that sense marginal, rising. -/
def State.marginalBits (s : State) (margins : List Nat) : List Nat :=
  (List.range 4096).flatMap (fun k =>
    let m := (s.senseByte margins k).2.toNat
    if m = 0 then [] else (rangeWith 8 (bitAt m)).map (8 * k + ·))

/-- The shadows as sensed; words 0 to 7 read 0 (R374). -/
def State.senseShadows (s : State) (margins : List Nat) : State :=
  (List.range 1016).foldl (fun s w =>
    s.set .otpShadowData (leNat ((List.range 4).map (fun i => s.senseTaken margins (4 * (w + 8) + i)))) (w + 8)) s

/-! ### The decided life cycle (R358, R359), from the shadows and the regions' state -/

/-- The life cycle decoded from the positions. -/
def State.decodedLc (s : State) : Nat := contiguous 5 ((s.shadowBytes 0x080 1).headD 0).toNat

/-- Is a region taken as invalid where the life cycle is decided: not VALID, and not an EMPTY one of a part that is BLANK or MFG
(R358: an EMPTY life-cycle region reads BLANK; log entry 30)? -/
def State.regionBad (s : State) (r : Nat) : Bool :=
  !s.flag .otpRegionValid r && !(s.flag .otpRegionEmpty r && s.decodedLc < 2)

/-- The highest owner slot with a blown bit (R160). -/
def State.ownerNow (s : State) : Option Nat :=
  [3, 2, 1, 0].find? (fun k => (s.shadowBytes (ownerByte k) 48).any (· != 0))

/-- The life cycle in force (R359). -/
def State.lcNow (s : State) : Nat :=
  let d := s.decodedLc
  if 2 ≤ d && (s.regionBad 0 || s.regionBad 2 || s.regionBad 3) then lcReturned
  else if s.regionBad 1 then (if d = lcScrapped then lcScrapped else lcReturned)
  else if (d = lcProvisioned || d = lcDeployed) && s.ownerNow.isNone then lcReturned
  else d

/-- What every start decides from the shadows. -/
def State.decideLc (s : State) : State :=
  let s := s.set .lcsStateState s.lcNow
  let s := (s.set .lcsStateOwnerOk (b2n (s.ownerNow.isSome && s.flag .otpRegionValid 3))).set .lcsStateOwnerSlot (s.ownerNow.getD 0)
  s.set .lcsArbCount s.arbShadow

/-! ### Repairs (R366) and trims (R367) -/

/-- Fields of a repair entry. -/
def repType (e : Nat) : Nat := bits e 30 28
def repInst (e : Nat) : Nat := bits e 27 22
def repSpare (e : Nat) : Nat := bits e 21 16

/-- How many spares a type has; none where the type is reserved. -/
def repSpares (t : Nat) : Option Nat :=
  match t with
  | 1 => some 8
  | 2 => some 16
  | 3 => some 2
  | 4 => some 64
  | _ => none

/-- Ways of a slice disabled by entries in force. -/
def waysOff (es : List Nat) (slice : Nat) : List Nat :=
  ((es.filter (fun e => repType e == 2 && repInst e == slice)).map repSpare).dedup

/-- One entry applied after `es` (R366): none where it is ignored. -/
def applyEntry (es : List Nat) (e : Nat) : Option (List Nat) :=
  match repSpares (repType e) with
  | none => none
  | some n =>
    if n ≤ repSpare e then none
    else if repType e = 2 && !(waysOff es (repInst e)).contains (repSpare e) && 2 ≤ (waysOff es (repInst e)).length then none
    else if repType e = 4 then some (es ++ [e])
    else
      let same (x : Nat) : Bool := repType x == repType e && repInst x == repInst e && repSpare x == repSpare e
      some (es.filter (fun x => !same x) ++ [e])

/-- The entries of region 4 with EN blown, ascending. -/
def State.fusedEntries (s : State) : List Nat :=
  ((List.range 510).map (fun e => s.get .otpShadowData (0x80 + e))).filter (fun w => bitAt w 31)

/-- Every entry applied: those in force and how many were ignored. -/
def applyEntries (es : List Nat) : List Nat × Nat :=
  es.foldl (fun acc e => match applyEntry acc.1 e with
    | some x => (x, acc.2)
    | none => (acc.1, acc.2 + 1)) ([], 0)

/-- Repairs take effect: Lake ways, engines (R235, R113). -/
def State.applyRepairs (s : State) : State :=
  let (es, ignored) := applyEntries s.fusedEntries
  let ways := (List.range 64).flatMap (fun sl => (waysOff es sl).map (16 * sl + ·))
  let s := { s with fuses := { s.fuses with repairs := es }, lake := { s.lake with offWays := ways } }
  let s := (s.set .otpRepIgnoredCount ignored).set .lakeWaysOffCount ways.length
  (List.range 48).foldl (fun s e =>
    if es.any (fun x => repType x == 4 && repInst x == e) then s.setEngine e { s.engine e with repairOff := true } else s) s

/-- The kind and index of trim code `i` (R313, R367). -/
def trimTarget (i : Nat) : Nat × Nat :=
  if i < 88 then (1, i) else if i < 104 then (2, i - 88) else if i < 120 then (3, i - 104) else if i = 120 then (4, 0)
  else if i < 153 then (5, i - 121) else if i < 217 then (6, i - 153) else (7, i - 216)

/-- The trim that OTP gives target `i` (R367). -/
def State.otpTrim (s : State) (i : Nat) : Nat :=
  if s.flag .otpRegionValid 5 then leNat (s.shadowBytes (0xA10 + 2 * i) 2)
  else if (trimTarget i).1 = 7 then 0x03FF else 0x0200

/-- FMAX and REF_MODE (R359, R367). -/
def State.applyTrimLimits (s : State) : State :=
  if s.flag .otpRegionValid 5 then
    (s.set .otpTrimFmax ((s.shadowBytes 0xA00 1).headD 0).toNat).set .otpTrimRefConservative
      (((s.shadowBytes 0xA01 1).headD 0).toNat % 2)
  else (s.set .otpTrimFmax 10).set .otpTrimRefConservative 1

/-! ### Step 2 of a cold start -/

/-- The array sensed once: shadows, regions, UDS, events, repairs, trims (R340 step 2). -/
def State.senseOtp (s : State) (margins : List Nat) : State :=
  let s := s.senseShadows margins
  let s := (List.range 6).foldl (fun s r => s.senseRegion margins r) s
  let marg := s.marginalBits margins
  let s := (s.set .otpStatusMarginal (b2n (!marg.isEmpty))).set .otpMargFirstValid (b2n (!marg.isEmpty))
  let s := s.set .otpMargFirstBit (marg.headD 0)
  let uds := (List.range 32).map (s.senseTaken margins)
  let s := { s with trust := { s.trust with uds := if s.flag .otpRegionValid 0 then some uds else none } }
  let s := (List.range 6).foldl (fun s r =>
    if s.flag .otpRegionValid r then s else s.raise evOtpRegionInvalid 0xFF r) s
  let s := if marg.any (fun b => 0x200 ≤ b / 8 ∧ b / 8 < 0x9F8) then s.raise evOtpMarginal 0xFF 4 else s
  s.applyRepairs.applyTrimLimits

end Sys2Proof.Machine
end

