-- ==== Sys2Proof/Machine/Bist.lean ====
section
/-! DEFINITION. Self-test runs (R368 to R375). -/

namespace Sys2Proof.Machine

/-- Bits of the destructive tests 1, 2, 3 and 5 (R368). -/
def destructiveTests : Nat := 0b101110

def bistIdle : Nat := 0
def bistHeld : Nat := 1
def bistRunning : Nat := 2
def bistDoneState : Nat := 3

/-- The layers a test uses (log entry 31): the Lake's arrays are on L1. -/
def testLayers (inst t : Nat) : List Nat :=
  if t = 1 then [1]
  else if t = 5 ∨ t = 6 then List.range 18 else if t = 7 then rangeWith 18 (bitAt inst) else [0]

/-- The operating limits of a run (R369): HELD_VOLT and HELD_TEMP; the BIST clock never exceeds 1.0 GHz. -/
def State.bistHeldBits (s : State) (x : BistRun) : Bool × Bool :=
  (!s.boot.coreVolt,
   (rangeWith 10 (bitAt x.tests)).any (fun t => (testLayers x.inst t).any (fun l => !s.govInLimits l)))

/-- The fail entries cleared (R373). -/
def State.bistClear (s : State) : State :=
  let s := (List.range 32).foldl (fun s n => (List.range 4).foldl (fun s w => s.set .bistFailData 0 n w) s) s
  s.set .bistFailOvfCount 0

/-- The words of a fail entry (R373). -/
def bistWords (f : BistFailure) : List Nat :=
  [f.test % 256 + 2 ^ 8 * (f.array % 256) + 2 ^ 16 * (f.inst % 65536), f.address % 2 ^ 32,
   f.bit % 65536 + 2 ^ 16 * min 65535 f.count, f.repair % 2 ^ 32]

/-- Entries recorded in order of detection after `n` entries; those beyond 32 are counted. -/
def State.bistLog (s : State) (n : Nat) : List BistFailure → State
  | [] => s
  | f :: fs =>
    let s := if n < 32 then (List.range 4).foldl (fun s w => s.set .bistFailData ((bistWords f).getD w 0) n w) s
      else s.satInc .bistFailOvfCount
    s.bistLog (n + 1) fs

/-- A test's registers from the failures of a run. -/
def State.bistTestEnd (s : State) (fails : List BistFailure) (t : Nat) : State :=
  let mine := fails.filter (·.test == t)
  let n := (mine.map (·.count)).foldl (· + ·) 0
  (s.set .bistTestResult (if mine.isEmpty then 1 else 2) t).set .bistTestFails (min (2 ^ 24 - 1) n) t

/-- What the destructive tests of a run leave (R371). -/
def State.bistEffects (s : State) (x : BistRun) : State :=
  let s := if bitAt x.tests 1 then (s.lakeEmpty (fun _ => true)).lakeInvalidate else s
  let s := if bitAt x.tests 2 then s.clearTarn else s
  let s := if bitAt x.tests 3 then
      { s with scratch := s.scratch.filter (fun c => !bitAt x.inst (c.1 / 524288)) } else s
  if bitAt x.tests 5 then
    let s := s.dropSlices (bitAt x.inst)
    { s with dram := { s.dram with
        mem := s.dram.mem.filter (fun c => !bitAt x.inst (c.1 / pcBytes))
        poison := s.dram.poison.filter (fun k => !bitAt x.inst (k / pcLines)) } }
  else s

/-- The BIST domain is powered while a run is in progress (R308: domain 63). -/
def State.bistDomain (s : State) (on : Bool) : State :=
  if on then (if s.dom 63 = domOff then (s.setDom 63 domOn).satInc .pwrWakeCount 63 else s) else s.setDom 63 domOff

/-- A SENSOR test holds the readings of its layers, which carry STALE (R312, R372). -/
def State.bistHolds (s : State) (x : BistRun) : State := if bitAt x.tests 7 then s.showHeldLayers x.inst else s

/-- A run is held or runs, by its operating limits (R369); it waits for the self-test of an engine it names (R372); its
destructive tests act once it runs. -/
def State.bistCheck (s : State) : State :=
  match s.bist with
  | none => s
  | some x =>
    let (volt, temp) := s.bistHeldBits x
    let was := s.get .bistStatusState
    let s := (s.set .bistStatusHeldVolt (b2n volt)).set .bistStatusHeldTemp (b2n temp)
    if volt || temp then s.set .bistStatusState bistHeld
    else if was ≠ bistRunning && (List.range 48).any (fun e => s.engState e == engTesting && s.bistTests e) then
      s.set .bistStatusState bistIdle
    else
      let s := (s.set .bistStatusState bistRunning).bistDomain true
      if was = bistRunning then s else (s.bistEffects x).bistHolds x

/-- Does the life cycle accept the tests (R371)? -/
def State.bistAccepted (s : State) (tests : Nat) : Bool :=
  if s.lc = lcBlank || s.lc = lcMfg || s.lc = lcReturned then true
  else if s.lc = lcProvisioned || s.lc = lcDeployed then tests &&& 0b111110 == 0
  else false

/-- Is every ring disabled and idle? -/
def State.ringsQuiet (s : State) : Bool :=
  (List.range 256).all (fun q => !s.flag .jobRqCtrlEn q && s.flag .jobRqStatusIdle q)

/-- A run starts (R371). -/
def State.bistStart (s : State) (x : BistRun) : State :=
  let s := s.bistClear
  let s := (rangeWith 10 (bitAt x.tests)).foldl (fun s t =>
    ((s.set .bistTestResult 0 t).set .bistTestFails 0 t).set .bistTestFull (b2n x.full) t) s
  let s := s.set .bistStatusDestructive (b2n (x.tests &&& destructiveTests != 0))
  ({ s.set .bistStatusState bistIdle with bist := some x }).bistCheck

/-- Tests of the run finish (R371 to R373): their results and entries; with the last of them the run ends, with BIST_DONE or
BIST_FAIL. -/
def State.bistEnd (s : State) (r : BistReport) (us : Nat) : State :=
  match s.bist with
  | none => s
  | some x =>
    if s.get .bistStatusState ≠ bistRunning then s
    else
      let now (t : Nat) : Bool := bitAt x.tests t && bitAt r.tests t && !bitAt x.finished t
      let fails := r.fails.filter (fun f => now f.test)
      let s := (rangeWith 10 now).foldl (fun s t => s.bistTestEnd fails t) s
      let s := s.bistLog x.fails fails
      let x := { x with finished := maskOf 10 (fun t => bitAt x.finished t || now t), fails := x.fails + fails.length }
      if (rangeWith 10 (bitAt x.tests)).all (bitAt x.finished) then
        let s := { (s.bistEffects x).bistDomain false with bist := none }.bistHolds x
        let s := ((s.set .bistStatusState bistDoneState).set .bistStatusResult (b2n (x.fails ≠ 0))).set .bistTimeUs us
        s.raise (if x.fails = 0 then evBistDone else evBistFail)
      else { s with bist := some x }.bistHolds x

/-- BIST_DONE (R371). -/
def execBistDone (report : BistReport) (us : Nat) (s : State) : Host.Outcome State Fault Refusal :=
  .next (s.bistEnd report us)

/-- A run is ended before its tests finish (R372): those not yet finished read ABORTED. -/
def State.bistAbort (s : State) : State :=
  match s.bist with
  | none => s
  | some x =>
    let s := (rangeWith 10 (fun t => bitAt x.tests t && !bitAt x.finished t)).foldl (fun s t => s.set .bistTestResult 3 t) s
    let s := ((s.set .bistStatusState bistDoneState).set .bistStatusResult 2).set .bistStatusHeldVolt 0
    { (s.set .bistStatusHeldTemp 0).bistDomain false with bist := none }.bistHolds x

/-- ABORT (R372). -/
def execAbort (s : State) : Host.Outcome State Fault Refusal := .next (s.blockWrite 0x18 0 State.bistAbort)

end Sys2Proof.Machine
end

