-- ==== Sys2Proof/Machine/Mailbox.lean ====
section
/-! DEFINITION. The security mailbox (R160 to R167, R360 to R365, R371), tamper (R171) and the Paired queues (R244). -/

namespace Sys2Proof.Machine

/-! ### Results (R166) -/

def mbOk : Nat := 0
def mbBadCommand : Nat := 1
def mbBadLength : Nat := 2
def mbNotPermitted : Nat := 3
def mbAuthFail : Nat := 4
def mbUnwrapFail : Nat := 5
def mbSlotBusy : Nat := 6
def mbOtpFail : Nat := 7
def mbLimit : Nat := 8

/-- Command codes (R165, R361). -/
def cmdGetNonce : Nat := 0x01
def cmdGetWrapKey : Nat := 0x02
def cmdKeyLoad : Nat := 0x10
def cmdKeyUnload : Nat := 0x11
def cmdLcAdvance : Nat := 0x20
def cmdOwnerChange : Nat := 0x21
def cmdArbAdvance : Nat := 0x22
def cmdUdsGenerate : Nat := 0x30
def cmdOtpProgram : Nat := 0x31
def cmdOtpLock : Nat := 0x32
def cmdBistRun : Nat := 0x40

/-! ### The buffer and the queue (R165) -/

/-- The buffer's bytes. -/
def State.mboxBytes (s : State) : List Byte :=
  ((List.range 256).map (fun w => leBytes 4 (s.get .lcsMboxBufData w))).flatten

/-- Bytes written into the buffer from byte `o`; the rest stays. -/
def State.mboxPut (s : State) (o : Nat) (bytes : List Byte) : State :=
  let old := s.mboxBytes
  let new := old.take o ++ bytes ++ old.drop (o + bytes.length)
  (List.range 256).foldl (fun s w => s.set .lcsMboxBufData (fieldAt new (4 * w) 4) w) s

/-- A command ends: output from byte 0, RESULT, OUT_LEN, DONE. -/
def State.mboxEnd (s : State) (result : Nat) (output : List Byte) : State :=
  let s := { s with trust := { s.trust with mbox := none } }
  let s := ((s.mboxPut 0 output).set .lcsMboxStatusResult result).set .lcsMboxStatusOutLen output.length
  (s.set .lcsMboxStatusDone 1).set .lcsMboxStatusBusy 0

/-- What a command has decided at its start: ended already, or running towards a result. -/
structure MboxStart where
  state : State
  run   : Option MboxRun

/-- A command that will end with `result`. -/
def State.mboxRun (s : State) (cmd result : Nat) (output : List Byte := []) (otp : Option OtpRun := none) : MboxStart :=
  { state := s, run := some { cmd, result, output, otp } }

/-- GO (R165): discarded while a command runs; otherwise the buffer holds CMD, IN_LEN and the input, and `f` starts it. -/
def State.mboxGo (s : State) (cmd : Nat) (input : List Byte) (f : State → MboxStart) : State :=
  if s.flag .lcsMboxStatusBusy then s.set .lcsMboxStatusOverrun 1
  else
    let s := (s.mboxPut 0 (leBytes 2 cmd ++ leBytes 2 input.length ++ input)).set .lcsMboxStatusBusy 1
    let x := f s
    match x.run with
    | none => x.state
    | some r =>
      let s := { x.state with trust := { x.state.trust with mbox := some r } }
      s.set .otpStatusProgBusy (b2n r.otp.isSome)

/-- A command from PF0 through the mailbox. -/
def mboxCmd (mnemonic : String) (wf : Bool) (cmd : Nat) (input : List Byte) (f : State → MboxStart) (s : State) :
    Host.Outcome State Fault Refusal :=
  whenWf mnemonic wf (s.blockWrite 0x03 0 (fun s => s.mboxGo cmd input f))

/-! ### Signed commands (R166) -/

/-- The hash of the key that signs (R159, R161, R360). -/
def State.signerKey (s : State) : Option (List Byte) :=
  if s.lc = lcProvisioned || s.lc = lcDeployed then
    (if s.flag .lcsStateOwnerOk then some s.ownerHash else none)
  else some Config.mfgKeyHash

/-- The owner's key hash. -/
def State.ownerKey (s : State) : Option (List Byte) := if s.flag .lcsStateOwnerOk then some s.ownerHash else none

/-- A signed command's checks, in order: length, permission, limit, nonce and signature over the input's first `n` bytes. The
nonce is consumed whatever the result. -/
def State.signedCmd (s : State) (cmd : Nat) (label : String) (input : List Byte) (n : Nat)
    (lenOk permitted limit : Bool) (key : Option (List Byte)) (go : State → MboxStart) : MboxStart :=
  let nonce := s.trust.nonce
  let s := { s with trust := { s.trust with nonce := none } }
  if !lenOk then s.mboxRun cmd mbBadLength
  else if !permitted then s.mboxRun cmd mbNotPermitted
  else if limit then s.mboxRun cmd mbLimit
  else
    match nonce, key with
    | some x, some k =>
      if verifiesHash k (asciiBytes label ++ input.take n ++ x) (sliceBytes input n 96) then go s
      else s.mboxRun cmd mbAuthFail
    | _, _ => s.mboxRun cmd mbAuthFail

/-! ### Programming (R362 to R365) -/

/-- The limits of programming (R362): VDD_AUX, and L0 between 0 °C and 85 °C. -/
def State.mayProgram (s : State) (env : OtpEnv) : Bool := env.auxOk && s.govInLimits 0

/-- The failing bit of OTP_PROGRAM's output: 0x7FFF for none. -/
def noFailBit : Nat := 0x7FFF

def failOutput (cmd bit : Nat) : List Byte := if cmd = cmdOtpProgram then leBytes 4 bit else []

/-- Programming of `todo` starts, or ends OTP_FAIL at once outside the limits. -/
def State.startProgram (s : State) (cmd : Nat) (output : List Byte) (todo : List Nat) (env : OtpEnv) : MboxStart :=
  if s.mayProgram env then s.mboxRun cmd mbOk output (some { todo, failAt := env.failBit })
  else s.mboxRun cmd mbOtpFail (failOutput cmd noFailBit)

/-- Verified bits that the shadows take at once (R363): LOCK and FORCED, thermometer positions, owner slots. -/
def shadowAtOnce (bit : Nat) : Bool :=
  let k := bit / 8
  k == 0x080 || (0x090 ≤ k && k < 0x0A0) || (0x100 ≤ k && k < 0x1C0)
    || (List.range 6).any (fun r => k == lockByte r && bit % 8 < 2)

def State.copyShadow (s : State) (bits : List Nat) : State :=
  let s := (bits.filter shadowAtOnce).foldl (fun s b => s.shadowSet b) s
  (List.range 6).foldl (fun s r =>
    let s := if bits.contains (8 * lockByte r) then s.set .otpRegionLocked 1 r else s
    if bits.contains (8 * lockByte r + 1) then s.set .otpRegionForced 1 r else s) s

/-- The bits before the first failing one, and that one. -/
def splitFail (x : OtpRun) : List Nat × Option Nat :=
  match x.failAt with
  | none => (x.todo, none)
  | some b => if x.todo.contains b then (x.todo.takeWhile (· != b), some b) else (x.todo, none)

/-- A bit whose verification failed: what its two copies read is not given (log entry 7). -/
def State.blowPart (s : State) (bit : Nat) : State :=
  let (s, d) := s.draw 1
  let v := (d.headD 0).toNat
  let s := if bitAt v 0 then s.blowCell bit else s
  if bitAt v 1 then s.blowCell (8 * bankB + bit) else s

/-- OTP_FAIL: counted, and reported (R362). -/
def State.otpFailed (s : State) : State :=
  (s.satInc .otpProgFailsCount).report { cls := .c, source := evOtpProgFail }

/-- The programming ends (R362, R363). Answers the failing bit. -/
def State.runProgram (s : State) (x : OtpRun) : State × Option Nat :=
  match splitFail x with
  | (bits, none) => (((s.blowAll bits).copyShadow bits).satInc .otpProgOpsCount, none)
  | (bits, some b) => ((s.blowAll bits).blowPart b, some b)

/-- A programming command's result is written: at once, or after the start that follows a PERST# or a loss of VDD_CORE that its
programming went on under (R365). -/
def State.otpResult (s : State) (cmd result : Nat) (output : List Byte) : State :=
  if s.boot.perst || s.boot.coldNext then
    { s with trust := { s.trust with mbox := some { cmd, result, output, late := true } } }
  else s.mboxEnd result output

/-- The result that waited for the start to end. -/
def State.otpLate (s : State) : State :=
  match s.trust.mbox with
  | some r => if r.late then s.mboxEnd r.result r.output else s
  | none => s

/-- The steps of R162 after the result OK: PENDING_CHANGE and HOLD, then the wipe. -/
def State.lifeChange (s : State) (cmd : Nat) : State :=
  let s := (s.set .lcsStatePendingChange 1).set .lcsTamperLcWipe 1
  (if cmd = cmdLcAdvance then s.raise evLcsLcChange else s).wipe

/-- MBOX_DONE (R165): the command in progress ends. -/
def State.mboxDone (s : State) : State :=
  match s.trust.mbox with
  | none => s
  | some r =>
    match r.otp with
    | none =>
      if r.late then s
      else (if r.result = mbOtpFail then s.otpFailed else s).mboxEnd r.result r.output
    | some x =>
      let (s, fail) := s.runProgram x
      let s := s.set .otpStatusProgBusy 0
      match fail with
      | none =>
        let s := s.otpResult r.cmd r.result r.output
        if r.cmd = cmdLcAdvance ∨ r.cmd = cmdOwnerChange then s.lifeChange r.cmd else s
      | some b => s.otpFailed.otpResult r.cmd mbOtpFail (failOutput r.cmd b)

/-- MBOX_DONE (R165). -/
def execMboxDone (s : State) : Host.Outcome State Fault Refusal := .next s.mboxDone

/-- Programming is cut short (R365, R244): a number of bits that is not given are programmed, the rest abandoned. Answers
the first bit not attempted, or the one that failed. -/
def State.cutProgram (s : State) (x : OtpRun) : State × Nat :=
  let (s, d) := s.draw 2
  let n := leNat d % max 1 x.todo.length
  let part : OtpRun := { x with todo := x.todo.take n }
  match splitFail part with
  | (bits, none) => (s.blowAll bits, x.todo.getD n noFailBit)
  | (bits, some b) => ((s.blowAll bits).blowPart b, b)

/-! ### Commands without a signature -/

/-- GET_NONCE (R165). -/
def State.cmdNonce (s : State) (input : List Byte) : MboxStart :=
  if !input.isEmpty then s.mboxRun cmdGetNonce mbBadLength
  else
    let (s, n) := s.draw 32
    { s with trust := { s.trust with nonce := some n } }.mboxRun cmdGetNonce mbOk n

/-- GET_NONCE (R165). -/
def execGetNonce (input : List Byte) (s : State) : Host.Outcome State Fault Refusal :=
  mboxCmd "GET_NONCE" (Instr.wf (.getNonce input)) cmdGetNonce input (·.cmdNonce input) s

/-- GET_WRAP_KEY (R159, R165): the wrap public key, signed by the attestation alias. -/
def State.cmdWrapKey (s : State) (input : List Byte) : MboxStart :=
  if !input.isEmpty then s.mboxRun cmdGetWrapKey mbBadLength
  else match s.keysAllowed, s.wrapKey with
    | true, some w =>
      let (s, rnd) := s.draw 48
      let p := publicKey97 w
      s.mboxRun cmdGetWrapKey mbOk (p ++ signature (attestSeed ((s.cdi).getD [])) p rnd)
    | _, _ => s.mboxRun cmdGetWrapKey mbNotPermitted

/-- GET_WRAP_KEY (R165). -/
def execGetWrapKey (input : List Byte) (s : State) : Host.Outcome State Fault Refusal :=
  mboxCmd "GET_WRAP_KEY" (Instr.wf (.getWrapKey input)) cmdGetWrapKey input (·.cmdWrapKey input) s

/-- The data key of a wrapped key (R167): none where it fails. -/
def unwrapKey (wrapSeed w : List Byte) (func : Nat) : Option (List Byte) :=
  let form := w.take 4 == [0x42, 0x58, 0x57, 0x4B] && fieldAt w 4 1 == 1 && fieldAt w 5 1 == func && zeroIn w 105 108
    && zeroIn w 168 176
  if !form then none
  else match sharedX wrapSeed (sliceBytes w 8 97) with
    | none => none
    | some z =>
      let kek := hkdfSha384 z [] (asciiBytes "BXWRAPK1" ++ sliceBytes w 5 3 ++ sha384 (publicKey97 wrapSeed)) 32
      let iv := sliceBytes w 108 12
      let ct := sliceBytes w 120 32
      if gcmAuth kek iv (w.take 120) ct == sliceBytes w 152 16 then some (gcmCrypt kek iv ct) else none

/-- KEY_LOAD (R129, R166, R167). -/
def State.cmdLoad (s : State) (input : List Byte) : MboxStart :=
  let func := fieldAt input 0 1
  let slot := fieldAt input 1 1
  let w := input.drop 12
  let ver := fieldAt w 6 2
  if input.length ≠ 188 || !zeroIn input 2 4 then s.mboxRun cmdKeyLoad mbBadLength
  else if !s.keysAllowed || s.get .bootStatusState == 3 then s.mboxRun cmdKeyLoad mbNotPermitted
  else if s.vfCount < func || 7 < slot then s.mboxRun cmdKeyLoad mbLimit
  else if s.keyState func slot ≠ keyEmpty then s.mboxRun cmdKeyLoad mbSlotBusy
  else match s.wrapKey.bind (fun k => unwrapKey k w func) with
    | none => s.mboxRun cmdKeyLoad mbUnwrapFail
    | some key =>
      if (s.keySlotOf func ver).isSome then s.mboxRun cmdKeyLoad mbSlotBusy
      else
        let s := (s.set .tarnStatusWiped 0).set .tarnStatusKeypathOpen 1
        (s.loadKey func slot ver (fieldAt input 4 8) key).mboxRun cmdKeyLoad mbOk

/-- KEY_LOAD (R167). -/
def execKeyLoad (input : List Byte) (s : State) : Host.Outcome State Fault Refusal :=
  mboxCmd "KEY_LOAD" (Instr.wf (.keyLoad input)) cmdKeyLoad input (·.cmdLoad input) s

/-- KEY_UNLOAD (R131, R166). -/
def State.cmdUnload (s : State) (input : List Byte) : MboxStart :=
  let func := fieldAt input 0 1
  let slot := fieldAt input 1 1
  if input.length ≠ 2 then s.mboxRun cmdKeyUnload mbBadLength
  else if s.vfCount < func || 7 < slot then s.mboxRun cmdKeyUnload mbLimit
  else (s.unloadKey func slot).mboxRun cmdKeyUnload mbOk

/-- KEY_UNLOAD (R131). -/
def execKeyUnload (input : List Byte) (s : State) : Host.Outcome State Fault Refusal :=
  mboxCmd "KEY_UNLOAD" (Instr.wf (.keyUnload input)) cmdKeyUnload input (·.cmdUnload input) s

/-- The codes of R165 and R361. -/
def knownCmds : List Nat :=
  [cmdGetNonce, cmdGetWrapKey, cmdKeyLoad, cmdKeyUnload, cmdLcAdvance, cmdOwnerChange, cmdArbAdvance, cmdUdsGenerate,
   cmdOtpProgram, cmdOtpLock, cmdBistRun]

/-- An unknown CMD (R166). -/
def State.cmdUnknown (s : State) (cmd : Nat) : MboxStart := s.mboxRun cmd mbBadCommand

/-- MBOX_UNKNOWN_CMD (R166): nothing where the code is one the device knows. -/
def execMboxUnknownCmd (cmd : Nat) (input : List Byte) (s : State) : Host.Outcome State Fault Refusal :=
  if knownCmds.contains cmd then whenWf "MBOX_UNKNOWN_CMD" (Instr.wf (.mboxUnknownCmd cmd input)) s
  else mboxCmd "MBOX_UNKNOWN_CMD" (Instr.wf (.mboxUnknownCmd cmd input)) cmd input (·.cmdUnknown cmd) s

/-- BIST_RUN (R361, R371). -/
def State.cmdBist (s : State) (input : List Byte) : MboxStart :=
  let tests := fieldAt input 0 2
  let full := fieldAt input 2 1
  if input.length ≠ 12 || !zeroIn input 3 4 || tests % 2 = 1 || 1024 ≤ tests || 1 < full then
    s.mboxRun cmdBistRun mbBadLength
  else if !s.bistAccepted tests || s.bist.isSome || (tests &&& destructiveTests != 0 && !s.ringsQuiet) then
    s.mboxRun cmdBistRun mbNotPermitted
  else (s.bistStart { tests, full := full == 1, inst := fieldAt input 4 8 }).mboxRun cmdBistRun mbOk

/-- BIST_RUN (R371). -/
def execBistRun (input : List Byte) (s : State) : Host.Outcome State Fault Refusal :=
  mboxCmd "BIST_RUN" (Instr.wf (.bistRun input)) cmdBistRun input (·.cmdBist input) s

/-! ### Life cycle and owner (R160 to R162) -/

/-- May the part go from its state to `target` (R161, R360)? -/
def State.lcTarget (s : State) (target : Nat) : Bool :=
  let from_ := s.lc
  let ready := [0, 4, 5].all (fun r => s.flag .otpRegionValid r && s.flag .otpRegionLocked r)
  (from_ = lcBlank && target = lcMfg) || (from_ = lcMfg && target = lcProvisioned && ready)
    || (from_ = lcProvisioned && target = lcDeployed)
    || ((from_ = lcProvisioned || from_ = lcDeployed) && target = lcReturned)
    || ((from_ = lcDeployed || from_ = lcReturned) && target = lcScrapped)

/-- The bits of an owner slot and its check. -/
def State.ownerBits (s : State) (k : Nat) (hash : List Byte) : List Nat :=
  s.bitsToBlow (ownerByte k) hash ++ s.bitsToBlow (0x1C0 + 4 * k) (leBytes 4 (crc32c hash))

/-- The thermometer positions up to a state. -/
def State.lcBits (s : State) (target : Nat) : List Nat := s.bitsToBlow 0x080 (leBytes 1 (2 ^ target - 1))

/-- Check words and LOCK bits of regions 1 to 3 (R360). -/
def State.mfgBits (s : State) : List Nat :=
  [1, 2, 3].flatMap (fun r => s.bitsToBlow (checkByte r) (leBytes 4 (fixedCheck r)) ++ s.bitsToBlow (lockByte r) [1])

/-- LC_ADVANCE (R161, R162). A nonzero OWNER_HASH with a TARGET other than 2 ends BAD_LENGTH, as a reserved byte does (DESIGN
CHOICE, log entry 67). -/
def State.cmdAdvance (s : State) (input : List Byte) (env : OtpEnv) : MboxStart :=
  let target := fieldAt input 0 1
  let hash := sliceBytes input 4 48
  let lenOk := input.length == 148 && zeroIn input 1 4 && (target == lcProvisioned || zeroIn input 4 52)
  s.signedCmd cmdLcAdvance "BXLCADV1" input 52 lenOk (s.lcTarget target) false s.signerKey (fun s =>
    let todo := (if target = lcProvisioned then s.ownerBits 0 hash else []) ++ s.lcBits target
      ++ (if target = lcMfg then s.mfgBits else [])
    s.startProgram cmdLcAdvance [] todo env)

/-- LC_ADVANCE (R162). -/
def execLcAdvance (input : List Byte) (env : OtpEnv) (s : State) : Host.Outcome State Fault Refusal :=
  mboxCmd "LC_ADVANCE" (Instr.wf (.lcAdvance input env)) cmdLcAdvance input (·.cmdAdvance input env) s

/-- OWNER_CHANGE (R160, R162). -/
def State.cmdOwner (s : State) (input : List Byte) (env : OtpEnv) : MboxStart :=
  s.signedCmd cmdOwnerChange "BXOWNER1" input 48 (input.length == 144) (s.lc == lcProvisioned) (s.ownerNow == some 3)
    s.ownerKey (fun s => s.startProgram cmdOwnerChange [] (s.ownerBits (s.ownerNow.elim 0 (· + 1)) (input.take 48)) env)

/-- OWNER_CHANGE (R162). -/
def execOwnerChange (input : List Byte) (env : OtpEnv) (s : State) : Host.Outcome State Fault Refusal :=
  mboxCmd "OWNER_CHANGE" (Instr.wf (.ownerChange input env)) cmdOwnerChange input (·.cmdOwner input env) s

/-- ARB_ADVANCE (R164, R360): one position per step up to the target. -/
def State.cmdArb (s : State) (input : List Byte) (env : OtpEnv) : MboxStart :=
  let target := fieldAt input 0 1
  let permitted := (s.lc == lcMfg || s.lc == lcProvisioned || s.lc == lcDeployed) && decide (s.arbShadow < target)
    && decide (target ≤ s.get .lcsArbFwSvn)
  s.signedCmd cmdArbAdvance "BXARBADV" input 4 (input.length == 100 && zeroIn input 1 4) permitted false s.ownerKey (fun s =>
    s.startProgram cmdArbAdvance [] (s.bitsToBlow 0x090 (leBytes 16 (2 ^ target - 1))) env)

/-- ARB_ADVANCE (R164). -/
def execArbAdvance (input : List Byte) (env : OtpEnv) (s : State) : Host.Outcome State Fault Refusal :=
  mboxCmd "ARB_ADVANCE" (Instr.wf (.arbAdvance input env)) cmdArbAdvance input (·.cmdArb input env) s

/-! ### OTP commands (R360, R361, R364) -/

/-- UDS_GENERATE (R361). -/
def State.cmdUds (s : State) (input : List Byte) (env : OtpEnv) : MboxStart :=
  let permitted := s.lc == lcMfg && !s.flag .otpRegionLocked 0 && (List.range 32).all (fun k => s.arrayByte k == 0)
  s.signedCmd cmdUdsGenerate "BXUDSGN1" input 4 (input.length == 100 && zeroIn input 0 4) permitted false s.signerKey
    (fun s =>
      let (s, uds) := s.draw 32
      s.startProgram cmdUdsGenerate (publicKey97 (deviceSeed uds)) (s.bitsToBlow 0 uds) env)

/-- UDS_GENERATE (R361). -/
def execUdsGenerate (input : List Byte) (env : OtpEnv) (s : State) : Host.Outcome State Fault Refusal :=
  mboxCmd "UDS_GENERATE" (Instr.wf (.udsGenerate input env)) cmdUdsGenerate input (·.cmdUds input env) s

/-- The regions OTP_PROGRAM and OTP_LOCK may name in the state (R360), unlocked. -/
def State.otpOpen (s : State) (r : Nat) : Bool :=
  ((s.lc == lcBlank && (r == 4 || r == 5))
    || ((s.lc == lcMfg || s.lc == lcProvisioned) && (r == 0 || r == 4 || r == 5))) && !s.flag .otpRegionLocked r

/-- Does the whole range lie in an open region, without its lock word and without the UDS? -/
def State.otpRange (s : State) (o n : Nat) : Bool :=
  match regionOf o with
  | some r => s.otpOpen r && decide (0x020 ≤ o) && decide (o + n ≤ lockByte r)
  | none => false

/-- OTP_PROGRAM (R361, R362). -/
def State.cmdProgram (s : State) (input : List Byte) (env : OtpEnv) : MboxStart :=
  let o := fieldAt input 0 2
  let n := fieldAt input 2 2
  let lenOk := decide (1 ≤ n) && decide (n ≤ 256) && input.length == 4 + n + 96
  s.signedCmd cmdOtpProgram "BXOTPPG1" input (4 + n) lenOk (s.otpRange o n) false s.signerKey (fun s =>
    s.startProgram cmdOtpProgram (leBytes 4 noFailBit) (s.bitsToBlow o (sliceBytes input 4 n)) env)

/-- OTP_PROGRAM (R362). -/
def execOtpProgram (input : List Byte) (env : OtpEnv) (s : State) : Host.Outcome State Fault Refusal :=
  mboxCmd "OTP_PROGRAM" (Instr.wf (.otpProgram input env)) cmdOtpProgram input (·.cmdProgram input env) s

/-- The lock guard (R364). -/
def State.lockGuard (s : State) (r : Nat) (margins : List Nat) : Bool :=
  (regionBytes r).all (fun k => (s.senseByte margins k).2 == 0) && otpCrcOk (fun k => (s.senseByte margins k).1) r

/-- OTP_LOCK (R364). -/
def State.cmdLock (s : State) (input : List Byte) (env : OtpEnv) : MboxStart :=
  let r := fieldAt input 0 1
  let override := fieldAt input 1 1
  let lenOk := input.length == 100 && decide (override ≤ 1) && zeroIn input 2 4
  let permitted := s.otpOpen r && (override == 0 || s.lc == lcMfg)
  s.signedCmd cmdOtpLock "BXOTPLK1" input 4 lenOk permitted false s.signerKey (fun s =>
    if override = 0 && !s.lockGuard r env.margins then s.mboxRun cmdOtpLock mbNotPermitted
    else s.startProgram cmdOtpLock [] (s.bitsToBlow (lockByte r) [if override = 0 then 1 else 3]) env)

/-- OTP_LOCK (R364). -/
def execOtpLock (input : List Byte) (env : OtpEnv) (s : State) : Host.Outcome State Fault Refusal :=
  mboxCmd "OTP_LOCK" (Instr.wf (.otpLock input env)) cmdOtpLock input (·.cmdLock input env) s

/-- What a GO starts, by its CMD (R165, R361). -/
def State.mboxStart (s : State) (cmd : Nat) (input : List Byte) (env : OtpEnv) : MboxStart :=
  match cmd with
  | 0x01 => s.cmdNonce input
  | 0x02 => s.cmdWrapKey input
  | 0x10 => s.cmdLoad input
  | 0x11 => s.cmdUnload input
  | 0x20 => s.cmdAdvance input env
  | 0x21 => s.cmdOwner input env
  | 0x22 => s.cmdArb input env
  | 0x30 => s.cmdUds input env
  | 0x31 => s.cmdProgram input env
  | 0x32 => s.cmdLock input env
  | 0x40 => s.cmdBist input
  | _ => s.cmdUnknown cmd

/-! ### Tamper (R171) and Paired queues (R244) -/

def tamperField : Detector → FN
  | .volt => .lcsTamperVolt
  | .clock => .lcsTamperClock
  | .temp => .lcsTamperTemp
  | .mesh => .lcsTamperMesh

/-- LCS_TAMPER bits [4:0]. -/
def State.tamperCauses (s : State) : Nat :=
  s.get .lcsTamperVolt + 2 * s.get .lcsTamperClock + 4 * s.get .lcsTamperTemp + 8 * s.get .lcsTamperMesh
    + 16 * s.get .lcsTamperLcWipe

/-- Tamper meets an OTP command (R365): OTP_FAIL naming the first bit not attempted. -/
def State.tamperOtp (s : State) : State :=
  match s.trust.mbox with
  | some r =>
    match r.otp with
    | some x =>
      let (s, b) := s.cutProgram x
      let r : MboxRun := { r with result := mbOtpFail, output := failOutput r.cmd b, otp := none }
      ({ s with trust := { s.trust with mbox := some r } }).set .otpStatusProgBusy 0
    | none => s
  | none => s

/-- A detector fires (R171, R172): the cause bit, the response, the class F record. The voltage detectors are not armed before
VDD_CORE is in range (R391). -/
def State.tamper (s : State) (d : Detector) : State :=
  if s.lc = lcBlank || !s.boot.aux || (decide (d = .volt) && !s.boot.coreVolt) then s
  else
    let s := (s.set (tamperField d) 1).bistAbort.tamperOtp.wipe
    s.report { cls := .f, source := evLcsTamper, cause := causeTamper, detail := s.tamperCauses }

/-- LCS_TAMPER (R171). -/
def execLcsTamper (detector : Detector) (s : State) : Host.Outcome State Fault Refusal := .next (s.tamper detector)

/-- The mailbox queue resets: the command in progress, the one entry lost, ends BAD_COMMAND. -/
def State.mboxReset (s : State) : State :=
  let lost := b2n s.trust.mbox.isSome
  let s := match s.trust.mbox with
    | none => s
    | some r =>
      let s := match r.otp with
        | some x => (s.cutProgram x).1.set .otpStatusProgBusy 0
        | none => s
      s.mboxEnd mbBadCommand []
  s.report { cls := .u, source := evLcsMboxReset, cause := causeQueueReset, detail := lost }

/-- The fault record queue resets: its records count as lost, and the reset is the first record after it. -/
def State.recordsReset (s : State) : State :=
  let lost := s.get .fltQueueCount
  let s := ((s.satInc .fltOvfCount 0 0 lost).set .fltQueueCount 0).set .fltQueueHead 0
  let s := { s with collector := { s.collector with ovfRaised := false } }
  s.report { cls := .u, source := evFltQueueReset, cause := causeQueueReset, detail := lost }

/-- The key-request queue resets (R170): its requests are issued again. How many it held is a free value (log entry 1): the model
keeps no request of an engine between commands. -/
def State.keyRequestsReset (s : State) : State :=
  let s := { s.satInc .tarnKqResetsCount with trust := { s.trust with reissue := true } }
  let (s, lost) := s.draw 1
  s.report { cls := .u, source := evTarnKqReset, cause := causeQueueReset, detail := leNat lost }

/-- PAIRED_QUEUE_MISMATCH (R244). -/
def execPairedQueueMismatch (queue : PairedQueue) (s : State) : Host.Outcome State Fault Refusal :=
  .next (if !s.boot.aux then s else match queue with
    | .faultRecords => s.recordsReset
    | .mailbox => s.mboxReset
    | .keyRequests => s.keyRequestsReset)

end Sys2Proof.Machine
end

