-- ==== Sys2Proof/Machine/Pcie.lean ====
section
/-! DEFINITION. The PCI Express endpoint (08_pcie.md): lanes, link states, functions, tags and completions, MSI-X, DOE and
margining. What a PERST# or a start does stands in Starts.lean. -/

namespace Sys2Proof.Machine

/-! ### Training (R179 to R183) -/

/-- Physical lanes of a width, in normal or reversed order (R180). -/
def laneGroup (width : Nat) (reversed : Bool) : List Nat :=
  (List.range width).map (fun i => if reversed then 15 - i else i)

/-- The widest width up to `most` that the working lanes support (R180, R182); 0 for none. -/
def trainWidth (working most : Nat) (reversed : Bool) : Nat :=
  ([16, 8, 4, 2, 1].find? (fun w => w ≤ most && (laneGroup w reversed).all (bitAt working))).getD 0

/-- The rate trained (R176, R182): 64.0 GT/s needs Flit mode. -/
def trainRate (t : TrainResult) (most : Nat) : Nat :=
  let r := min t.rate most
  if r = 6 && !t.flit then 5 else max 1 r

/-- Precoding of a trained link (R183), by logical lane. -/
def State.showPrecode (s : State) (precodeTx : Nat) : State :=
  let rate := s.get .pcxLinkStatusRate
  let lanes := 2 ^ s.get .pcxLinkStatusWidth - 1
  let tx := if 5 ≤ rate then precodeTx &&& lanes else 0
  let s := (s.set .pcxPrecodeTx tx).set .pcxLinkStatusPrecodeTx (b2n (tx ≠ 0))
  s.set .pcxPrecodeRx (if rate = 6 && s.flag .pcxLinkCfgRxPrecodeReq then lanes else 0)

/-- WIDTH_DEGRADED and RATE_DEGRADED (R182). -/
def State.showDegraded (s : State) : State :=
  (s.set .pcxStatusWidthDegraded (b2n (s.get .pcxLinkStatusWidth < s.get .pcxLinkCfgMaxWidth))).set .pcxStatusRateDegraded
    (b2n (s.get .pcxLinkStatusRate < s.get .pcxLinkCfgMaxRate))

/-- A training judged against MAX_WIDTH and MAX_RATE (R182): not before an image has given them (log entry 32). -/
def State.judgeLink (s : State) : State :=
  if s.image.isEmpty || !s.dlUp then s
  else
    let s := s.showDegraded
    if s.flag .pcxStatusWidthDegraded || s.flag .pcxStatusRateDegraded then s.raise evPcxLinkDegraded else s

/-- The same for a link that has been judged: a degradation is told once, when its flag is set. -/
def State.rejudge (s : State) : State :=
  if s.image.isEmpty || !s.dlUp then s
  else
    let t := s.showDegraded
    let new (f : FN) : Bool := t.flag f && !s.flag f
    if new .pcxStatusWidthDegraded || new .pcxStatusRateDegraded then t.raise evPcxLinkDegraded else t

/-- What the link has met since its last training (R205, R208, R377). -/
def State.linkMet (s : State) (t : TrainResult) : State :=
  let s := s.satInc .pcxFecCorrCount 0 0 t.fecCorr
  let s := (s.satInc .pcxReplaysCount 0 0 t.replays).count 0x05 2 0 t.replays
  t.errors.foldl (fun s e => s.linkError e) s

/-- PCIe lane quads follow the trained lanes (R308: domains 58 to 61). -/
def State.laneQuads (s : State) (used : Nat) : State :=
  (List.range 4).foldl (fun s q =>
    let d := 58 + q
    if (List.range 4).any (fun i => bitAt used (4 * q + i)) then
      (if s.dom d = domOff then (s.setDom d domOn).satInc .pwrWakeCount d else s)
    else s.setDom d domOff) s

/-- The link trains (R179 to R183): no change of the data link where no lane is usable. Answers whether it is up. -/
def State.train (s : State) (t : TrainResult) : State × Bool :=
  let s := s.pcxBoundary
  let w := trainWidth t.working (s.get .pcxLinkCfgMaxWidth) t.reversed
  if w = 0 || t.rate = 0 then (s, false)
  else
    let s := ((s.set .pcxLinkStatusWidth w).set .pcxLinkStatusRate (trainRate t (s.get .pcxLinkCfgMaxRate))).set
      .pcxLinkStatusFlit (b2n t.flit)
    let s := ((s.set .pcxLinkStatusReversed (b2n t.reversed)).set .pcxLinkStatusDlUp 1).set .pcxLinkStatusLtssm 3
    let s := (s.set .pcxPolarityInv t.inverted).set .pcxLinkStatusL0pReduced 0
    let used := (laneGroup w t.reversed).foldl (fun m l => m + 2 ^ l) 0
    let s := (s.set .pcxLaneFailLanes (65535 - used)).laneQuads used
    let s := ({ s with pcie := { s.pcie with width := w, loopback := false } }).showPrecode t.precodeTx
    (((s.wrapInc .pcxRecoveriesCount 0 0 t.recoveries).linkMet t).judgeLink, true)

/-- The link is gone: no rate and no state of a link, no lane quad in use (R308); IDE streams and their keys are cleared
(R158). What the latest training found stays: REVERSED until the next entry to
Configuration, PCX_POLARITY until the next to Polling (R180, R181, R208). -/
def State.linkGone (s : State) : State :=
  let s := [FN.pcxLinkStatusRate, .pcxLinkStatusL0pReduced, .pcxLinkStatusDlUp, .pcxLinkStatusLtssm].foldl
    (fun s f => s.set f 0) (s.laneQuads 0)
  { s with pcie := { s.pcie with width := 0, loopback := false }, trust := { s.trust with streams := [] } }

/-! ### Requests that are held (R150, R186, R187, R189, R194) -/

/-- Is a request held by the functions' enables its own? -/
def outFunc : Out → Option Nat
  | .write f _ _ _ _ => some f
  | .read _ f _ _ _ => some f
  | .flushRead _ f _ _ => some f
  | .msix f _ _ _ => some f
  | _ => none

/-- A held request leaves; a message that goes with it covers the log entries awaiting it (R150). -/
def State.emitHeld (s : State) (o : Out) : State :=
  match o with
  | .msix f v _ _ => (s.tlp o).logSent f v
  | _ => s.tlp o

/-- Held requests of functions that may issue again leave, in order (R187, R189, R194), and held completions once the link
carries them. -/
def State.releaseOut (s : State) : State :=
  let may (o : Out) : Bool := match outFunc o with
    | some f => s.mayIssue f
    | none => !s.linkHeld
  let go := s.pcie.held.filter may
  let s := { s with pcie := { s.pcie with held := s.pcie.held.filter (fun o => !may o) } }
  go.foldl State.emitHeld s

/-! ### Link states (R185, R186, R189) -/

/-- The link comes back to L0 at a rate, with the precoding asked of the transmitters: what was held leaves. -/
def State.recovered (s : State) (rate precodeTx : Nat) : State :=
  (((s.set .pcxLinkStatusRate rate).set .pcxLinkStatusLtssm ltssmL0).showPrecode precodeTx).rejudge.releaseOut

/-- The width that a passage through Recovery leaves (R182): a lane that fails there is dropped; a change of width passes
through Configuration, which decides the reversal again (R180). -/
def State.rewidth (s : State) (t : TrainResult) (w : Nat) : State :=
  if w = s.get .pcxLinkStatusWidth then s
  else
    let s := (s.set .pcxLinkStatusWidth w).set .pcxLinkStatusReversed (b2n t.reversed)
    let used := (laneGroup w t.reversed).foldl (fun m l => m + 2 ^ l) 0
    let s := ((s.set .pcxLaneFailLanes (65535 - used)).laneQuads used).set .pcxLinkStatusL0pReduced 0
    { s with pcie := { s.pcie with width := w } }

/-- LINK_RECOVERY (R189): the entry counts unless Retrain Link made it; where no lane is usable, the link stays as it was. -/
def State.linkRecovery (s : State) (t : TrainResult) : State :=
  if !s.flag .pcxLinkStatusDlUp then s
  else
    let s := (if s.get .pcxLinkStatusLtssm == ltssmRecovery then s else s.recovery).linkMet t
    let w := trainWidth t.working (s.get .pcxLinkCfgMaxWidth) t.reversed
    if w = 0 || t.rate = 0 then s.recovered (s.get .pcxLinkStatusRate) (s.get .pcxPrecodeTx)
    else (s.rewidth t w).recovered (trainRate { t with flit := s.flag .pcxLinkStatusFlit } (s.get .pcxLinkCfgMaxRate)) t.precodeTx

/-- LINK_RECOVERY (R189). -/
def execLinkRecovery (train : TrainResult) (s : State) : Host.Outcome State Fault Refusal := .next (s.linkRecovery train)

/-- Is L0p in operation: Flit mode, enabled by the host, the link up? -/
def State.l0pOn (s : State) : Bool := s.flag .pcxLinkStatusDlUp && s.flag .pcxLinkStatusFlit && s.flag .cfgL0pEn

/-- The width in use set (R185). -/
def State.useWidth (s : State) (w : Nat) : State :=
  ({ s with pcie := { s.pcie with width := w } }).set .pcxLinkStatusL0pReduced (b2n (w < s.get .pcxLinkStatusWidth))

/-- L0P_IDLE_EXPIRE (R185): the device asks for MIN_WIDTH; a declined request leaves the width. -/
def State.l0pIdle (s : State) (accepted : Bool) : State :=
  let w := s.get .pcxL0pMinWidth
  if !s.l0pOn || !s.flag .pcxLinkCfgL0pInit || s.pcie.width ≤ w then s
  else
    let s := s.emit (.l0p w)
    if accepted then s.useWidth w else s

/-- L0P_IDLE_EXPIRE (R185). -/
def execL0pIdleExpire (accepted : Bool) (s : State) : Host.Outcome State Fault Refusal := .next (s.l0pIdle accepted)

/-- L0P_WIDTH_REQUEST (R185): every request of the partner for a width of the link is accepted. -/
def State.l0pRequest (s : State) (w : Nat) : State :=
  if s.l0pOn && [1, 2, 4, 8, 16].contains w && w ≤ s.get .pcxLinkStatusWidth then s.useWidth w else s

/-- L0P_WIDTH_REQUEST (R185). -/
def execL0pWidthRequest (width : Nat) (s : State) : Host.Outcome State Fault Refusal := .next (s.l0pRequest width)

/-- L0P_FULL_WIDTH_REQUEST (R185). -/
def State.l0pFull (s : State) (accepted : Bool) : State :=
  if !s.l0pOn || s.get .pcxLinkStatusWidth ≤ s.pcie.width then s
  else
    let s := s.emit (.l0p (s.get .pcxLinkStatusWidth))
    if accepted then s.useWidth (s.get .pcxLinkStatusWidth) else s

/-- L0P_FULL_WIDTH_REQUEST (R185). -/
def execL0pFullWidthRequest (accepted : Bool) (s : State) : Host.Outcome State Fault Refusal := .next (s.l0pFull accepted)

/-- Is a completion owed to the host: a plan-port read waits (R61), or a BAR2 read on its way through the fabric? -/
def State.owesCompletion (s : State) : Bool :=
  !s.pcie.replies.isEmpty || s.weirs.queue.any (fun r => decide (r.op = .fence)) ||
  s.planSlots.any (fun x => x.2.running.isSome || !x.2.held.isEmpty)

/-- Is a request of an enabled function queued? -/
def State.requestQueued (s : State) : Bool :=
  s.pcie.held.any (fun o => match outFunc o with
    | some f => s.enabled f
    | none => true)

/-- L1_ENTRY (R186): ASPM L1 is enabled, and nothing is owed, outstanding or queued. -/
def State.l1Entry (s : State) : State :=
  if s.flag .pcxLinkStatusDlUp && bitAt (s.get .cfgAspm) 1 && s.pcie.tags.isEmpty && s.pcie.waiting.isEmpty
      && !s.owesCompletion && !s.requestQueued && s.get .pcxLinkStatusLtssm == ltssmL0 then
    s.set .pcxLinkStatusLtssm ltssmL1
  else s

/-- L1_ENTRY (R186). -/
def execL1Entry (s : State) : Host.Outcome State Fault Refusal := .next s.l1Entry

/-- L1_EXIT (R186): through Recovery, which PCX_RECOVERIES counts, whether a request queued in L1 or the partner began it.
The rate follows a MAX_RATE below it (DEDUCED, log entry 32). -/
def State.l1Exit (s : State) : State :=
  if !s.linkHeld then s
  else
    let s := if s.get .pcxLinkStatusLtssm == ltssmL1 then s.recovery else s
    s.recovered (min (s.get .pcxLinkStatusRate) (max 1 (s.get .pcxLinkCfgMaxRate))) (s.get .pcxPrecodeTx)

/-- L1_EXIT (R186). -/
def execL1Exit (s : State) : Host.Outcome State Fault Refusal := .next s.l1Exit

/-- LOOPBACK_ENTRY (R177): the device follows the partner into Loopback. -/
def execLoopbackEntry (s : State) : Host.Outcome State Fault Refusal :=
  .next (if s.flag .pcxLinkStatusDlUp then
      ({ s with pcie := { s.pcie with loopback := true } }).set .pcxLinkStatusLtssm 7
    else s)

/-! ### Configuration space (R187, R192, R194, R195) -/

/-- Does the device answer configuration requests with Retry Status (R195, R340): before the identity is in place, and until step
7 has ended? -/
def State.retrying (s : State) : Bool := s.pcie.identity.isEmpty || s.boot.run.any (fun r => decide (r.wait = .image))

/-- Do configuration requests complete: the link is up, and the device answers no Retry Status? -/
def State.cfgOpen (s : State) : Bool := s.flag .pcxLinkStatusDlUp && !s.retrying

/-- Every job of the job unit whose processing is over gets its completion. -/
def State.completeAll (s : State) : State := s.jobUnit.jobs.foldl (fun s j => s.jobComplete j.ring j.slot) s

/-- D3HOT_ENTRY (R187): jobs in flight are cancelled and completed, the Lake is flushed, engine domains go off, the stack
enters self-refresh. -/
def State.d3hotEntry (s : State) : State :=
  if !s.cfgOpen || s.d3hot then s
  else
    let s := ((s.stopJobs .cancelled 0).completeAll).forgetSeals (fun _ => true)
    let s := s.startFlush.enginesOff.srForceAll
    (s.set .cfgPmState 3).raise evPcxDState 0 3

/-- D3HOT_ENTRY (R187). -/
def execD3hotEntry (s : State) : Host.Outcome State Fault Refusal := .next s.d3hotEntry

/-- D0_RETURN (R187): every register, context and record is kept; held requests leave. -/
def State.d0Return (s : State) : State :=
  if !s.cfgOpen || !s.d3hot then s
  else
    let s := s.set .cfgPmState 0
    let s := if s.quiesced then s else s.domainsOn.srReleaseAll
    let s := (rangeWith 256 s.ringAlloc).foldl State.showRing s.releaseOut
    s.raise evPcxDState 0 0

/-- D0_RETURN (R187). -/
def execD0Return (s : State) : Host.Outcome State Fault Refusal := .next s.d0Return

/-- VF_ENABLE (R192): VFs 1 to NumVFs exist, or every VF is reset. -/
def State.vfEnable (s : State) (en : Bool) : State :=
  if !s.cfgOpen then s
  else if en then s.set .cfgVfEnable 1
  else if !s.flag .cfgVfEnable then s
  else
    let s := (List.range 64).foldl (fun s v => if v = 0 then s else s.flr v) s
    s.set .cfgVfEnable 0

/-- VF_ENABLE (R192). -/
def execVfEnable (en : Bool) (s : State) : Host.Outcome State Fault Refusal := .next (s.vfEnable en)

/-- Does a function's configuration space answer? -/
def State.cfgOf (s : State) (func : Nat) : Bool := s.cfgOpen && s.funcExists func

/-- BUS_MASTER_ENABLE (R194): what the function held leaves, and its rings fetch again or stop (R69). -/
def State.busMaster (s : State) (func : Nat) (en : Bool) : State :=
  if !s.cfgOf func then s
  else
    let s := (s.set .cfgBme (b2n en) func).releaseOut
    (s.ringsOf func).foldl State.showRing s

/-- BUS_MASTER_ENABLE (R194). -/
def execBusMasterEnable (func : Nat) (en : Bool) (s : State) : Host.Outcome State Fault Refusal :=
  whenWf "BUS_MASTER_ENABLE" (Instr.wf (.busMasterEnable func en)) (s.busMaster func en)

/-- MEMORY_SPACE_ENABLE (R194). -/
def execMemorySpaceEnable (func : Nat) (en : Bool) (s : State) : Host.Outcome State Fault Refusal :=
  whenWf "MEMORY_SPACE_ENABLE" (Instr.wf (.memorySpaceEnable func en))
    (if s.cfgOf func then s.set .cfgMse (b2n en) func else s)

/-! ### Tags and completions (R197 to R201) -/

/-- The tag width that the enables give (R197). -/
def State.tagWidth (s : State) : Nat :=
  if s.flag .cfgTag14En && s.flag .pcxLinkStatusFlit then 14 else if s.flag .cfgTag10En then 10 else 8

/-- Reads that wait take the free tags. -/
def State.serveAll (s : State) : State := s.pcie.waiting.foldl (fun s _ => s.serveTags) s

/-- TAG_ENABLE_EFFECT (R197): once no read is outstanding. -/
def State.tagEffect (s : State) : State :=
  if s.pcie.tags.isEmpty then ({ s with pcie := { s.pcie with tagBits := s.tagWidth } }).serveAll else s

/-- TAG_ENABLE_EFFECT (R197). -/
def execTagEnableEffect (s : State) : Host.Outcome State Fault Refusal := .next s.tagEffect

/-- TAG_QUARANTINE_END (R198). -/
def State.quarantineEnd (s : State) (t : Nat) : State :=
  if s.pcie.quarantine.contains t then
    ({ s with pcie := { s.pcie with
      quarantine := s.pcie.quarantine.filter (· ≠ t), freed := s.pcie.freed ++ [t] } }).serveAll
  else s

/-- TAG_QUARANTINE_END (R198). -/
def execTagQuarantineEnd (tag : Nat) (s : State) : Host.Outcome State Fault Refusal :=
  whenWf "TAG_QUARANTINE_END" (Instr.wf (.tagQuarantineEnd tag)) (s.quarantineEnd tag)

/-- A completion for an outstanding tag arrives (R198). -/
def State.tagAnswered (s : State) (r : TagUse) (c : Completion) : State :=
  let s := s.retireTag r.tag
  match c with
  | .data bytes => s.received bytes.length
  | .failed why =>
    let s := match why with
      | .poisoned => s.aerUncorrectable 0 aerPoisoned false true
      | _ => s
    s.readFailed r

/-- Does a TLP fail an IDE check, whose jobs fail (R158)? -/
def tlpIdeBad : Tlp → Bool
  | .ideCheck _ | .misroutedIde _ | .pcrc _ => true
  | .good | .poisoned | .ecrc | .plain _ => false

/-- A completion whose TLP is good: for an outstanding tag, or unexpected (R198). -/
def State.completionGood (s : State) (t : Nat) (c : Completion) : State :=
  match s.pcie.tags.find? (·.tag == t) with
  | some r => s.tagAnswered r c
  | none => (s.satInc .pcxUnexpCplCount).aerAdvisoryNonFatal 0 aerUnexpected

/-- COMPLETION_RECEIVED (R158, R198, R205): one that fails an IDE check fails the unit that read; its tag stays outstanding. -/
def State.completion (s : State) (t : Nat) (c : Completion) (tlp : Tlp) : State :=
  let use := s.pcie.tags.find? (·.tag == t)
  let s := s.tlpGuard 0 false tlp (·.completionGood t c)
  match tlpIdeBad tlp, use with
  | true, some r => (s.readFailed r).orphanReads (fun x => decide (x = r.use))
  | _, _ => s

/-- COMPLETION_RECEIVED (R198). -/
def execCompletionReceived (tag : Nat) (c : Completion) (tlp : Tlp) (s : State) : Host.Outcome State Fault Refusal :=
  whenWf "COMPLETION_RECEIVED" (Instr.wf (.completionReceived tag c tlp)) (s.completion tag c tlp)

/-- CPL_TIMEOUT (R200, R201). -/
def State.cplTimeout (s : State) (t : Nat) : State :=
  if s.flag .cfgCtoDisable then s
  else match s.pcie.tags.find? (·.tag == t) with
    | none => s
    | some r =>
      (s.retireTag t).timedOut.readFailed r

/-- CPL_TIMEOUT (R200). -/
def execCplTimeout (tag : Nat) (s : State) : Host.Outcome State Fault Refusal :=
  whenWf "CPL_TIMEOUT" (Instr.wf (.cplTimeout tag)) (s.cplTimeout tag)

/-! ### MSI-X (R204) -/

/-- A vector's pending message leaves once neither mask holds it. -/
def State.msixPending (s : State) (func vector : Nat) : State :=
  let w := s.get .msixPba func (vector / 32)
  if bitAt w (vector % 32) && s.flag .cfgMsixEn func && !s.flag .cfgMsixFuncMask func && !s.flag .msixMask func vector then
    let s := (s.set .msixPba (w - 2 ^ (vector % 32)) func (vector / 32)).issue func (s.msixMsg func vector)
    let s := s.ringsSent func vector
    if s.mayIssue func then s.logSent func vector else s
  else s

/-- A vector's mask bit written. -/
def State.msixSetMask (s : State) (func vector : Nat) (v : Bool) : State :=
  (s.set .msixMask (b2n v) func vector).msixPending func vector

/-- MSIX_UNMASK (R204). -/
def execMsixUnmask (func vector : Nat) (s : State) : Host.Outcome State Fault Refusal :=
  whenWf "MSIX_UNMASK" (Instr.wf (.msixUnmask func vector)) (s.blockWrite 0x05 func (·.msixSetMask func vector false))

/-! ### Requests without support, DOE, margining (R177, R184, R207) -/

/-- ATOMICOP (R177): Unsupported Request, from every BAR. -/
def execAtomicop (func bar : Nat) (s : State) : Host.Outcome State Fault Refusal :=
  whenWf "ATOMICOP" (Instr.wf (.atomicop func bar)) (s.respondUr func true)

/-- The DOE Discovery response to an index (PRESUMED: the base specification's layout, log entry 26). -/
def doeDiscovery (index : Nat) : List Byte :=
  [0x01, 0x00, BitVec.ofNat 8 (min index 2), if index < 2 then BitVec.ofNat 8 (index + 1) else 0]

/-- Request codes that R154 lists (PRESUMED: the base specification's numbers, log entry 26). -/
def spdmCodes : List Nat := [0x81, 0x82, 0x83, 0x84, 0x85, 0x86, 0xE0, 0xE1, 0xE3, 0xE4, 0xE5, 0xE9, 0xEC, 0xFE]

/-- DOE_OBJECT (R207): Discovery is answered; a CMA/SPDM object is dispatched to the responder, to which a request of R154 comes
with its own command, and any other is Unsupported (R154). -/
def State.doeObject (s : State) (type : DoeType) (dwords : Nat) (bytes : List Byte) : State :=
  if !s.cfgOpen || s.flag .cfgDoeBusy then s
  else if 1024 < dwords then s.set .cfgDoeError 1
  else match type with
    | .other => s.set .cfgDoeError 1
    | .discovery => s.doeReply 0 (doeDiscovery (fieldAt bytes 0 1)) (.doe (doeDiscovery (fieldAt bytes 0 1)))
    | .cmaSpdm =>
      let s := (s.set .cfgDoeBusy 1).set .cfgDoeReady 0
      if 2 ≤ bytes.length && !spdmCodes.contains (fieldAt bytes 1 1) then s.spdmRequest .doe (.unsupported (fieldAt bytes 1 1))
      else s
    | .securedCmaSpdm => (s.set .cfgDoeBusy 1).set .cfgDoeReady 0

/-- DOE_OBJECT (R207). -/
def execDoeObject (type : DoeType) (dwords : Nat) (bytes : List Byte) (s : State) : Host.Outcome State Fault Refusal :=
  .next (s.doeObject type dwords bytes)

/-- The object in progress is discarded: one part received, and one whose response waits for the signer. -/
def State.doeDrop (s : State) : State :=
  let s := s.setConn .doe { s.conn .doe with chunkIn := [] }
  { s with trust := { s.trust with
      signer := s.trust.signer.filter (fun r => decide (r.transport ≠ Transport.doe))
      requests := s.trust.requests.filter (fun r => decide (r.1 ≠ Transport.doe)) } }.spdmQueue []

/-- DOE_ABORT (R207): the object in progress is discarded. -/
def State.doeAbort (s : State) : State :=
  if s.cfgOpen then
    let s := s.doeDrop
    let s := { s with pcie := { s.pcie with doeIn := [], doeOut := [] } }
    ((s.set .cfgDoeBusy 0).set .cfgDoeError 0).set .cfgDoeReady 0
  else s

/-- DOE_ABORT (R207). -/
def execDoeAbort (s : State) : Host.Outcome State Fault Refusal := .next s.doeAbort

/-- GO of the mailbox's control register: the object written dword by dword is received (R207; layout of its header PRESUMED,
log entry 62). -/
def State.doeGo (s : State) : State :=
  let d := s.pcie.doeIn
  let s := { s with pcie := { s.pcie with doeIn := [] } }
  let head := d.headD 0
  let type : DoeType := if head % 65536 ≠ 1 then .other else match head / 65536 % 256 with
    | 0 => .discovery
    | 1 => .cmaSpdm
    | 2 => .securedCmaSpdm
    | _ => .other
  let n := d.getD 1 0 % 2 ^ 18
  s.doeObject type (if n = 0 then 2 ^ 18 else n) ((d.drop 2).flatMap (leBytes 4))

/-- A write of the mailbox's write data register. -/
def State.doeWrite (s : State) (v : Nat) : State :=
  if s.flag .cfgDoeBusy then s else { s with pcie := { s.pcie with doeIn := s.pcie.doeIn ++ [v] } }

/-- A write of the read data register: the next dword of the response. -/
def State.doeNext (s : State) : State :=
  let rest := s.pcie.doeOut.drop 1
  let s := { s with pcie := { s.pcie with doeOut := rest } }
  if rest.isEmpty then s.set .cfgDoeReady 0 else s

/-- The parameters of R184, by the payload of the report command that asks for each. -/
def State.marginReport (s : State) (payload : Nat) : Option Nat :=
  match payload with
  | 0x88 => some 0x1F                                            -- error sampler, sample count, left/right, up/down, voltage
  | 0x89 => some 32                                              -- NumVoltageSteps
  | 0x8A => some 16                                              -- NumTimingSteps
  | 0x8B => some 40                                              -- MaxTimingOffset
  | 0x8C => some (if s.get .pcxLinkStatusRate = 6 then 12 else 25) -- MaxVoltageOffset
  | 0x90 => some 15                                              -- MaxLanes
  | _ => none

/-- A lane's answer to a margin command (R184): receiver number, margin type and usage model come back with the payload; a
report carries its parameter, a step or an error limit what the sampler finds, a free value (command layout PRESUMED, log
entry 62). -/
def State.marginAnswer (s : State) (lane command : Nat) : State :=
  let type := bits command 5 3
  let head := command % 256
  if type = 1 then
    match s.marginReport (bits command 15 8) with
    | some v => s.emit (.margin lane (head + 256 * v))
    | none => s.emit (.margin lane head)
  else if type = 3 || type = 4 then
    let (s, d) := s.draw 1
    s.emit (.margin lane (head + 256 * leNat d))
  else s.emit (.margin lane (command % 65536))

/-- MARGIN_COMMAND (R184): answered at 16.0, 32.0 and 64.0 GT/s only. -/
def execMarginCommand (lane command : Nat) (s : State) : Host.Outcome State Fault Refusal :=
  whenWf "MARGIN_COMMAND" (Instr.wf (.marginCommand lane command))
    (if s.flag .pcxLinkStatusDlUp && 4 ≤ s.get .pcxLinkStatusRate then s.marginAnswer lane command else s)

end Sys2Proof.Machine
end

