-- ==== Sys2Proof/Machine/Bar2.lean ====
section
/-! DEFINITION. Host requests through BAR2 (R194, R195, R213, R223). -/

namespace Sys2Proof.Machine

/-- The enabled basin of a function that holds byte `off` of its BAR2 (R209, R213). -/
def State.bar2Basin (s : State) (func off : Nat) : Option Nat :=
  (List.range 64).find? (fun b =>
    s.basinOn b && !s.flag .drcBasinCfgJournal b && s.get .drcBasinCfgOwner b == func
      && s.basinBase b ≤ off && off < s.basinBase b + s.basinSize b)

/-- The line pieces of a request, each in its basin: basin, offset in it, length; none where a byte lies in none. Basins
start at multiples of 64 KiB, so no line lies in two. -/
def State.bar2Pieces (s : State) (func off n : Nat) : Option (List (Nat × Nat × Nat)) :=
  (linePieces (n + 1) off n).foldr (fun p rest =>
    match rest, s.bar2Basin func p.1 with
    | some l, some b => some ((b, p.1 - s.basinBase b, p.2) :: l)
    | _, _ => none) (some [])

/-- Lies a request inside the function's BAR2 (R193)? -/
def State.bar2Inside (s : State) (func off n : Nat) : Bool :=
  s.bar2Log2 func != 0 && off + n ≤ 2 ^ s.bar2Log2 func

/-- A request that meets a hole (R223). -/
def State.bar2Hole (s : State) (func : Nat) (nonPosted : Bool) : State :=
  (((s.set .drcStatusBar2Hole 1).satInc .drcBar2HolesCount).raise evDrcBar2Hole func).respondUr func nonPosted

/-- The states in which BAR2 answers Completer Abort (R195, R223); otherwise `f`. -/
def State.bar2Open (s : State) (func : Nat) (nonPosted : Bool) (f : State → State) : State :=
  if !s.ready then (s.set .pcxStatusBar2Early 1).respondCa func nonPosted
  else if s.shutdown then (s.set .drcStatusBar2Therm 1).respondCa func nonPosted
  else if s.inHold || s.fatal then s.respondCa func nonPosted
  else f s

/-- The port of the PCIe BAR master (R18, R253). -/
def portBar2 : Nat := 54

/-- A read is presented line by line at its port, at RT class; each part is answered as its slice serves it (R223). -/
def State.bar2Serve (s : State) (func : Nat) (pieces : List (Nat × Nat × Nat)) : State :=
  let n := s.pcie.nextRead
  let s := { s with pcie := { s.pcie with
    nextRead := n + 1, replies := s.pcie.replies ++ pieces.map (fun _ => { read := n, func }) } }
  pieces.foldl (fun s p =>
    let (pc, a) := s.locate p.1 p.2.1
    s.portSend { port := portBar2, group := func, rt := true, units := 1, pc, a, op := .reply n p.2.2 }) s

/-- A read of BAR2 (R223); one that data answers is presented to DRC_BAR2_MAXLAT (R226). -/
def State.bar2Read (s : State) (func off len latency : Nat) : State :=
  if !s.barOpen func || !s.bar2Inside func off len then s.respondUr func true
  else s.bar2Open func true (fun s =>
    if len = 0 then s.portSend { port := portBar2, group := func, rt := true, units := 1, pc := 0, a := pcBytes, op := .fence }
    else match s.bar2Pieces func off len with
      | none => s.bar2Hole func true
      | some pieces => (s.bar2Serve func pieces).raiseMax .drcBar2MaxlatMaxlat latency)

/-- BAR2_READ (R223). -/
def execBar2Read (func off len : Nat) (arrives : TimedTlp) (s : State) : Host.Outcome State Fault Refusal :=
  whenWf "BAR2_READ" (Instr.wf (.bar2Read func off len arrives))
    (s.tlpGuard func true arrives.tlp (·.bar2Read func off len arrives.latency))

/-- A write merged line by line, deferred (R223, R230). -/
def State.bar2Store (s : State) (pieces : List (Nat × Nat × Nat)) (func : Nat) (bytes : List Byte) (poisoned : Bool) : State :=
  (pieces.foldl (fun (acc : State × List Byte) p =>
    (acc.1.basinWrite portBar2 func p.1 p.2.1 (acc.2.take p.2.2) poisoned false, acc.2.drop p.2.2)) (s, bytes)).1

def State.bar2Write (s : State) (func off : Nat) (bytes : List Byte) (poisoned : Bool) : State :=
  let s := s.received bytes.length
  if !s.barOpen func || !s.bar2Inside func off bytes.length || s.mps func < bytes.length then s.respondUr func false
  else s.bar2Open func false (fun s =>
    match s.bar2Pieces func off bytes.length with
    | none => s.bar2Hole func false
    | some pieces =>
      let s := s.bar2Store pieces func bytes poisoned
      if poisoned then (s.set .drcStatusBar2Poison 1).aerAdvisoryNonFatal func aerPoisoned else s)

/-- BAR2_WRITE (R223). -/
def execBar2Write (func off : Nat) (bytes : List Byte) (poisoned : Bool) (tlp : Tlp) (s : State) :
    Host.Outcome State Fault Refusal :=
  whenWf "BAR2_WRITE" (Instr.wf (.bar2Write func off bytes poisoned tlp))
    (s.tlpGuard func false tlp (·.bar2Write func off bytes (poisoned || decide (tlp = .poisoned))))

end Sys2Proof.Machine
end

