-- ==== Sys2Proof/Machine/Ranges.lean ====
section
/-! DEFINITION. How a written value is stored: the range rules of the register tables, and of R263 and R298. A register
write and an image value go through the same rules (R337). -/

namespace Sys2Proof.Machine

/-- The nearest value of a range. -/
def clampTo (lo hi v : Nat) : Nat := max lo (min hi v)

/-- The power of two at or below `v`, from 1 to 16. -/
def floorPow16 (v : Nat) : Nat := if 16 ≤ v then 16 else if 8 ≤ v then 8 else if 4 ≤ v then 4 else if 2 ≤ v then 2 else 1

/-- QMIN of the other groups (R263). -/
def State.qminOthers (s : State) (g : Nat) : Nat :=
  ((rangeWith 65 (fun x => x ≠ g)).map (fun x => s.get .weirGrpCfgQmin x)).foldl (· + ·) 0

/-- The value that a write of `v` to instance `i` of a field stores. -/
def State.storedAs (s : State) (f : FN) (i v : Nat) : Nat :=
  match f with
  | .fltCtrlQuietMs | .drcCtrlSrIdleUs | .drcCtrlAgeCap | .vlkCtrlLaneWin | .integCtrlDegLogMs | .weirPortBurstBurst
  | .weirCtrlAgeLimit | .pcxL0pIdleUs | .engCfgRejoinLimit => max 1 v
  | .vlkCtrlLaneTh | .calCtrlCalDelta => max 2 v
  | .engCfgJobTaskCap => max 8 v
  | .pcxLinkCfgMaxRate => min 6 v
  | .pcxLinkCfgMaxWidth => floorPow16 v
  | .pcxL0pMinWidth => if v = 1 ∨ v = 2 ∨ v = 4 then v else 8
  | .drcRfmRfmTh => clampTo 32 4096 v
  | .drcWrqWrLo => min 59 v
  | .drcWrqWrHi => max (s.get .drcWrqWrLo + 1) (clampTo 2 60 v)
  | .weirGrpCfgPrioBase => min 2 v
  | .weirGrpCfgQmin => min v (56 - s.qminOthers i)
  | .weirGrpCfgQmax => max (s.get .weirGrpCfgQmin i) (clampTo 1 60 v)
  | .thmCtrlGrace => min 1000 v
  | .thmCtrlTf | .pwrCapPtf => clampTo 1 16 v
  | .pwrCapLimit => clampTo 60 150 v
  | .pmcBwCfgWindowUs => clampTo 1 1000000 v
  | .integDrRcfgRoundGib => clampTo 1 96 v
  | _ => v

/-- A field stored under its range rule, in effect at once. -/
def State.store (s : State) (f : FN) (v : Nat) (i : Nat := 0) (j : Nat := 0) : State := s.set f (s.storedAs f i v) i j

/-! ### Thresholds (R297, R298) -/

/-- Default levels: WARN, THROTTLE, SHUTDOWN of the logic and the DRAM domain, and HYST. -/
def thDefault (dram : Bool) : Nat × Nat × Nat := if dram then (85, 95, 105) else (90, 100, 110)

def thDefaultHyst : Nat := 3

/-- The fields of a domain's threshold register. -/
def thFields (dram : Bool) : FN × FN × FN × FN :=
  if dram then (.thmDramThWarn, .thmDramThThrottle, .thmDramThShutdown, .thmDramThHyst)
  else (.thmLogicThWarn, .thmLogicThThrottle, .thmLogicThShutdown, .thmLogicThHyst)

/-- A level held between its default − 30 °C and its default. -/
def thLevel (dflt v : Nat) : Nat := clampTo (dflt - 30) dflt v

/-- The levels stored; none where they break WARN < THROTTLE < SHUTDOWN or HYST from 1 to 7. -/
def thAccept (dram : Bool) (warn throttle shutdown hyst : Nat) : Option (Nat × Nat × Nat) :=
  let (dw, dt, ds) := thDefault dram
  let (w, t, x) := (thLevel dw warn, thLevel dt throttle, thLevel ds shutdown)
  if w < t ∧ t < x ∧ 1 ≤ hyst ∧ hyst ≤ 7 then some (w, t, x) else none

/-- The levels stored in a domain's register. -/
def State.thStored (s : State) (dram : Bool) : Nat × Nat × Nat × Nat :=
  let (w, t, x, h) := thFields dram
  (s.get w, s.get t, s.get x, s.get h)

/-- An accepted write takes effect at the next sample of each layer (R298): until then a layer keeps the levels it has. -/
def State.keepLevels (s : State) (dram : Bool) : State :=
  let mine := (List.range 18).filter (fun l => decide (2 ≤ l) == dram && (assoc s.thermal.levels l).isNone)
  { s with thermal := { s.thermal with levels := s.thermal.levels ++ mine.map (fun l => (l, s.thStored dram)) } }

/-- A write of a threshold register; `image`: an image value, in force at once, replaced by the default where it is rejected,
which READY then shows (R298). -/
def State.writeTh (s : State) (dram image : Bool) (warn throttle shutdown hyst : Nat) : State :=
  let (fw, ft, fs, fh) := thFields dram
  let put (s : State) (x : Nat × Nat × Nat) (h : Nat) : State :=
    (((s.set fw x.1).set ft x.2.1).set fs x.2.2).set fh h
  match thAccept dram warn throttle shutdown hyst with
  | some x => put (if image then s else s.keepLevels dram) x hyst
  | none =>
    if image then put { s with thermal := { s.thermal with reject := true } } (thDefault dram) thDefaultHyst
    else s.set .thmStatusThReject 1

end Sys2Proof.Machine
end

