-- ==== Sys2Proof/Machine/Thermal.lean ====
section
/-! DEFINITION. Heat and power (R294 to R309): sensors, layers, thresholds, the throttle machine, shutdown and RESUME, the
stack thermal model, power regulation. Temperatures are in 0.125 °C. -/

namespace Sys2Proof.Machine

/-! ### Layers (R295, R296) -/

/-- A signed 16-bit value as it is stored. -/
def word16 (v : Int) : Nat := (v % 65536).toNat

/-- The highest of a list of readings. -/
def highest : List Int → Option Int
  | [] => none
  | x :: xs => some (xs.foldl max x)

def State.meas (s : State) (l : Nat) : Int := sint16 (s.get .thmLayerTMeas l)
def State.model (s : State) (l : Nat) : Int := sint16 (s.get .thmLayerTModel l)
def State.gov (s : State) (l : Nat) : Int := sint16 (s.get .thmLayerGGov l)
def State.suspect (s : State) (l : Nat) : Bool := s.flag .thmLayerGSuspect l

/-- A layer's domain: DRAM from L2 on (R297). -/
def layerDram (l : Nat) : Bool := 2 ≤ l

/-- WARN, THROTTLE, SHUTDOWN and HYST in force for a layer (R297, R298), in 0.125 °C. -/
def State.levels (s : State) (l : Nat) : Int × Int × Int × Int :=
  let (w, t, x, h) := (assoc s.thermal.levels l).getD (s.thStored (layerDram l))
  (8 * w, 8 * t, 8 * x, 8 * h)

/-- The layers of a domain. -/
def domainLayers (dram : Bool) : List Nat := (List.range 18).filter (fun l => layerDram l == dram)

/-- RATE for a layer's GOV (R296). -/
def State.rateOf (s : State) (l : Nat) : Nat :=
  let (_, t, x, _) := s.levels l
  if x - 16 ≤ s.gov l then 2 else if t - 40 ≤ s.gov l then 1 else 0

/-- GOV of a layer, and REF_TEMP of its die, from MEAS and MODEL (R217, R296). -/
def State.showGov (s : State) (l : Nat) : State :=
  let g := if s.suspect l then max (s.model l) (s.meas l) else s.meas l
  let s := s.set .thmLayerGGov (word16 g) l
  if !layerDram l then s
  else (List.range 4).foldl (fun s k => s.set .drcPcStateRefTemp ((s.dieTemp (l - 2) / 8 % 256).toNat) (4 * (l - 2) + k)) s

/-- ANY_SUSPECT. -/
def State.showAny (s : State) : State := s.set .thmStatusAnySuspect (b2n ((List.range 18).any s.suspect))

/-- A layer's MEAS is its working sensors' highest reading; without one, the model's value (R295, R296). -/
def State.showMeas (s : State) (l : Nat) : State :=
  match highest ((s.workingSensors l).map s.sensor) with
  | some m => s.set .thmLayerTMeas (word16 m) l
  | none => if l = 0 then s else s.set .thmLayerTMeas (s.get .thmLayerTModel l) l

/-! ### Calibration triggers (R310, R311) -/

/-- The layer of a calibration target (R311); none where the target does not exist. -/
def calLayer (kind index : Nat) : Option Nat :=
  match kind with
  | 1 => if index < 88 then some (sensorLayer index) else none
  | 2 => if index < 16 then some (index + 2) else none
  | 3 => if index < 16 then some 0 else none
  | 4 => if index = 0 then some 0 else none
  | 5 => if index < 32 then some (index / 2 + 2) else none
  | 6 => if index < 64 then some (index / 4 + 2) else none
  | 7 => if 1 ≤ index ∧ index ≤ 17 then some index else none
  | _ => none

/-- A target's calibration is triggered (R311): during its own run it is evaluated again at the end. -/
def State.calTrigger (s : State) (kind index : Nat) : State :=
  let t := (kind, index)
  if kind = 7 || s.cal.waiting.contains t || s.cal.again.contains t then s
  else if s.cal.running.contains t then { s with cal := { s.cal with again := s.cal.again ++ [t] } }
  else { s with cal := { s.cal with waiting := s.cal.waiting ++ [t] } }

/-- Has GOV moved by more than CAL_DELTA since the target's last run? -/
def State.calMoved (s : State) (t : CalTarget) (l : Nat) : Bool :=
  decide (8 * (s.get .calCtrlCalDelta : Int) < (s.gov l - sint16 t.temp).natAbs)

/-- The targets of a layer whose GOV has moved are triggered. -/
def State.calCheck (s : State) (l : Nat) : State :=
  s.cal.targets.foldl (fun s t =>
    if t.kind ≠ 7 && calLayer t.kind t.index == some l && s.calMoved t l then s.calTrigger t.kind t.index else s) s

/-! ### SUSPECT (R306) -/

/-- A layer becomes SUSPECT: event, count, and a calibration of its sensors, of kind 1 (R306, R311). -/
def State.becomeSuspect (s : State) (l : Nat) : State :=
  if s.suspect l then s
  else
    let s := ((s.set .thmLayerGSuspect 1 l).satInc .thmSuspectsCount).raise evThmSensorSuspect 0xFF l
    let s := (layerSensors l).foldl (fun s k => if k < 88 then s.calTrigger 1 k else s) s
    s.showAny

/-! ### Failed sensors (R295) -/

/-- A sensor fails: class C, and a layer or the device without sensors. -/
def State.sensorFails (s : State) (k : Nat) : State :=
  let (f, i) := sensFailed k
  let l := sensorLayer k
  let s := (s.set f 1 i).report { cls := .c, source := evThmSensorFail, arg := k }
  if l = 0 then
    if k ≠ 15 && (List.range 15).all s.sensorFailed then
      s.report { cls := .f, source := evThmSensorFail, cause := causeSensorLoss }
    else s
  else if (s.workingSensors l).isEmpty then s.becomeSuspect l
  else s

/-- One reading of a sample: held while the sensor is calibrated, ignored once it has failed (R295, R312). -/
def State.takeReading (s : State) (l : Nat) (r : Reading) : State :=
  if sensorLayer r.sensor ≠ l || s.sensorFailed r.sensor || s.sensorStale r.sensor then s
  else match r.value with
    | none => s.sensorFails r.sensor
    | some v =>
      if sint16 v < -320 ∨ 1200 < sint16 v then s.sensorFails r.sensor
      else let (f, i) := sensTemp r.sensor; s.set f v i

/-! ### Thresholds and the throttle machine (R297 to R302) -/

/-- The governing temperature of a domain (R297). -/
def State.domainTemp (s : State) (dram : Bool) : Int :=
  (highest ((domainLayers dram).map s.gov)).getD 0

/-- Is a level that `f` gives reached in a domain: by the GOV of one of its layers; is it left: by all (R297)? -/
def State.reached (s : State) (dram : Bool) (f : Int × Int × Int × Int → Int) : Bool :=
  (domainLayers dram).any (fun l => decide (f (s.levels l) ≤ s.gov l))
def State.levelLeft (s : State) (dram : Bool) (f : Int × Int × Int × Int → Int) : Bool :=
  (domainLayers dram).all (fun l => decide (s.gov l ≤ f (s.levels l) - (s.levels l).2.2.2))

/-- A peak register presented with a temperature; the comparison is signed (R6, R315). -/
def State.raisePeak (s : State) (f : FN) (v : Int) : State := if sint16 (s.get f) < v then s.set f (word16 v) else s

/-- The WARN bit of a domain (R299). -/
def State.warn (s : State) (dram : Bool) : State :=
  let f : FN := if dram then .thmStatusWarnDram else .thmStatusWarnLogic
  if !s.flag f && s.reached dram (·.1) then (s.set f 1).raise evThmWarning 0xFF (b2n dram)
  else if s.flag f && s.levelLeft dram (·.1) then s.set f 0
  else s

/-- Is a domain at or above its throttle level; has it left it; has it reached its shutdown level? -/
def State.throttleOn (s : State) (dram : Bool) : Bool := s.reached dram (·.2.1)
def State.throttleLeft (s : State) (dram : Bool) : Bool := s.levelLeft dram (·.2.1)
def State.shutdownOn (s : State) (dram : Bool) : Bool := s.reached dram (·.2.2.1)

/-- TSTATE, THR_REQ and THERM_N together (R300). -/
def State.setTstate (s : State) (t : Nat) : State :=
  ((s.set .thmStatusTstate t).set .thmStatusThrReq (b2n (t = 1 ∨ t = 2))).set .fltStateThermPin (b2n (t ≠ 0))

/-- The layer that reached its shutdown level, the lowest-numbered of several. -/
def State.hottest (s : State) : Nat :=
  ((List.range 18).filter (fun l => decide ((s.levels l).2.2.1 ≤ s.gov l))).headD 0

/-- Entry to SHUTDOWN (R302): units end, jobs complete THERMAL_ABORT, the Lake is flushed, the stack enters self-refresh,
engine and pond-fabric domains go off. -/
def State.thermalShutdown (s : State) : State :=
  let layer := s.hottest
  let s := s.setTstate 3
  let s := s.thermalAborts.completeAll
  let s := s.startFlush.srForceAll
  let s := (s.enginesOff.fabricOff).satInc .thmShutdownsCount
  s.report { cls := .u, source := evThmShutdown, cause := causeThermal, detail := layer }

/-- The throttle machine of R300 after a sample or a model update. -/
def State.throttleStep (s : State) : State :=
  if s.tstate = 3 then s
  else if s.shutdownOn false || s.shutdownOn true then s.thermalShutdown
  else match s.tstate with
    | 0 =>
      if s.throttleOn false || s.throttleOn true then ((s.setTstate 1).wrapInc .thmReqsCount).raise evThmThrottleReq else s
    | _ =>
      if s.throttleLeft false && s.throttleLeft true then (s.setTstate 0).raise evThmThrottleClear else s

/-- STACK_SUSPECT (R304): a layer from L1 on at 115 °C. -/
def State.stackCheck (s : State) : State :=
  if s.flag .thmStatusStackSuspect then s
  else match (List.range 18).find? (fun l => l ≠ 0 && decide (920 ≤ s.gov l)) with
    | none => s
    | some l =>
      ((s.set .thmStatusStackSuspect 1).set .bootStatusStackValid 0).report
        { cls := .u, source := evThmStackSuspect, cause := causeStackSuspect, detail := l }

/-- Everything that is evaluated against the governing temperatures. -/
def State.evalThermal (s : State) : State :=
  let s := (s.raisePeak .thmPeakLogic (s.domainTemp false)).raisePeak .thmPeakDram (s.domainTemp true)
  ((s.warn false).warn true).stackCheck.throttleStep

/-- A layer's sampling period and its levels, which change at a sample: the period is the one that GOV called for before it (R296;
DEDUCED, log entry 67), the levels those of the latest accepted write (R298). -/
def State.sampleTakes (s : State) (l : Nat) : State :=
  { s.set .thmLayerGRate (s.rateOf l) l with thermal := { s.thermal with levels := assocDel s.thermal.levels l } }

/-- A layer's sensors are sampled (R295, R296); what a start waits for is looked at by the caller. -/
def State.sensorSample (s : State) (l : Nat) (readings : List Reading) : State :=
  let s := s.sampleTakes l
  let s := readings.foldl (fun s r => s.takeReading l r) s
  let s := (s.showMeas l).showStale l
  ((s.showGov l).evalThermal.calCheck l).bistCheck

/-! ### The stack thermal model (R305, R306) -/

/-- MEAS of a layer as a neighbour sees it: the highest of S12 to S14 for L0. -/
def State.neighbour (s : State) (l : Nat) : Int :=
  if l = 0 then
    (highest ((([12, 13, 14] : List Nat).filter (fun k => !s.sensorFailed k)).map s.sensor)).getD (s.meas 0)
  else s.meas l

/-- k_theta's trim code of a layer (R305, R313). -/
def State.kThetaOf (s : State) (l : Nat) : Int :=
  match s.cal.targets.find? (fun t => t.kind == 7 && t.index == l) with
  | some t => Config.kTheta t.trim
  | none => Config.kTheta 0x03FF

/-- The energy of a layer's counts. -/
def energyOf (l : Nat) (counts : List Nat) : Int :=
  ((List.range counts.length).map (fun c => (counts.getD c 0 : Int) * Config.eventEnergy c l)).foldl (· + ·) 0

/-- MODEL of a layer from the previous sample's MEAS values (R305). -/
def State.modelOf (s : State) (intervalUs l : Nat) (counts : List Nat) : Int :=
  let nb := if l = 17 then s.neighbour 16 else (s.neighbour (l - 1) + s.neighbour (l + 1)) / 2
  nb + s.kThetaOf l * energyOf l counts / intervalUs

/-- The consecutive updates that R306 counts. -/
def countRun (l : List (Nat × Nat)) (k : Nat) (on : Bool) : List (Nat × Nat) × Nat :=
  let n := if on then (assoc l k).getD 0 + 1 else 0
  (assocPut l k n, n)

/-- SUSPECT after an update of a layer (R306). A layer without a working sensor takes the model as MEAS and stays SUSPECT
(R295). -/
def State.suspectStep (s : State) (l : Nat) : State :=
  let s := if (s.workingSensors l).isEmpty then s.showMeas l else s
  let (hot, h) := countRun s.thermal.hot l (decide (s.meas l + 32 < s.model l))
  let (cool, c) := countRun s.thermal.cool l (decide (s.model l ≤ s.meas l + 16))
  let s := { s with thermal := { s.thermal with hot, cool } }
  if 3 ≤ h then s.becomeSuspect l
  else if 1000 ≤ c && s.suspect l && !(s.workingSensors l).isEmpty then (s.set .thmLayerGSuspect 0 l).showAny
  else s

/-- The activity of a layer since the latest update: what the model's own events gave, and what the command brings of traffic
that it does not run. -/
def State.layerActivity (s : State) (l : Nat) (more : List Nat) : List Nat :=
  (List.range 8).map (fun c => (assoc s.counters.activity (8 * l + c)).getD 0 + more.getD c 0)

/-- An update of the model (R305). -/
def State.modelUpdate (s : State) (intervalUs : Nat) (counts : List (List Nat)) : State :=
  let layers := (List.range 17).map (· + 1)
  let models := layers.map (fun l => (l, s.modelOf intervalUs l (s.layerActivity l (counts.getD (l - 1) []))))
  let s := { s with counters := { s.counters with activity := [] } }
  let s := models.foldl (fun s m => s.set .thmLayerTModel (word16 m.2) m.1) s
  let s := layers.foldl (fun s l => (s.suspectStep l).showGov l) s
  let s := layers.foldl (fun s l => s.calCheck l) s
  s.evalThermal.bistCheck

/-! ### Grace, RESUME (R301, R303, R304) -/

/-- The grace time elapses (R301). -/
def State.graceExpire (s : State) : State := if s.tstate = 1 then (s.setTstate 2).raise evThmClampOn else s

/-- GRACE_EXPIRE (R301). -/
def execGraceExpire (s : State) : Host.Outcome State Fault Refusal := .next s.graceExpire

/-- The zeroing of R304: the stack, every ring context and every record; the Lake holds nothing of it. -/
def State.suspectZero (s : State) : State :=
  let s := s.dropJobs.dropTraffic.zeroStack.lakeInvalidate
  let s := (List.range 256).foldl (fun s q => if s.ringAlloc q then s.ringFresh q else s) s
  s.set .thmStatusStackSuspect 0

/-- Lake quadrants that are off are powered (R303), unless their PCs are all retired (R17). -/
def State.quadsOn (s : State) : State :=
  (List.range 4).foldl (fun s q =>
    match (List.range 16).find? (fun k => s.get .drcPcStateState (16 * q + k) ≠ 4) with
    | some k => s.wakeQuad (16 * q + k)
    | none => s) s

/-- A write of RESUME (R303): accepted in SHUTDOWN once both domains are below their throttle levels minus hysteresis. -/
def State.resume (s : State) : State :=
  let below (dram : Bool) : Bool :=
    (domainLayers dram).all (fun l => decide (s.gov l < (s.levels l).2.1 - (s.levels l).2.2.2))
  if s.tstate ≠ 3 then s
  else if !below false || !below true then s.set .thmStatusResumeEarly 1
  else
    let s := if s.flag .thmStatusStackSuspect then s.suspectZero else s
    let s := if s.fatal || s.inHold || s.d3hot || !s.ready then s else s.domainsOn.srReleaseAll.quadsOn
    (s.setTstate 0).raise evThmResume

/-- RESUME (R303). -/
def execResume (s : State) : Host.Outcome State Fault Refusal := .next (s.blockWrite 0x12 0 State.resume)

/-! ### Power regulation (R307) and the window boundary (R268, R269) -/

/-- A 1 ms period ends (R307). -/
def State.powerPeriodEnd (s : State) (deciWatts : Nat) : State :=
  let s := s.set .pwrStatusAvg (min 65535 deciWatts)
  let e := s.counters.energyRes + deciWatts
  let s := { s with counters := { s.counters with energyRes := e % 10 } }
  let s := if e / 10 = 0 then s else s.count 0x13 0 0 (e / 10)
  let limit := s.get .pwrCapLimit
  let calm (n : Nat) : State := { s with thermal := { s.thermal with below := n } }
  if 10 * limit < deciWatts then
    let s := calm 0
    if s.flag .pwrStatusCapped then s else ((s.set .pwrStatusCapped 1).wrapInc .pwrCapsCount).raise evPwrCapped
  else if !s.flag .pwrStatusCapped then s
  else if 2 * deciWatts < 19 * limit then
    if 10 ≤ s.thermal.below + 1 then ((calm 0).set .pwrStatusCapped 0).raise evPwrUncapped else calm (s.thermal.below + 1)
  else calm 0

/-- POWER_PERIOD_END (R307). -/
def execPowerPeriodEnd (deciWatts : Nat) (s : State) : Host.Outcome State Fault Refusal := .next (s.powerPeriodEnd deciWatts)

/-- The clamp's fraction in force at a boundary (R268, R307): the lower of TF in ENFORCED and PTF while capped. -/
def State.clampNow (s : State) : Option Nat :=
  match s.tstate == 2, s.flag .pwrStatusCapped with
  | true, true => some (min (s.get .thmCtrlTf) (s.get .pwrCapPtf))
  | true, false => some (s.get .thmCtrlTf)
  | false, true => some (s.get .pwrCapPtf)
  | false, false => none

/-- A Weir window boundary: the class-B fields of THM and PWR take effect with it (R269, R301, R307). -/
def State.windowBoundary (s : State) : State :=
  let s := (s.applyB .thmCtrlTf).applyB .pwrCapPtf
  s.weirBoundary s.clampNow

/-- WEIR_WINDOW_BOUNDARY (R269). -/
def execWeirWindowBoundary (s : State) : Host.Outcome State Fault Refusal := .next s.windowBoundary

end Sys2Proof.Machine
end

