-- ==== Sys2Proof/Machine/Calib.lean ====
section
/-! DEFINITION. Calibration (R310 to R314): triggers, runs, and the record in flash. -/

namespace Sys2Proof.Machine

/-! ### Runs (R311, R312) -/

/-- The channel that a run of kind 5 or 6 holds. -/
def calChannel (t : Nat × Nat) : Option Nat := if t.1 = 5 then some t.2 else if t.1 = 6 then some (t.2 / 2) else none

/-- Is a triggered run deferred now (R311)? -/
def State.calDeferred (s : State) (t : Nat × Nat) : Bool :=
  match calChannel t with
  | some c =>
    [2 * c, 2 * c + 1].any (fun p =>
      let st := s.get .drcPcStateState p
      (1 ≤ st && st ≤ 3) || s.vlink.running.any (fun x => if x.ca then x.unit == c else x.unit == p))
  | none =>
    if t.1 = 1 ∨ t.1 = 2 then
      match calLayer t.1 t.2 with
      | some l => s.get .thmLayerGRate l == 2
      | none => false
    else false

/-- DEFERRED: some triggered run is deferred (R311, R317). -/
def State.anyDeferred (s : State) : Bool := s.cal.waiting.any s.calDeferred

/-- Is the channel of a run held by another run? -/
def State.calChannelBusy (s : State) (t : Nat × Nat) : Bool :=
  match calChannel t with
  | some c => s.cal.running.any (fun r => calChannel r == some c)
  | none => false

def State.showCal (s : State) : State := s.set .calStatusRunning (b2n (!s.cal.running.isEmpty))

/-- The target of a run. -/
def State.calTarget (s : State) (kind index : Nat) : Option CalTarget :=
  s.cal.targets.find? (fun t => t.kind == kind && t.index == index)

def State.putTarget (s : State) (t : CalTarget) : State :=
  { s with cal := { s.cal with
    targets := s.cal.targets.map (fun x => if x.kind == t.kind && x.index == t.index then t else x) } }

/-- The reading of a sensor's run is held, and carries STALE with its layer (R312). -/
def State.runHeld (s : State) (kind index : Nat) : State :=
  if kind = 1 then s.showHeld index else if kind = 2 then s.showHeld (88 + index) else s

/-- A run starts (R311): the last-run value is the layer's GOV now. -/
def State.calRunStart (s : State) (kind index : Nat) : State :=
  let t := (kind, index)
  match calLayer kind index, s.calTarget kind index with
  | some l, some x =>
    if !s.cal.waiting.contains t || s.calDeferred t || s.calChannelBusy t then s
    else
      let s := { s with cal := { s.cal with waiting := s.cal.waiting.erase t, running := s.cal.running ++ [t] } }
      ((s.putTarget { x with temp := s.get .thmLayerGGov l }).runHeld kind index).showCal
  | _, _ => s

/-- CAL_RUN_START (R311). -/
def execCalRunStart (kind index : Nat) (s : State) : Host.Outcome State Fault Refusal :=
  whenWf "CAL_RUN_START" (Instr.wf (.calRunStart kind index)) (s.calRunStart kind index)

/-! ### The record (R313, R314) -/

/-- The bytes of a record. -/
def calRecord (seq : Nat) (ts : List CalTarget) : List Byte :=
  let entry (t : CalTarget) : List Byte :=
    leBytes 1 t.kind ++ leBytes 1 t.index ++ leBytes 2 t.trim ++ leBytes 2 t.temp ++ leBytes 1 (b2n t.dflt) ++ [0]
  let body : List Byte := [0x42, 0x58, 0x43, 0x52, 0x01, 0x00] ++ leBytes 2 ts.length ++ leBytes 4 seq ++ zeros 4
    ++ ts.flatMap entry
  body ++ leBytes 4 (crc32 body)

/-- First byte of a copy. -/
def calCopyAddr (copy : Nat) : Nat := 0x2000 + 0x1000 * copy

/-- A copy's SEQ and targets; none where it is not valid. A record that its 4 KiB do not hold is none. -/
def State.calCopy (s : State) (copy : Nat) : Option (Nat × List CalTarget) :=
  let h := s.flashBytes (calCopyAddr copy) 16
  let n := fieldAt h 6 2
  if fieldAt h 0 4 ≠ 0x52435842 ∨ fieldAt h 4 1 ≠ 1 ∨ fieldAt h 5 1 ≠ 0 ∨ n < 1 ∨ 509 < n ∨ fieldAt h 12 4 ≠ 0 then none
  else
    let all := s.flashBytes (calCopyAddr copy) (20 + 8 * n)
    if fieldAt all (16 + 8 * n) 4 ≠ crc32 (all.take (16 + 8 * n)) then none
    else
      some (fieldAt h 8 4, (List.range n).map (fun i =>
        let o := 16 + 8 * i
        { kind := fieldAt all o 1, index := fieldAt all (o + 1) 1, trim := fieldAt all (o + 2) 2,
          temp := fieldAt all (o + 4) 2, dflt := bitAt (fieldAt all (o + 6) 1) 0 }))

/-- The trims of targets, as the record in force. -/
def trimsOf (ts : List CalTarget) : List (Nat × Nat × Nat) := ts.map (fun t => (t.kind, t.index, t.trim))

/-- 10 minutes of crystal time. -/
def tenMinutes : Nat := 60000000000

/-- A record write starts where some trim differs by two or more codes from the record in force, and the last write lies
10 minutes back (R314); it goes to the copy that is not in force. -/
def State.calWriteCheck (s : State) : State :=
  let differs (t : CalTarget) : Bool :=
    match s.cal.record.find? (fun r => r.1 == t.kind && r.2.1 == t.index) with
    | some r => 2 ≤ r.2.2 - t.trim || 2 ≤ t.trim - r.2.2
    | none => true
  let late := match s.cal.lastWrite with
    | some t => t + tenMinutes ≤ s.cal.time
    | none => true
  if s.cal.writing.isNone && late && s.cal.targets.any differs then
    { s with cal := { s.cal with
      writing := some (1 - s.cal.copy, s.get .calRecSeqSeq + 1), lastWrite := some s.cal.time } }
  else s

/-- The 10 minutes after a record write end: a trim held back by them is written now (R314). -/
def State.calWriteLater (s : State) : State :=
  if s.cal.lastWrite.any (fun t => t + tenMinutes == s.cal.time) then s.calWriteCheck else s

/-- Does a port command that was there first keep the record's write waiting (R350)? -/
def State.portFirst (s : State) : Bool := s.boot.flashOp.any (fun x => !x.behind)

/-- A record write ends (R314). After a failure the copy's bytes are unknown. It ends only once it has begun. -/
def State.calWriteEnd (s : State) (ok : Bool) : State :=
  match s.cal.writing with
  | none => s
  | some (copy, seq) =>
    if s.portFirst then s
    else
      let s := { s with cal := { s.cal with writing := none } }
      if ok then
        let s := s.flashPut (calCopyAddr copy) (calRecord seq s.cal.targets)
        let s := { s with cal := { s.cal with copy := copy, record := trimsOf s.cal.targets } }
        (s.set .calRecSeqSeq seq).satInc .calRecWritesCount
      else
        let (s, junk) := s.draw (20 + 8 * s.cal.targets.length)
        ((s.flashPut (calCopyAddr copy) junk).set .calStatusRecWrFail 1).report { cls := .c, source := evCalRecWriteFail }

/-- CAL_RECORD_WRITE_END (R314). -/
def execCalRecordWriteEnd (ok : Bool) (s : State) : Host.Outcome State Fault Refusal := .next (s.calWriteEnd ok)

/-- The new trim of a run: that of the AON oscillator changes by at most one code (R310). -/
def newTrim (kind old new : Nat) : Nat := if kind = 4 then max (old - 1) (min (old + 1) new) else new

/-- A run ends (R311, R312, R314): the trim takes effect, held traffic proceeds, and a trigger that came meanwhile is
evaluated again. -/
def State.calRunEnd (s : State) (kind index trim : Nat) : State :=
  let t := (kind, index)
  match calLayer kind index, s.calTarget kind index with
  | some l, some x =>
    if !s.cal.running.contains t then s
    else
      let again := s.cal.again.contains t
      let s := { s with cal := { s.cal with running := s.cal.running.erase t, again := s.cal.again.erase t } }
      let y := { x with trim := newTrim kind x.trim trim, dflt := false }
      let s := (((s.putTarget y).runHeld kind index).showCal).wrapInc .calRunsCount
      let s := if (calChannel t).isSome then s.releaseHeld (fun p => !s.laneHold p && s.get .drcPcStateState p == 0) else s
      let s := if again && s.calMoved y l then s.calTrigger kind index else s
      s.calWriteCheck
  | _, _ => s

/-- CAL_RUN_END (R312). -/
def execCalRunEnd (kind index trim : Nat) (s : State) : Host.Outcome State Fault Refusal :=
  whenWf "CAL_RUN_END" (Instr.wf (.calRunEnd kind index trim)) (s.calRunEnd kind index trim)

/-- FORCE (R311): every target of kinds 1 to 6. -/
def State.calForce (s : State) : State :=
  s.cal.targets.foldl (fun s t => if t.kind ≤ 6 then s.calTrigger t.kind t.index else s) s

/-- FORCE (R311). -/
def execForce (s : State) : Host.Outcome State Fault Refusal := .next (s.blockWrite 0x14 0 State.calForce)

/-! ### At a start (R313, R314) -/

/-- Every target, in the record's order, with the trims of OTP. -/
def State.otpTargets (s : State) : List CalTarget :=
  (List.range 234).map (fun i =>
    let (kind, index) := trimTarget i
    { kind, index, trim := s.otpTrim i, temp := 0, dflt := true })

/-- The copy in force at a cold start: the valid one with the higher SEQ. -/
def State.calBest (s : State) : Option (Nat × Nat × List CalTarget) :=
  match s.calCopy 0, s.calCopy 1 with
  | some a, some b => if a.1 < b.1 then some (1, b) else some (0, a)
  | some a, none => some (0, a)
  | none, some b => some (1, b)
  | none, none => none

/-- The calibrations of kinds 1 to 6 are run, giving `trims` in the record's order at the GOV values of their layers. -/
def State.calRunAll (s : State) (trims : List Nat) : State :=
  let run (t : CalTarget) (v : Nat) : CalTarget :=
    match calLayer t.kind t.index with
    | some l => { t with trim := newTrim t.kind t.trim v, temp := s.get .thmLayerGGov l, dflt := false }
    | none => t
  let ts := (List.range s.cal.targets.length).map (fun i =>
    let t := s.cal.targets.getD i { kind := 0, index := 0, trim := 0, temp := 0, dflt := true }
    if t.kind ≤ 6 then run t (trims.getD i t.trim) else t)
  let n := (s.cal.targets.filter (fun t => t.kind ≤ 6)).length
  { s.wrapInc .calRunsCount 0 0 n with cal := { s.cal with targets := ts } }

/-- The calibration record read at a cold start (R314), a target that it does not name keeping its OTP trim. Without a valid
copy, and without valid trims in OTP (R367), every calibration is owed before READY. -/
def State.calRead (s : State) : State :=
  let trims := s.flag .otpRegionValid 5
  match s.calBest with
  | some (copy, seq, rec) =>
    let ts := s.otpTargets.map (fun t => (rec.find? (fun r => r.kind == t.kind && r.index == t.index)).getD t)
    let s := { s with cal := { s.cal with targets := ts, record := trimsOf ts, copy, owed := !trims } }
    (s.set .calRecSeqSeq seq).set .calStatusRecBad 0
  | none =>
    let ts := s.otpTargets
    let s := { s with cal := { s.cal with targets := ts, record := trimsOf ts, copy := 1, owed := true } }
    ((s.set .calRecSeqSeq 0).set .calStatusRecBad 1).raise evCalRecBad

/-- The calibrations of step 8 that are owed; `trims` are what they give. -/
def State.calOwed (s : State) (trims : List Nat) : State :=
  if s.cal.owed then
    let s := s.calRunAll trims
    { s with cal := { s.cal with owed := false } }.calWriteCheck
  else s

end Sys2Proof.Machine
end

