-- ==== Sys2Proof/Machine/Dredge.lean ====
section
/-! DEFINITION. Dredge (R285 to R288): its pieces, its lines, and the end of its passes. -/

namespace Sys2Proof.Machine

/-- Passes of a kind that still have lines to read; SCRUB's in fetch order. -/
def State.passesOf (s : State) (k : PassKind) : List Pass :=
  let seq (p : Pass) : Nat := ((s.findJob p.ring p.slot).map (·.fetchSeq)).getD 0
  let l := s.dredge.passes.filter (fun p => decide (p.kind = k) && !p.stopped && p.done < p.length)
  if k = .scrub then
    match l.find? (fun p => l.all (fun q => seq p ≤ seq q)) with
    | some p => [p]
    | none => []
  else l.take 1

/-- The sources in rotation, beginning after the one served last (R286). -/
def afterKind : Option PassKind → List PassKind
  | some .round => [.register, .scrub, .round]
  | some .register => [.scrub, .round, .register]
  | some .scrub | none => [.round, .register, .scrub]

/-- Is it the same pass? -/
def Pass.same (p q : Pass) : Bool := decide (p.kind = q.kind) && p.ring == q.ring && p.slot == q.slot

def State.setPass (s : State) (p : Pass) : State :=
  { s with dredge := { s.dredge with passes := s.dredge.passes.map (fun q => if q.same p then p else q) } }

def State.dropPass (s : State) (p : Pass) : State :=
  { s with dredge := { s.dredge with passes := s.dredge.passes.filter (fun q => !q.same p) } }

/-- The pass whose piece is in progress. -/
def State.currentPass (s : State) : Option Pass :=
  match s.dredge.current with
  | none => none
  | some k => s.dredge.passes.find? (fun p => decide (p.kind = k) && !p.stopped && p.done < p.piece)

/-- The next 1 MiB piece in rotation (R286); a SCRUB's piece is a unit of its job (R118). -/
def State.dredgePiece (s : State) : State :=
  if s.currentPass.isSome || !s.working then s
  else match ((afterKind s.dredge.last).map s.passesOf).flatten with
    | [] => s
    | p :: _ =>
      let s := s.setPass { p with piece := min p.length (p.done + mib) }
      let s := { s with dredge := { s.dredge with current := some p.kind, last := some p.kind } }
      if p.kind = .scrub then
        match s.findJob p.ring p.slot with
        | none => s
        | some j => (s.recIssue j.ring j.slot (p.done / mib)).putJob { j with issued := p.done / mib + 1 }
      else s

/-- DREDGE_PIECE (R286). -/
def execDredgePiece (s : State) : Host.Outcome State Fault Refusal := .next s.dredgePiece

/-- Where the pass's next line lies. -/
def State.passLine (s : State) (p : Pass) : Nat × Nat :=
  let off := p.offset + p.done
  if p.basin = 0xFF then locateStack (off % stackBytes) else s.locate p.basin off

/-- The slice's VALID copy of a sector. -/
def State.sliceCopy (s : State) (pc a : Nat) : Option (LakeLine × Sector) :=
  match s.lakeFind pc a with
  | none => none
  | some l => if (l.sector (lakeSector a)).valid then some (l, l.sector (lakeSector a)) else none

/-- The slice's copy is written to the array, and the sector is clean (R285). -/
def State.sliceWrite (s : State) (pc a : Nat) (l : LakeLine) (x : Sector) : State :=
  ((s.arrayWrite pc a x.data x.poison).wbDrop pc a).lakePut (l.setSector (lakeSector a) { x with dirty := false })

/-- A Dredge request takes its place at its port, 56 (R286): in PF0's group for a SCRUB, else in SYS (R253), as a round's
(R261). It always reaches the array (R285). -/
def State.dredgeRequest (s : State) (p : Pass) (pc a : Nat) (write : Bool) : State :=
  s.portSend { port := 56, group := if p.kind = .scrub then 0 else 64, rt := false, units := 1, pc, a, op := .array write
               round := decide (p.kind ≠ .scrub), sched := decide (p.kind = .round) }

/-- One line read by Dredge, and what R285's table does with it; the pass with its counts. -/
def State.dredgeRead (s : State) (p : Pass) (pc a : Nat) (err1 err2 : List Byte) : State × Pass :=
  let r := s.decodeLine pc a err1 err2
  let s := ((s.dredgeRequest p pc a false).countDecode pc a r).count 0x11 3 0
  let p := { p with lines := p.lines + 1 }
  let copy := s.sliceCopy pc a
  match r.outcome, copy with
  | .clean, _ => (s, p)
  | .erasureOnly, _ => (s, { p with erasure := p.erasure + 1 })
  | .corrected, some (l, x) | .correctedRetry, some (l, x) | .uncorrectable, some (l, x) =>
    ((s.sliceWrite pc a l x).dredgeRequest p pc a true, { p with corrected := p.corrected + 1 })
  | .corrected, none | .correctedRetry, none =>
    ((s.arrayWrite pc a r.data false).dredgeRequest p pc a true, { p with corrected := p.corrected + 1 })
  | .uncorrectable, none =>
    let s := ((s.arrayWrite pc a r.data true).dredgeRequest p pc a true).lineUe 0xFF pc a
    let s := if p.kind = .round then s.satInc .integDrUeCount else s
    (s, { p with uncorr := p.uncorr + 1,
                 firstFail := if p.firstFail.isSome then p.firstFail else some (p.offset + p.done, pc) })
  | .poisoned, some (l, x) =>
    if x.poison then (s, { p with poison := p.poison + 1 })
    else ((s.sliceWrite pc a l x).dredgeRequest p pc a true, { p with corrected := p.corrected + 1 })
  | .poisoned, none => (s, { p with poison := p.poison + 1 })

/-- The piece ends: a SCRUB's unit is done (R75). -/
def State.pieceEnd (s : State) (p : Pass) : State :=
  let s := { s with dredge := { s.dredge with current := none } }
  if p.kind = .scrub then
    match s.findJob p.ring p.slot with
    | none => s
    | some j =>
      let (s, j) := s.unitDone j ((p.done - 1) / mib)
      s.putJob j
  else s

/-- The next line of the piece in progress (R285). -/
def State.dredgeLine (s : State) (err1 err2 : List Byte) : State :=
  match s.currentPass with
  | none => s
  | some p =>
    let (pc, a) := s.passLine p
    let (s, p) := if s.pcGone pc then (s, { p with skipped := p.skipped + 1 }) else s.dredgeRead p pc a err1 err2
    let p := { p with done := p.done + 64 }
    let s := s.setPass p
    if p.piece ≤ p.done then s.pieceEnd p else s

/-- DREDGE_LINE (R285). -/
def execDredgeLine (err1 err2 : List Byte) (s : State) : Host.Outcome State Fault Refusal :=
  whenWf "DREDGE_LINE" (Instr.wf (.dredgeLine err1 err2)) (s.dredgeLine err1 err2)

/-- GO of INTEG_DR_CTRL (R286, R293). -/
def State.dredgeGo (s : State) : State :=
  let ofs := s.get .integDrOfsLoOfs * 64 + s.get .integDrOfsHiOfs * 2 ^ 32
  let len := s.get .integDrLenLoLen * 64 + s.get .integDrLenHiLen * 2 ^ 32
  if s.dredge.passes.any (fun p => decide (p.kind = .register)) || len = 0 || stackBytes < ofs + len then
    s.set .integStatusDrOverrun 1
  else
    ({ s with dredge := { s.dredge with
        passes := s.dredge.passes ++ [passOf .register 0 0 0xFF ofs len s.timer] } }).set .integStatusDrBusy 1

/-- DREDGE_GO (R286). -/
def execDredgeGo (s : State) : Host.Outcome State Fault Refusal := .next (s.blockWrite 0x11 0 State.dredgeGo)

/-- STOP of INTEG_DR_CTRL (R286): the register pass ends after the line in progress. -/
def State.dredgeStop (s : State) : State :=
  let stop (p : Pass) : Pass := if p.kind = .register then { p with stopped := true } else p
  let cur := if s.dredge.current = some .register then none else s.dredge.current
  { s with dredge := { s.dredge with passes := s.dredge.passes.map stop, current := cur } }

/-- STOP (R286). -/
def execStop (s : State) : Host.Outcome State Fault Refusal := .next (s.blockWrite 0x11 0 State.dredgeStop)

/-- The 64 bytes of a pass summary (R287). -/
def passSummary (p : Pass) (now : Nat) : List Byte :=
  let first := p.firstFail
  [0x42#8, 0x58, 0x44, 0x53, 0x01] ++ leBytes 1 p.basin ++ leBytes 1 (b2n first.isSome + 2 * b2n p.stopped)
    ++ leBytes 1 ((first.map (·.2)).getD 0xFF) ++ leBytes 8 p.offset ++ leBytes 8 p.done ++ leBytes 4 p.lines
    ++ leBytes 4 p.corrected ++ leBytes 4 p.erasure ++ leBytes 4 p.uncorr ++ leBytes 4 p.poison ++ leBytes 4 p.skipped
    ++ leBytes 8 ((first.map (·.1)).getD (2 ^ 64 - 1)) ++ leBytes 4 (min (2 ^ 32 - 1) ((now - p.start) / 100)) ++ zeros 4

/-- A register pass or a SCRUB that has ended gives its summary (R286, R287). -/
def State.dredgeDone (s : State) : State :=
  match s.dredge.passes.find? (fun p => decide (p.kind ≠ .round) && (p.stopped || p.length ≤ p.done)) with
  | none => s
  | some p =>
    let sum := passSummary p s.timer
    let s := s.dropPass p
    if p.kind = .register then
      let s := (List.range 16).foldl (fun s w => s.set .integDrSumData (fieldAt sum (4 * w) 4) w) s
      (s.set .integStatusDrBusy 0).raise evIntegDredgeDone
    else
      match s.findJob p.ring p.slot with
      | none => s
      | some j =>
        let (s, j) := s.writeOut { j with stage := .signing, corrected := p.corrected ≠ 0 || p.uncorr ≠ 0 } 80 56 sum
        s.putJob j

/-- INTEG_DREDGE_DONE (R287). -/
def execIntegDredgeDone (s : State) : Host.Outcome State Fault Refusal := .next s.dredgeDone

/-- The running round has covered its range (R288). -/
def State.dredgeRoundDone (s : State) : State :=
  match s.round with
  | none => s
  | some p => if p.length ≤ p.done then s.roundEnd p else s

/-- DREDGE_ROUND_DONE (R288). -/
def execDredgeRoundDone (s : State) : Host.Outcome State Fault Refusal := .next s.dredgeRoundDone

end Sys2Proof.Machine
end

