-- ==== Sys2Proof/Machine/FaultCmds.lean ====
section
/-! DEFINITION. Faults as they reach the collector from outside it, what the blocks do at them, and the F actions (R14, R20,
R23, R319 to R329). -/

namespace Sys2Proof.Machine

/-! ### The F actions (R325) -/

/-- R23: engines stop, the Lake is written back where it can be, every channel enters self-refresh; jobs wait for the next
start. -/
def State.clockStop (s : State) (writeBack : Bool) : State :=
  let s := s.haltJobs
  let s := if writeBack then s.lakeFlush (fun _ => true) else s.lakeInvalidate
  s.srForceAll.enginesOff.fabricOff

/-- The F actions: R172's where a wipe is in force (done by the report), R23's at a clock cause, else R325's: units end, jobs
complete PARTIAL, the Lake is flushed, the stack enters self-refresh, engine and pond-fabric domains go off. -/
def State.fatalActions (s : State) : State :=
  if s.inHold then s
  else if s.collector.opened.any [evClkXtalFail, evClkPllUnlock].contains then s.clockStop s.boot.stackPll
  else
    let s := if s.noCompletions then s.haltJobs else (s.stopJobs .partial_ 1).completeAll
    ((s.lakeFlush (fun _ => true)).srForceAll).enginesOff.fabricOff

/-- `f`, and the F actions where it brings the collector into CONTAIN_F. -/
def State.withFatal (s : State) (f : State → State) : State :=
  let t := f s
  if !s.fatal && t.fatal then t.fatalActions else t

/-! ### What the reporting block does (R112, R168, R172, R235) -/

/-- The address that a memory fault's LOC names, by PC: none where LOC is not valid (R322). -/
def locAddr (loc : Nat) : Option (Nat × Nat) :=
  if bitAt loc 31 then
    some (loc % 64, addrOfRow (bits loc 7 6) (bits loc 10 8) (bits loc 26 11) (bits loc 30 27))
  else none

/-- An uncorrectable dirty sector is written back poisoned (R235). -/
def State.sectorLost (s : State) (slice a : Nat) : State :=
  match s.lakeFind slice a with
  | none => s
  | some l =>
    let n := lakeSector a
    let lost := l.setSector n { (l.sector n) with poison := true }
    let (s, reqs) := (s.lakePut lost).writeBack lost n 64
    reqs.foldl State.submit s

/-- An uncorrectable clean VALID sector is invalidated and fetched again (R235). -/
def State.sectorAgain (s : State) (slice a : Nat) : State :=
  match s.lakeFind slice a with
  | none => s
  | some l =>
    let x := l.sector (lakeSector a)
    if !x.valid || x.dirty then s
    else (s.fetchReq slice a 64).foldl State.submit (s.lakePut (l.setSector (lakeSector a) (s.fillSector slice a)))

/-- A set is blocked until the next cold start, its DIRTY sectors written back poisoned (R235). -/
def State.blockSet (s : State) (slice a : Nat) : State :=
  let k := slice * 1024 + lakeSet a
  let mine := s.lake.lines.filter (fun l => l.slice == slice && l.set == lakeSet a)
  let s := mine.foldl (fun s l =>
    let s := if l.s0.dirty then s.sectorLost slice (l.addr 0) else s
    if l.s1.dirty then s.sectorLost slice (l.addr 1) else s) s
  { s with lake := { s.lake with
    blocked := if s.lake.blocked.contains k then s.lake.blocked else s.lake.blocked ++ [k]
    lines := s.lake.lines.filter (fun l => !(l.slice == slice && l.set == lakeSet a)) } }

/-- A Lake slice's report (R235). -/
def State.sliceEffects (s : State) (slice arg loc : Nat) : State :=
  let at_ := (locAddr loc).map (·.2)
  if arg = 1 then s.satInc .lakeArrCeCount
  else if arg = 2 then
    let s := s.satInc .lakeArrCeCount
    match at_ with
    | some a => s.sectorAgain slice a
    | none => s
  else if arg = 3 then
    let s := s.satInc .lakeArrUeCount
    match at_ with
    | some a => s.sectorLost slice a
    | none => s
  else if arg = 4 then
    let s := s.satInc .lakeSetsBlockedCount
    match at_ with
    | some a => s.blockSet slice a
    | none => s
  else s

/-- An uncorrectable Tarn error (R168) withdraws what stood there: a function's key slot; with no function, an IDE stream by
ARG 0 to 7 or, from 8 on, an SPDM session in the order they were set up (DESIGN CHOICE, log entry 33). -/
def State.tarnLost (s : State) (func arg : Nat) : State :=
  if func < 64 then (if arg < 8 then s.dropKey func arg else s)
  else if arg < 8 then s.setStream arg {}
  else { s with trust := { s.trust with sessions := s.trust.sessions.eraseIdx (arg - 8) } }

/-- What a report's block does of itself, whatever the collector makes of the report (R159, R168, R172, R235). The spec arms the
detectors, not the wipe: a report or an injection of LCS_TAMPER wipes in BLANK too (DESIGN CHOICE, log entry 67). -/
def State.sourceEffects (s : State) (source func arg loc : Nat) : State :=
  if 54 ≤ source ∧ source < 118 then s.sliceEffects (source - 54) arg loc
  else if source = 257 then s.tarnLost func arg
  else if source = evLcsTamper then s.bistAbort.tamperOtp.wipe
  else s

/-- A descriptor on its way is discarded: its job ends INTERNAL_FAULT (R243). -/
def State.descriptorLost (s : State) (q slot : Nat) : State :=
  match s.takeFetch q (fun x => x == slot) with
  | none => s
  | some (s, f) =>
    (s.orphanReads (fun x => decide (x = .descriptor q slot))).rejectJob (newJob s q f (zeros 128)) .internalFault

/-- An item of a descriptor, completion or journal path is discarded (R243): its job completes PARTIAL with CAUSE
FAULT_CONTAINED where units were done, and INTERNAL_FAULT otherwise. -/
def State.pathLost (s : State) (q slot : Nat) : State :=
  match s.findJob q slot with
  | none => s.descriptorLost q slot
  | some j =>
    let (s, j) := if 0 < j.doneCnt then s.stopJob j .partial_ 1
      else s.condition j { unit := noUnit, status := Status.internalFault.code, shard := noShard }
    s.abortUnits j.close

/-- The containment of a class U source (R324), as its own chapter lays it down: a pond (R112), a channel (R14, R284), a job's
path (R243; its ring pair in ARG, its slot in DETAIL, log entry 39), an IDE stream (R158). The model runs it as the report is
made. -/
def State.containEffects (s : State) (source arg detail : Nat) : State :=
  if 48 ≤ source ∧ source < 54 then s.containPond (source - 48)
  else if 182 ≤ source ∧ source < 214 ∧ arg = 1 then s.failChannel (source - 182)
  else if source = evVlkCaFail ∧ arg < 32 then (s.set .vlkCaFailed 1 arg).failChannel arg
  else if source = evJobPathErr then s.pathLost arg detail
  else if source = evLcsIdeFail ∧ arg < 8 then s.streamInsecure arg
  else s

/-- Does a class U report of the source start a containment now, or queue one (R324): none in CONTAIN_F and LATCHED_F, and no
second one for the source being contained? -/
def State.containsNew (s : State) (source : Nat) : Bool :=
  !s.fatal && !s.collector.running.any (·.source == source)

/-! ### Reports (R319 to R321, R324) -/

/-- The class of a report: R320's, and F for THM_SENSOR_FAIL with CAUSE SENSOR_LOSS (R295). -/
def reportClass (r : Report) : Option FaultClass :=
  if r.source = evThmSensorFail ∧ r.cause = causeSensorLoss then some .f else sourceClass r.source r.arg

/-- The source and the class that a report is recorded under: an invalid pair of a source whose class is not F is FLT_RAIL's,
class U (R319). -/
def recordedAs (r : Report) : Nat × Option FaultClass :=
  if r.invalid && reportClass r != some .f then (evFltRail, some .u) else (r.source, reportClass r)

/-- The order in which reports of one sample are recorded (R321). -/
def reportKey (r : Report) : Nat :=
  (recordedAs r).1 + 512 * (match (recordedAs r).2 with
    | some .f => 0
    | some .u => 1
    | some .c => 2
    | none => 3)

/-- A report put in its place. -/
def insertReport (r : Report) : List Report → List Report
  | [] => [r]
  | x :: xs => if reportKey r < reportKey x then r :: x :: xs else x :: insertReport r xs

def sortReports (rs : List Report) : List Report := rs.foldl (fun l r => insertReport r l) []

/-- One report: an invalid pair, a fault of its class, or an event alone; a class that depends on ARG has none for an ARG
that R320 does not list. A block whose pair is ignored still does what it does of itself (R319). DETAIL is 0 with CAUSE SOURCE
(R322). -/
def State.reportIn (s : State) (r : Report) : State :=
  let x (k : FaultClass) : FaultIn :=
    { cls := k, source := r.source, cause := r.cause, func := r.func, arg := r.arg, loc := r.loc
      detail := if r.cause = causeSource then 0 else r.detail }
  if r.invalid then
    let s := if reportClass r == some .f then s.sourceEffects r.source r.func r.arg r.loc else s
    s.reportInvalid r.source (x ((reportClass r).getD .u))
  else match reportClass r with
    | none => if classByArg r.source then s else s.raise r.source r.func r.arg
    | some k =>
      let s := s.sourceEffects r.source r.func r.arg r.loc
      if s.railIgnored r.source then s
      else
        (if k == .u && s.containsNew r.source then s.containEffects r.source r.arg r.detail else s).report (x k)

/-- FAULT_REPORT (R319 to R324). -/
def State.faultReport (s : State) (rs : List Report) : State :=
  s.withFatal (fun s => (sortReports rs).foldl State.reportIn s)

/-- FAULT_REPORT (R324). -/
def execFaultReport (reports : List Report) (s : State) : Host.Outcome State Fault Refusal :=
  whenWf "FAULT_REPORT" (Instr.wf (.faultReport reports)) (if s.boot.aux then s.faultReport reports else s)

/-! ### The collector's own commands (R323 to R325) -/

/-- CONTAINMENT_END (R324). -/
def execContainmentEnd (ok : Bool) (s : State) : Host.Outcome State Fault Refusal :=
  .next (s.withFatal (·.containmentEnd ok))

/-- CONTAINMENT_TIMEOUT (R324): the containment exceeds 1 ms. -/
def execContainmentTimeout (s : State) : Host.Outcome State Fault Refusal := .next (s.withFatal (·.containmentEnd false))

/-- QUIET_TIMER_EXPIRE (R324). -/
def execQuietTimerExpire (s : State) : Host.Outcome State Fault Refusal := .next (s.withFatal State.quietExpire)

/-- The F actions end (R324, R325): what is left of them is done, the collector latches. -/
def State.fActionsEnd (s : State) : State :=
  if s.get .fltStateState = 3 then (s.fatalActions.setCollector 4).raise evFltLatched else s

/-- F_ACTIONS_END (R325). -/
def execFActionsEnd (s : State) : Host.Outcome State Fault Refusal := .next s.fActionsEnd

/-- N records released from HEAD, at most COUNT (R323). -/
def State.fltRelease (s : State) (v : Nat) : State :=
  let count := s.get .fltQueueCount
  let n := min (v % 128) count
  let s := (s.set .fltQueueHead ((s.get .fltQueueHead + n) % 64)).set .fltQueueCount (count - n)
  if count - n < 64 then { s with collector := { s.collector with ovfRaised := false } } else s

/-- FLT_RELEASE (R323). -/
def execFltRelease (value : Word) (s : State) : Host.Outcome State Fault Refusal := .next (s.blockWrite 0x15 0 (·.fltRelease value.toNat))

/-- The CAUSE that a source's own rule gives its record (R322); an injected report carries it (DEDUCED, log entry 33). -/
def sourceCause (source arg : Nat) : Nat :=
  if 54 ≤ source ∧ source < 118 then (if arg = 5 then causeParity else if arg = 3 ∨ arg = 4 then causeArrayUe else causeSource)
  else if source = evLcsTamper then causeTamper
  else if source = evThmShutdown then causeThermal
  else if source = evThmStackSuspect then causeStackSuspect
  else if source = evClkXtalFail then causeClockLoss
  else if source = evClkPllUnlock then causePllUnlock
  else if source = evPwrCoreLoss then causePowerLoss
  else if source = evIntegUe then causeMemoryUe
  else if source = evLcsMboxReset ∨ source = evTarnKqReset ∨ source = evFltQueueReset then causeQueueReset
  else if source = evFltRail then causeRailFault
  else if source = evEngTaskFail then causeTaskAbandoned
  else if source = evLcsIdeFail then causeIdeCheck
  else causeSource

/-- A write of FLT_INJECT (R329). -/
def State.fltInject (s : State) (v : Nat) : State :=
  let source := v % 512
  let arg := bits v 17 10
  let lc := s.lc
  if !bitAt v 31 || 320 ≤ source || !(lc = lcBlank || lc = lcMfg || lc = lcReturned) then s
  else
    let invalid := bitAt v 9
    let arg := if invalid then 0 else arg
    s.reportIn { source, cls := .u, cause := sourceCause source arg, func := 0xFF, arg, loc := 0, detail := 0, invalid }

/-- FLT_INJECT (R329). -/
def execFltInject (value : Word) (s : State) : Host.Outcome State Fault Refusal :=
  .next (s.blockWrite 0x15 0 (fun s => s.withFatal (·.fltInject value.toNat)))

/-! ### Clocks (R23) -/

/-- Lake lines with a DIRTY sector, or with a write-back that has not reached the array: what a loss of the slices' or the
stack's clock loses (R23). -/
def State.dirtyLines (s : State) : Nat :=
  let lines := s.lake.lines.filter (fun l => l.s0.dirty || l.s1.dirty)
  let here := lines.map (fun (l : LakeLine) => (l.slice, l.addr 0 / 128))
  let away := (s.lake.wbuf.filter (fun x => !x.clean)).map (fun x => (x.pc, x.a / 128))
  (here ++ away).eraseDups.length

/-- From a clock's failure on R23 applies, whatever opened CONTAIN_F. -/
def State.clockOpened (s : State) (source : Nat) : State :=
  { s with collector := { s.collector with opened := some source } }

/-- The crystal fails (R23): the Lake is written back while the stack PLL holds lock; the link is lost. -/
def State.crystalFail (s : State) : State :=
  if !s.boot.aux || !s.boot.crystal then s
  else
    let lost := if s.boot.stackPll then 0 else s.dirtyLines
    let s := s.clockStop s.boot.stackPll
    let s := (s.report { cls := .f, source := evClkXtalFail, cause := causeClockLoss, detail := lost }).clockOpened evClkXtalFail
    { s with boot := { s.boot with crystal := false } }.linkGone

/-- CLK_XTAL_FAIL (R23). -/
def execClkXtalFail (s : State) : Host.Outcome State Fault Refusal := .next s.crystalFail

/-- CRYSTAL_RETURN (R23). -/
def execCrystalReturn (s : State) : Host.Outcome State Fault Refusal :=
  .next (if s.boot.aux then { s with boot := { s.boot with crystal := true } } else s)

/-- Number of a PLL in CLK_PLL_UNLOCK's ARG (R320). -/
def pllNo : Pll → Nat
  | .core => 0 | .lake => 1 | .stack => 2

/-- A core, Lake or stack PLL loses lock (R23): only a core PLL's loss leaves the slices and the stack clocked, so that dirty
lines are written back; otherwise they are lost and counted. -/
def State.pllUnlock (s : State) (p : Pll) : State :=
  if !s.boot.aux then s
  else
    let back := decide (p = .core) && s.boot.stackPll
    let lost := if back then 0 else s.dirtyLines
    let s := s.clockStop back
    let s := if p = .stack then { s with boot := { s.boot with stackPll := false } } else s
    (s.report { cls := .f, source := evClkPllUnlock, cause := causePllUnlock, arg := pllNo p, detail := lost }).clockOpened
      evClkPllUnlock

/-- CLK_PLL_UNLOCK (R23). -/
def execClkPllUnlock (pll : Pll) (s : State) : Host.Outcome State Fault Refusal := .next (s.pllUnlock pll)

/-! ### Rails (R20, R21, R171, R325) -/

/-- A stack rail falls below its minimum (R20): the contents are lost. -/
def State.stackRailLow (s : State) : State :=
  if !s.boot.aux then s
  else
    let s := { s with boot := { s.boot with stackOk := false }, dram := { s.dram with lost := true } }
    (s.set .bootStatusStackValid 0).report { cls := .u, source := evPwrStackRail }

/-- STACK_RAIL_LOW (R20). -/
def execStackRailLow (s : State) : Host.Outcome State Fault Refusal := .next s.stackRailLow

/-- What power does not touch: flash, fuses, and the model's own fields. -/
def State.unpowered (s : State) : State :=
  { State.reset with
    flash := s.flash, fuses := { cells := s.fuses.cells }, freeCtr := s.freeCtr, out := s.out, pending := s.pending
    boot := { State.reset.boot with crystal := s.boot.crystal } }

/-- An OTP pulse in progress ends with the supply (R365). -/
def State.otpPowerCut (s : State) : State :=
  match s.trust.mbox.bind (·.otp) with
  | some x => (s.cutProgram x).1
  | none => s

/-- A flash operation in progress is cut: its page or sector holds undefined data (R350). -/
def State.flashCut (s : State) : State :=
  match s.boot.flashOp with
  | none => s
  | some x =>
    let s := { s with boot := { s.boot with flashOp := none } }.set .bootFlStatusBusy 0
    if x.op = 2 ∨ x.op = 3 then
      let (s, junk) := s.draw (if x.op = 2 then 256 else 4096)
      s.flashPut x.addr junk
    else s

/-- VDD_AUX falls (R21): every state of the device is lost; the next rise is a cold start. -/
def State.auxLoss (s : State) : State := s.otpPowerCut.flashCut.unpowered

/-- VDD_AUX_LOSS (R21). -/
def execVddAuxLoss (s : State) : Host.Outcome State Fault Refusal := .next s.auxLoss

/-- Register fields that only a loss of VDD_AUX clears: the OTP shadows, start attempts, bad-slot marks and NEXT_B (R21,
R343), the collector's state and last fault (R325), STACK_SUSPECT (R304), the tamper logic's causes, count and STACK_PENDING (R172), AER status and
severity of every function (R206). -/
def aonFields : List FN :=
  [.bootStatusAttempts, .bootBadASeq, .bootBadBSeq, .bootCtrlNextB, .fltLastFCause, .fltLastFSource, .fltRecoveriesCount,
   .fltStateState, .fltStateFaultPin, .otpShadowData, .lcsTamperVolt, .lcsTamperClock, .lcsTamperTemp, .lcsTamperMesh,
   .thmStatusStackSuspect, .lcsTamperLcWipe, .lcsTamperStackPending, .lcsTamperCount, .cfgAerUncStatus, .cfgAerUncSev, .cfgAerCorStatus]

/-- The state with only the always-on domain left (R325), and the OTP command that it carries (R365). -/
def State.aonOnly (s : State) : State :=
  let kept := aonFields.map FN.num
  { s.unpowered with
    regs := s.regs.filter (fun e => kept.contains (e.1 / 16777216))
    aonTime := s.aonTime
    trust := { s.unpowered.trust with mbox := s.trust.mbox.filter (fun r => r.otp.isSome || r.late) }
    collector := { recoveries := s.collector.recoveries, coreLoss := s.collector.coreLoss, opened := s.collector.opened }
    boot := { aux := s.boot.aux, crystal := s.boot.crystal, perst := s.boot.perst, coldNext := true
              marked := s.boot.marked } }

/-- VDD_CORE is lost (R171, R325): class F; the record is held in the always-on domain, and nothing else is left. -/
def State.vddCoreLoss (s : State) : State :=
  if !s.boot.aux then s
  else
    let s := { s.flashCut with collector := { s.collector with coreLoss := some s.timer, opened := some evPwrCoreLoss } }
    let s := ((s.set .fltLastFCause causePowerLoss).set .fltLastFSource evPwrCoreLoss).setCollector 3
    s.aonOnly

/-- VDD_CORE_LOSS (R171). -/
def execVddCoreLoss (s : State) : Host.Outcome State Fault Refusal := .next s.vddCoreLoss

end Sys2Proof.Machine
end

