-- ==== Sys2Proof/Machine/Idle.lean ====
section
/-! DEFINITION. One unit of time: what 10 ns bring when no command waits (R247, R378; DESIGN CHOICE, log entry 11). -/

namespace Sys2Proof.Machine

/-- An event counted where it adds something. -/
def State.countSome (s : State) (block kind inst add : Nat) : State :=
  if add = 0 then s else s.count block kind inst add

/-- What the counters of R377 add in every 10 ns: the timer, core-clock cycles at the limit in force, outstanding reads,
busy engines, deque depths and queue occupancies. -/
def State.countTime (s : State) : State :=
  let s := (s.count 0x00 1 0).countSome 0x00 0 0 (s.get .otpTrimFmax)
  let s := s.countSome 0x05 4 0 s.pcie.tags.length
  let s := (List.range 48).foldl (fun s e => s.countSome 0x08 0 e (b2n ((s.engine e).tasks.any (fun r => !r.digest)))) s
  let s := (List.range 6).foldl (fun s p => s.countSome 0x08 3 p (s.pond p).deque.length) s
  (List.range 64).foldl (fun s p => s.countSome 0x0E 3 p (s.pcQueue p).length) s

/-- TX_UNITS and RX_UNITS: the 64-byte units of payload since the last tick. -/
def State.countPayload (s : State) : State :=
  let c := s.counters
  let s := { s with counters := { c with txBytes := c.txBytes % 64, rxBytes := c.rxBytes % 64 } }
  (s.countSome 0x05 0 0 (c.txBytes / 64)).countSome 0x05 1 0 (c.rxBytes / 64)

/-- What they add in every µs: self-refresh residency, time in Recovery, ENFORCED with THM_ENF_US, capping. -/
def State.countMicro (s : State) : State :=
  let s := (List.range 64).foldl (fun s p => s.countSome 0x0E 4 p (b2n (s.get .drcPcStateState p == 2))) s
  let s := s.countSome 0x05 3 0 (b2n (s.get .pcxLinkStatusLtssm == ltssmRecovery))
  let s := if s.tstate = 2 then (s.satInc .thmEnfUsTime).count 0x12 0 0 else s
  s.countSome 0x13 1 0 (s.get .pwrStatusCapped)

/-- 10 ns pass: the always-on time while VDD_AUX is in range, the timer and the counters while the crystal runs. -/
def State.tick (s : State) : State :=
  if !s.boot.aux then s
  else
    let s := { s with aonTime := s.aonTime + 1 }
    if !s.boot.crystal then s
    else
      let s := { s with timer := s.timer + 1, cal := { s.cal with time := s.cal.time + 1 } }
      let s := s.countTime.countPayload
      if s.timer % 100 = 0 then s.countMicro else s

end Sys2Proof.Machine
end

