-- ==== Sys2Proof/Machine/Image.lean ====
section
/-! DEFINITION. The flash header, image slots, their checks, and the configuration image as it is applied (R24, R41, R42, R45,
R66, R153, R163, R212, R332 to R338). -/

namespace Sys2Proof.Machine

/-! ### The flash header (R332) -/

/-- A header copy's bytes; none where MAGIC, VER, CRC or a reserved byte fails. -/
def State.hdrCopy (s : State) (c : Nat) : Option (List Byte) :=
  let b := s.flashBytes (4096 * c) 4096
  if fieldAt b 0 4 == 0x48465842 && fieldAt b 4 1 == 1 && zeroIn b 6 8 && zeroIn b 21 22 && zeroIn b 26 64
      && zeroIn b (64 + fieldAt b 24 2) 4092 && fieldAt b 4092 4 == crc32 (b.take 4092) then some b
  else none

/-- The header copy in force: the valid one with the higher SEQ, copy 0 at a tie. -/
def State.flashHeader (s : State) : Option (Nat × List Byte) :=
  match s.hdrCopy 0, s.hdrCopy 1 with
  | some a, some b => if fieldAt a 8 4 < fieldAt b 8 4 then some (1, b) else some (0, a)
  | some a, none => some (0, a)
  | none, some b => some (1, b)
  | none, none => none

/-- The identity of R190, bytes 12 to 23 of the header. -/
def hdrIdentity (h : List Byte) : List Byte := sliceBytes h 12 12

/-- The DeviceID certificate; empty where CERT_LEN is out of range. -/
def hdrCert (h : List Byte) : List Byte :=
  let n := fieldAt h 24 2
  if 1 ≤ n ∧ n ≤ 4028 then sliceBytes h 64 n else []

/-- The hash of the certificate in the OTP identity region (R354), against which R153 compares. -/
def State.certHash (s : State) : List Byte := s.shadowBytes 0x020 48

/-! ### Slots (R333) -/

def slotBase (k : Nat) : Nat := 0x400000 + 0x200000 * k

def slotBytes : Nat := 0x200000

/-- A slot header. -/
structure SlotHdr where
  seq    : Nat
  fwOfs  : Nat
  fwLen  : Nat
  cfgOfs : Nat
  cfgLen : Nat
  deriving DecidableEq, Repr

/-- The header of slot `k`; none where it breaks R333. -/
def State.slotHeader (s : State) (k : Nat) : Option SlotHdr :=
  let b := s.flashBytes (slotBase k) 256
  let h : SlotHdr :=
    { seq := fieldAt b 8 4, fwOfs := fieldAt b 12 4, fwLen := fieldAt b 16 4, cfgOfs := fieldAt b 20 4, cfgLen := fieldAt b 24 4 }
  if fieldAt b 0 4 == 0x4D495842 && fieldAt b 4 1 == 1 && zeroIn b 5 8 && zeroIn b 28 256 && h.seq ≠ 0
      && h.fwOfs % 256 == 0 && h.cfgOfs % 256 == 0 && h.fwOfs + h.fwLen ≤ slotBytes && h.cfgOfs + h.cfgLen ≤ slotBytes
      && !overlaps h.fwOfs h.fwLen h.cfgOfs h.cfgLen then some h
  else none

/-- IMG_SEQ of a slot; an unreadable header counts as 0 (R345). -/
def State.slotSeq (s : State) (k : Nat) : Nat := ((s.slotHeader k).map (·.seq)).getD 0

/-! ### Reasons (R346) -/

def whyFlashAbsent : Nat := 0x01
def whyHeaderBad : Nat := 0x02
def whyPllLock : Nat := 0x03
def whyBistFail : Nat := 0x04
def whySlotHeader : Nat := 0x05
def whyFwFormat : Nat := 0x06
def whyFwSignature : Nat := 0x07
def whyFwRollback : Nat := 0x08
def whyCfgSigner : Nat := 0x09
def whyCfgSignature : Nat := 0x0A
def whyCfgContent : Nat := 0x0B
def whyStackRail : Nat := 0x0C
def whyStackTrain : Nat := 0x0D
def whyNoEngine : Nat := 0x0E
def whyWatchdog : Nat := 0x0F

/-! ### The sections of a configuration block (R335, R336) -/

/-- A section: where its header stands in the block, its TYPE, RLEN and records. -/
structure ImgSection where
  off     : Nat
  type    : Nat
  rlen    : Nat
  records : List (List Byte)
  deriving DecidableEq, Repr

/-- RLEN and the range of COUNT of each known TYPE. -/
def sectionShape (type : Nat) : Option (Nat × Nat × Nat) :=
  match type with
  | 1 => some (64, 1, 1)
  | 2 => some (16, 1, 64)
  | 3 => some (8, 1, 256)
  | 4 => some (32, 1, 64)
  | 5 => some (8, 0, 26)
  | 6 => some (24, 0, 512)
  | 7 => some (8, 0, 59)
  | 8 => some (16, 0, 65)
  | 9 => some (8, 0, 8)
  | 10 => some (8, 0, 320)
  | _ => none

/-- The sections from byte `o` to `stop` of a block, and where the first one that breaks R336 stands; every section has at
least its header's 8 bytes, so `fuel` of one in eight covers the body. -/
def parseSections : Nat → List Byte → Nat → Nat → List Nat → List ImgSection × Option Nat
  | 0, _, o, stop, _ => ([], if o = stop then none else some o)
  | fuel + 1, b, o, stop, seen =>
    if o = stop then ([], none)
    else if stop < o + 8 then ([], some o)
    else
      let type := fieldAt b o 2
      let count := fieldAt b (o + 2) 2
      let rlen := fieldAt b (o + 4) 2
      let next := o + 8 + count * rlen
      let ok := fieldAt b (o + 6) 2 == 0 && next ≤ stop &&
        (match sectionShape type with
         | some (r, lo, hi) => rlen == r && lo ≤ count && count ≤ hi && !seen.contains type
         | none => bitAt type 15)
      if !ok then ([], some o)
      else
        let (rest, bad) := parseSections fuel b next stop (type :: seen)
        if (sectionShape type).isNone then (rest, bad)
        else
          let records := (List.range count).map (fun i => sliceBytes b (o + 8 + i * rlen) rlen)
          ({ off := o, type, rlen, records } :: rest, bad)

/-- Where record `i` of a section stands. -/
def ImgSection.recOff (x : ImgSection) (i : Nat) : Nat := x.off + 8 + i * x.rlen

/-- The key of a record; none where the section's records have none (R338), or are rejected one by one (R41). -/
def recKey (type : Nat) (r : List Byte) : Option Nat :=
  match type with
  | 1 | 5 => none
  | 6 | 10 => some (fieldAt r 0 2)
  | _ => some (fieldAt r 0 1)

/-- A function's highest MSI-X vector (R204). -/
def lastVector (func : Nat) : Nat := if func = 0 then 127 else 7

/-- SIZE of a BASIN record in bytes (R209). -/
def recBasinSize (r : List Byte) : Nat := popCount 64 (fieldAt r 12 8) * fieldAt r 6 2 * 65536

/-- The ranges and reserved bits of a record (R336, R338), for an image of `vfs` VFs whose BAR2 has 2^`bar2` bytes. -/
def recordOk (vfs bar2 type : Nat) (r : List Byte) : Bool :=
  let b (i : Nat) : Nat := fieldAt r i 1
  match type with
  | 1 => b 0 ≤ 63 && (b 1 == 0 || (30 ≤ b 1 && b 1 ≤ 37)) && b 4 < 4 && zeroIn r 28 64
  | 2 => b 0 ≤ vfs && b 1 < 8 && 1 ≤ b 1 / 2 && b 2 ≤ lastVector (b 0) && b 3 == 0 && zeroIn r 8 16
  | 3 => b 1 ≤ vfs && 6 ≤ b 2 && b 2 ≤ 16 && b 3 ≤ 5 && b 4 ≤ lastVector (b 1) && zeroIn r 5 8
  | 4 =>
    let owner := b 1
    b 0 < 64 && b 3 < 2 && zeroIn r 20 32 &&
    (if owner = 64 then recBasinSize r == 268435456
     else owner ≤ vfs && (owner == 0 || bar2 ≠ 0)
       && fieldAt r 8 4 * 65536 + recBasinSize r ≤ 2 ^ (if owner = 0 then 37 else bar2))
  | 6 => b 0 ≤ vfs && b 1 < 8 && zeroIn r 2 8 && fieldAt r 16 8 ≠ 0 && fieldAt r 8 8 + fieldAt r 16 8 ≤ 2 ^ 64
  | 7 => b 0 < 59 && b 1 == 0
  | 8 => b 0 < 65 && b 1 < 8 && zeroIn r 12 16 && (b 0 ≠ 64 || zeroIn r 10 12)
  | 9 => b 0 < 8 && b 1 < 2 && b 2 < 128 && zeroIn r 3 8
  | 10 => fieldAt r 0 2 < 320 && b 2 < 2 && b 3 < 8 && zeroIn r 4 8
  | _ => true

/-! ### The basins of an image (R24, R212) -/

/-- A BASIN record written to its registers. -/
def State.putBasin (s : State) (r : List Byte) : State :=
  let k := fieldAt r 0 1
  let s := (s.set .drcBasinCfgOwner (fieldAt r 1 1) k).set .drcBasinCfgJournal (b2n (fieldAt r 1 1 == 64)) k
  let s := (s.set .drcBasinCfgGrain (fieldAt r 2 1) k).set .drcBasinCfgEn (fieldAt r 3 1) k
  let s := (s.set .drcBasinLocLbase (fieldAt r 4 2) k).set .drcBasinLocExt (fieldAt r 6 2) k
  (s.set .drcBasinBaseBase (fieldAt r 8 4) k).set64 .drcBasinPcmaskLoMask .drcBasinPcmaskHiMask (fieldAt r 12 8) k

/-- Does R212 hold for the enabled basin of record `i`, against the enabled ones before it? Retired PCs count. -/
def basinRecOk (vfs : Nat) (retired : List Nat) (rs : List (List Byte)) (i : Nat) : Bool :=
  let r := rs.getD i []
  if fieldAt r 3 1 = 0 then true
  else if 24575 < fieldAt r 4 2 ∨ 24576 < fieldAt r 6 2 ∨ 31 < fieldAt r 2 1 ∨ 2 ^ 21 ≤ fieldAt r 8 4 then false
  else
    let on := (rs.take (i + 1)).filter (fun x => fieldAt x 3 1 == 1)
    (on.foldl State.putBasin State.reset).basinOk vfs (fun c => on.any (fun x => fieldAt x 0 1 == c)) retired.contains
      (fieldAt r 0 1)

/-- The sum of ring sizes up to and with record `i` (R66). -/
def ringSum (rs : List (List Byte)) (i : Nat) : Nat :=
  ((rs.take (i + 1)).map (fun r => 2 ^ fieldAt r 2 1)).foldl (· + ·) 0

/-- Is record `i` of a section at fault (R338)? -/
def recordBad (vfs bar2 : Nat) (retired : List Nat) (x : ImgSection) (i : Nat) : Bool :=
  let r := x.records.getD i []
  let before := x.records.take i
  let repeats := match recKey x.type r with
    | some k => before.any (fun y => recKey x.type y == some k)
    | none => false
  !recordOk vfs bar2 x.type r || repeats
    || (x.type == imgRing && 262144 < ringSum x.records i)
    || (x.type == imgBasin &&
        ((fieldAt r 1 1 == 64 && before.any (fun y => fieldAt y 1 1 == 64)) || !basinRecOk vfs retired x.records i))

/-- Where the first record at fault of a section stands; a BASIN section without a journal basin is at fault itself. -/
def sectionFault (vfs bar2 : Nat) (retired : List Nat) (x : ImgSection) : Option Nat :=
  if x.type = imgBasin && !x.records.any (fun r => fieldAt r 1 1 == 64) then some x.off
  else ((List.range x.records.length).find? (recordBad vfs bar2 retired x)).map x.recOff

/-- The first number of a list. -/
def lowest : List Nat → Option Nat
  | [] => none
  | x :: xs => some (xs.foldl min x)

/-- Check 6 of R163 on a configuration block: the sections, or the DETAIL of the failure. -/
def checkContent (retired : List Nat) (b : List Byte) : Except Nat (List ImgSection) :=
  let body := fieldAt b 8 4
  if fieldAt b 0 4 ≠ 0x46435842 ∨ fieldAt b 4 1 ≠ 1 ∨ !zeroIn b 5 8 ∨ !zeroIn b 16 64 ∨ !zeroIn b 161 192 ∨ body % 8 ≠ 0
      ∨ 261856 < body then .error 0
  else
    let (xs, bad) := parseSections (body / 8 + 1) b 192 (192 + body) []
    let dev := ((xs.find? (·.type == imgDevice)).map (fun x => x.records.headD [])).getD []
    let faults := bad.toList ++ xs.filterMap (sectionFault (fieldAt dev 0 1) (fieldAt dev 1 1) retired)
    match lowest faults with
    | some o => .error o
    | none =>
      if xs.any (·.type == imgDevice) && xs.any (·.type == imgBasin) then .ok xs else .error 0

/-! ### Authentication (R163) -/

/-- An image that has passed every check. -/
structure Loaded where
  seq      : Nat
  svn      : Nat
  fwVer    : Nat
  cfgVer   : Nat
  fwMeas   : List Byte
  cfgMeas  : List Byte
  sections : List ImgSection
  deriving DecidableEq, Repr

/-- Is a firmware block well formed (check 1, R334)? -/
def fwFormOk (b : List Byte) (len : Nat) : Bool :=
  let code := fieldAt b 8 4
  fieldAt b 0 4 == 0x57465842 && fieldAt b 4 1 == 1 && fieldAt b 5 1 ≤ 128 && zeroIn b 6 8 && code % 64 == 0 && 64 ≤ code
    && code ≤ 1048576 && zeroIn b 16 64 && zeroIn b 161 192 && len == 288 + code

/-- A block's signature over its signed bytes, of `n` body bytes, under its own KEY. -/
def blockSigned (b : List Byte) (n : Nat) : Bool :=
  verifies (sliceBytes b 64 97) (b.take (192 + n)) (sliceBytes b (192 + n) 96)

/-- The hash that the configuration's signer must have (R159, R163). -/
def State.cfgSignerHash (s : State) : List Byte :=
  if s.lc = lcProvisioned ∨ s.lc = lcDeployed then s.ownerHash else Config.mfgKeyHash

/-- PCs that the repair record retires (R291, R338). -/
def State.recRetired (s : State) : List Nat :=
  s.repairEntries.filterMap (fun e => match e.2 with
    | some x => if x.typ = typPc ∧ x.active then some x.unit else none
    | none => none)

/-- The image of slot `k` checked in the order of R163: the image, or REASON and DETAIL. -/
def State.authenticate (s : State) (k : Nat) : Except (Nat × Nat) Loaded :=
  match s.slotHeader k with
  | none => .error (whySlotHeader, 0)
  | some h =>
    let fw := s.flashBytes (slotBase k + h.fwOfs) h.fwLen
    let cfg := s.flashBytes (slotBase k + h.cfgOfs) h.cfgLen
    let code := fieldAt fw 8 4
    let body := fieldAt cfg 8 4
    if !fwFormOk fw h.fwLen then .error (whyFwFormat, 0)
    else if sha384 (sliceBytes fw 64 97) ≠ Config.fwKeyHash || !blockSigned fw code then .error (whyFwSignature, 0)
    else if fieldAt fw 5 1 < s.get .lcsArbCount then .error (whyFwRollback, 0)
    else if sha384 (sliceBytes cfg 64 97) ≠ s.cfgSignerHash then .error (whyCfgSigner, 0)
    else if h.cfgLen ≠ 288 + body || !blockSigned cfg body then .error (whyCfgSignature, 0)
    else match checkContent s.recRetired cfg with
      | .error o => .error (whyCfgContent, o)
      | .ok xs => .ok
        { seq := h.seq, svn := fieldAt fw 5 1, fwVer := fieldAt fw 12 4, cfgVer := fieldAt cfg 12 4,
          fwMeas := sha384 (fw.take (192 + code)), cfgMeas := sha384 (cfg.take (192 + body)), sections := xs }

/-! ### The profile table (R41, R42, R44, R45) -/

/-- RIP_PINFO and RIP_PROF of a number without an owner profile. -/
def State.profileClear (s : State) (n : Nat) : State :=
  [FN.ripProfWord, .ripPinfoN, .ripPinfoTol, .ripPinfoState, .ripPinfoReason].foldl (fun s f => s.set f 0 n) s

/-- One owner record: loaded, or rejected with its event (R41, R45). `taken` are the numbers loaded so far. -/
def State.profileRecord (s : State) (taken : List Nat) (r : List Byte) : State × List Nat :=
  let n := fieldAt r 0 1
  match ownerRecordReason taken r with
  | none =>
    let p := ownerRecordProfile r
    let s := ((s.profileClear n).set .ripProfWord p.word n).set .ripPinfoN p.n n
    ((s.set .ripPinfoState 2 n).wrapInc .ripPloadLoaded, n :: taken)
  | some why =>
    let s := (s.satInc .ripPloadRejected).raise evRipProfileReject 0xFF n
    if why ≤ 2 then (s, taken)
    else (((s.profileClear n).set .ripPinfoState 3 n).set .ripPinfoReason why n, taken)

/-- The table as an image gives it: every owner number empty, then the records in image order; nothing is verified yet. -/
def State.loadProfiles (s : State) (rs : List (List Byte)) : State :=
  let s := ((List.range 26).map (· + 6)).foldl State.profileClear s
  let s := ((s.set .ripPloadLoaded 6).set .ripPloadRejected 0).set .ripPloadVerifyDone 0
  (rs.foldl (fun (acc : State × List Nat) r => acc.1.profileRecord acc.2 r) (s, [])).1

/-- Verification of every loaded owner profile ends (R42): TOL, VERIFY_MS and VERIFY_DONE. -/
def State.verifyProfiles (s : State) (ms : Nat) : State :=
  let s := ((List.range 26).map (· + 6)).foldl (fun s n =>
    if s.get .ripPinfoState n = 2 then s.set .ripPinfoTol (Profile.ofWord (s.get .ripProfWord n)).verifiedTol n else s) s
  (s.set .ripPloadVerifyMs (min 255 ms)).set .ripPloadVerifyDone 1

/-! ### Applying an image (R337) -/

/-- An image value stored as a write stores it, in effect at once: brought into the field's range, and where it has more bits than
the field, what the field takes of it again (log entry 44). -/
def State.put (s : State) (f : FN) (v : Nat) (i : Nat := 0) : State :=
  (s.store f (s.storedAs f i v % (f.max + 1)) i).applyB f i

/-- Ring contexts: allocation, function, size, home pond, vector. -/
def State.imageRing (s : State) (q : Nat) : State :=
  match s.imageRec imgRing q with
  | none => [FN.jobRqCfgAlloc, .jobRqCfgFunc, .jobRqCfgLog2size, .jobRqCfgHomePond, .jobRqIrqVector].foldl
      (fun s f => s.set f 0 q) s
  | some r =>
    let s := ((s.set .jobRqCfgAlloc 1 q).set .jobRqCfgFunc (fieldAt r 1 1) q).set .jobRqCfgLog2size (fieldAt r 2 1) q
    (s.set .jobRqCfgHomePond (fieldAt r 3 1) q).set .jobRqIrqVector (fieldAt r 4 1) q

/-- A function's sealing fields (R150). -/
def State.imageFunc (s : State) (f : Nat) : State :=
  let r := (s.imageRec imgFunction f).getD (zeros 16)
  ((s.set .sealFcfgEnc (fieldAt r 1 1 % 2) f).set .sealLogCfgVector (fieldAt r 2 1) f).set .sealAutoAutoN (fieldAt r 4 4) f

/-- A fabric port (R250). -/
def State.imagePort (s : State) (p : Nat) : State :=
  match s.imageRec imgWeirPort p with
  | none => (s.put .weirPortBurstBurst 64 p).put .weirPortRateRate (portCapacity p) p
  | some r => (s.put .weirPortBurstBurst (fieldAt r 2 2) p).put .weirPortRateRate (fieldAt r 4 4) p

/-- A share group (R253, R263). -/
def State.imageGroup (s : State) (g : Nat) : State :=
  let r := (s.imageRec imgWeirGroup g).getD ([0, 4, 0, 60] ++ zeros 6 ++ [0xFF, 0xFF] ++ zeros 4)
  let s := (s.put .weirGrpCfgGuar (fieldAt r 1 1 % 2) g).put .weirGrpCfgPrioBase (fieldAt r 1 1 / 2) g
  let s := (s.put .weirGrpCfgQmin (fieldAt r 2 1) g).put .weirGrpCfgQmax (fieldAt r 3 1) g
  let s := (s.put .weirGrpRateGRate (fieldAt r 4 4) g).put .weirGrpLatLatTarget (fieldAt r 8 2) g
  if g < 64 then s.set .lakeWaysMask (fieldAt r 10 2) g else s

/-- Event rings and routes (R328, R337). -/
def State.imageEvents (s : State) : State :=
  let rings := assoc s.image imgEventRing
  let routes := assoc s.image imgEventRoute
  if rings.isNone ∧ routes.isNone then
    let s := (((s.setAll .evtRouteEn 320 1).setAll .evtRouteRing 320 0).setAll .evtRingCfgEn 8 0).setAll .evtRingCfgVector 8 0
    s.set .evtRingCfgEn 1
  else
    let s := (((s.setAll .evtRouteEn 320 0).setAll .evtRouteRing 320 0).setAll .evtRingCfgEn 8 0).setAll .evtRingCfgVector 8 0
    let s := (rings.getD []).foldl (fun s r =>
      (s.set .evtRingCfgEn (fieldAt r 1 1) (fieldAt r 0 1)).set .evtRingCfgVector (fieldAt r 2 1) (fieldAt r 0 1)) s
    (routes.getD []).foldl (fun s r =>
      (s.set .evtRouteEn (fieldAt r 2 1) (fieldAt r 0 2)).set .evtRouteRing (fieldAt r 3 1) (fieldAt r 0 2)) s

/-- The DEVICE record. -/
def State.imageDevice (s : State) : State :=
  let r := (s.section imgDevice).headD []
  let b (i : Nat) : Nat := fieldAt r i 1
  let s := ((s.put .pcxLinkCfgMaxRate (b 2)).put .pcxLinkCfgMaxWidth (b 3)).put .pcxLinkCfgRxPrecodeReq (b 4 % 2)
  let s := ((s.put .bootCtrlStackRetain (b 4 / 2)).put .fltCtrlQuietMs (b 5)).put .calCtrlCalDelta (b 6)
  let s := ((s.put .thmCtrlTf (b 7)).put .pwrCapPtf (b 8)).put .pwrCapLimit (b 9)
  let s := s.put .thmCtrlGrace (fieldAt r 10 2)
  let s := (s.writeTh false true (b 12) (b 13) (b 14) (b 15)).writeTh true true (b 16) (b 17) (b 18) (b 19)
  ((s.put .weirCtrlAgeLimit (fieldAt r 20 2)).set .lakeSysWaysMask (fieldAt r 22 2)).everyWrite (fieldAt r 24 4)

/-- Every basin as the image gives it. -/
def State.imageBasins (s : State) : State :=
  let fs : List FN := [.drcBasinCfgEn, .drcBasinCfgGrain, .drcBasinCfgOwner, .drcBasinCfgJournal, .drcBasinBaseBase,
    .drcBasinLocLbase, .drcBasinLocExt, .drcBasinPcmaskLoMask, .drcBasinPcmaskHiMask]
  let s := (List.range 64).foldl (fun s b => (fs.foldl (fun s f => s.set f 0 b) s).applyB .drcBasinCfgEn b) s
  (s.section imgBasin).foldl State.putBasin s

/-- QMIN is admitted in ascending group order with SYS last (R263): none holds any before. -/
def State.imageGroups (s : State) : State := (List.range 65).foldl State.imageGroup (s.setAll .weirGrpCfgQmin 65 0)

/-- The configuration image is loaded: its sections, versions and measurement, every register field it names, the profile
table (R44, R335 to R337). -/
def State.applyImage (s : State) (x : Loaded) : State :=
  let s := { s with
    image := x.sections.map (fun (y : ImgSection) => (y.type, y.records))
    trust := { s.trust with cfgMeas := x.cfgMeas } }
  let s := ((s.set .bootImgSeqSeq x.seq).set .bootFwVerVer x.fwVer).set .bootCfgVerVer x.cfgVer
  let s := (s.set .lcsArbFwSvn x.svn).imageDevice
  let s := (List.range 256).foldl State.imageRing s
  let s := (List.range 64).foldl State.imageFunc s
  let s := (List.range 59).foldl State.imagePort s
  s.imageGroups.imageEvents.imageBasins.loadProfiles (s.section imgProfile)

/-- The next batch of every function starts a new chain (R143); an open batch's entries are never sealed. -/
def State.newChains (s : State) : State :=
  let s := (List.range 64).foldl (fun s f =>
    let s := (List.range 4).foldl (fun s w => s.set .sealChainId 0 f w) (s.set .sealOpenEntries 0 f)
    s.set64 .sealBseqLoSeq .sealBseqHiSeq 0 f) s
  { s with seals := s.seals.map (fun x => (x.1, { x.2 with started := false, first := false, frontier := [] })) }

/-- The keys of a firmware (R152): with another measurement or SVN the alias keys are derived again, and the receipt alias
key changes (R143). Keys that the Tarn holds for the same firmware stay. -/
def State.deriveKeys (s : State) (fwMeas : List Byte) (svn : Nat) : State :=
  if s.trust.fwMeas = fwMeas ∧ s.trust.fwSvn = svn then (if s.trust.held.isSome then s else s.deriveHeld)
  else ({ s with trust := { s.trust with fwMeas, fwSvn := svn } }).deriveHeld.newChains

end Sys2Proof.Machine
end

