-- ==== Sys2Proof/Machine/Starts.lean ====
section
/-! DEFINITION. Cold and warm starts step by step, failed starts, recovery mode and the boot log (R339 to R349). A start runs
within its command until it waits for something the board supplies (`StartWait`). -/

namespace Sys2Proof.Machine

/-! ### Register values at a start (R10) -/

/-- Every instance of some fields at its cold value. -/
def State.coldFields (s : State) (fs : List FN) : State :=
  let nums := fs.map FN.num
  { s with regs := s.regs.filter (fun e => !nums.contains (e.1 / 16777216)) }

/-- Fields that a warm start sets to their table value. That value is the cold one for every field but BOOT_STATUS.WARM. -/
def warmFields : List FN := FN.all.filter (fun f => match f.row.warm with
  | .to _ => true
  | .kept | .start => false)

/-- The Warm column of every register table. -/
def State.warmRegs (s : State) : State := (s.coldFields warmFields).set .bootStatusWarm 1

/-! ### The boot log (R349) -/

def logBase : Nat := 0x20000
def logEntries : Nat := 2048

/-- SEQ and number of each entry with a good CRC; only entries that some listed byte lies in can have one. -/
def State.logValid (s : State) : List (Nat × Nat) :=
  let used := ((s.flash.filter (fun c => logBase ≤ c.1 && c.1 < logBase + 65536)).map (fun c => (c.1 - logBase) / 32)).dedup
  used.filterMap (fun k =>
    let b := s.flashBytes (logBase + 32 * k) 32
    if fieldAt b 28 4 = crc32c (b.take 28) then some (fieldAt b 4 4, k) else none)

/-- The newest entry: SEQ and number. -/
def State.logNewest (s : State) : Option (Nat × Nat) :=
  match s.logValid with
  | [] => none
  | x :: xs => some (xs.foldl (fun a b => if a.1 < b.1 then b else a) x)

/-- What an entry says beside the registers of the start. -/
structure LogNote where
  kind   : Nat
  slot   : Option Nat
  step   : Nat
  reason : Nat
  detail : Nat
  deriving DecidableEq, Repr

def State.logBytes (s : State) (n : LogNote) (seq elapsed : Nat) : List Byte :=
  let body : List Byte := [0x42, 0x4C, 0x01] ++ leBytes 1 n.kind ++ leBytes 4 seq ++ leBytes 1 (s.get .bootStatusWarm)
    ++ leBytes 1 (n.slot.getD 0xFF) ++ leBytes 1 n.step ++ leBytes 1 n.reason
    ++ leBytes 4 ((n.slot.map s.slotSeq).getD 0) ++ leBytes 4 n.detail ++ leBytes 1 (s.get .bootStatusAttempts)
    ++ leBytes 1 s.lc ++ leBytes 2 (min 65535 elapsed) ++ zeros 4
  body ++ leBytes 4 (crc32c body)

/-- BOOT_LAST shows the newest entry. -/
def State.showLast (s : State) : State :=
  match s.logNewest with
  | none => s
  | some (_, k) =>
    let b := s.flashBytes (logBase + 32 * k) 32
    (List.range 8).foldl (fun s w => s.set .bootLastData (fieldAt b (4 * w) 4) w) s

/-- An entry is appended, its sector erased before the sector's first entry; a write that fails raises BOOT_FLASH_ERR. -/
def State.bootLog (s : State) (env : StartEnv) (n : LogNote) : State :=
  let s := s.set .bootTimeMs (min 65535 env.elapsedMs)
  if !env.sfdpValid || !env.logOk then s.showLast.report { cls := .c, source := evBootFlashErr }
  else
    let (seq, k) := match s.logNewest with
      | some (q, k) => (q + 1, (k + 1) % logEntries)
      | none => (1, 0)
    let a := logBase + 32 * k
    let s := if k % 128 = 0 then s.flashErase a 4096 else s
    (s.flashProgram a (s.logBytes n seq env.elapsedMs)).showLast

/-! ### Slots (R345) -/

/-- The register that holds a slot's bad mark. -/
def badField (k : Nat) : FN := if k = 0 then .bootBadASeq else .bootBadBSeq

/-- A mark counts only while the slot's IMG_SEQ equals it. -/
def State.slotMarked (s : State) (k : Nat) : Bool := s.boot.marked.contains k && s.get (badField k) == s.slotSeq k

/-- The slot a start would choose; none for recovery mode. -/
def State.slotChoice (s : State) : Option Nat :=
  if s.flag .bootCtrlNextB then some 1
  else if !s.slotMarked 0 then some 0
  else if !s.slotMarked 1 then some 1
  else none

/-- Marks whose slot holds another image now are gone. -/
def State.dropMarks (s : State) : State :=
  let old := [0, 1].filter (fun k => s.boot.marked.contains k && !s.slotMarked k)
  let s := { s with boot := { s.boot with marked := s.boot.marked.filter (fun k => !old.contains k) } }
  old.foldl (fun s k => s.set (badField k) 0) s

/-- The slot is chosen; NEXT_B clears when the start uses it. -/
def State.chooseSlot (s : State) : State × Option Nat :=
  let s := s.dropMarks
  let c := s.slotChoice
  ((s.set .bootCtrlNextB 0).set .bootStatusSlot (c.getD 0), c)

/-- A slot marked bad. -/
def State.markSlot (s : State) (k : Nat) : State :=
  { s.set (badField k) (s.slotSeq k) with
    boot := { s.boot with marked := if s.boot.marked.contains k then s.boot.marked else s.boot.marked ++ [k] } }

/-! ### The failed hold and recovery mode (R345 to R348) -/

/-- A start fails: counted against the slot `used`, or the one that would have been chosen; at three, that slot is marked.
SCRAPPED counts no attempt. -/
def State.countFailure (s : State) (used : Option Nat) : State :=
  if s.lc = lcScrapped then s
  else if s.get .bootStatusAttempts < 2 then s.set .bootStatusAttempts (s.get .bootStatusAttempts + 1)
  else
    let s := s.set .bootStatusAttempts 0
    match used.or s.slotChoice with
    | some k => s.markSlot k
    | none => s

/-- Step 6's training (R340): once PERST# is deasserted, where the PLLs have locked. -/
def State.trainOnce (s : State) (env : StartEnv) : State :=
  if s.boot.perst || !s.boot.plls || s.dlUp then s else (s.train env.train).1

/-- A start ends in the failed hold; step 6 is completed where it can be (R347), and a result that waited is written (R365). -/
def State.failStart (s : State) (env : StartEnv) (used : Option Nat) (step reason detail : Nat) : State :=
  let s := s.countFailure used
  let s := ((s.set .bootStatusState bootFailed).set .bootStatusStep step).set .bootStatusReason reason
  let s := { s with boot := { s.boot with run := none } }
  (s.bootLog env { kind := 2, slot := used, step, reason, detail }).enginesOff.otpLate.trainOnce env

/-- The settings of recovery mode: the image defaults of R337, the device values of R337 with LIMIT 60 W. No configuration is
read, and the owner profiles are empty (DESIGN CHOICE, log entry 64: R348 does not name the profile table). -/
def State.recoveryImage (s : State) : State :=
  let s := { s with image := [], trust := { s.trust with cfgMeas := zeros 48 } }
  let s := (((s.set .bootImgSeqSeq 0).set .bootFwVerVer 0).set .bootCfgVerVer 0).set .lcsArbFwSvn 0
  let s := ((s.put .fltCtrlQuietMs 10).put .calCtrlCalDelta 10).put .thmCtrlTf 12
  let s := ((s.put .pwrCapPtf 12).put .pwrCapLimit 60).put .thmCtrlGrace 50
  let (w, t, x) := thDefault false
  let s := s.writeTh false true w t x thDefaultHyst
  let (w, t, x) := thDefault true
  let s := s.writeTh true true w t x thDefaultHyst
  let s := (s.put .weirCtrlAgeLimit 200).set .lakeSysWaysMask 0xFFFF
  let s := (List.range 256).foldl State.imageRing s
  let s := (List.range 59).foldl State.imagePort s
  let s := (s.imageGroups.imageBasins).loadProfiles []
  (s.setAll .evtRouteEn 320 0).setAll .evtRingCfgEn 8 0

/-- Recovery mode (R348): the Tarn is left as it is, but the next start does not keep it (R343). -/
def State.recoveryMode (s : State) (env : StartEnv) (step reason : Nat) : State :=
  let s := ((s.set .bootStatusState bootRecovery).set .bootStatusStep step).set .bootStatusReason reason
  let s := s.recoveryImage
  let s := { s with
    trust := { s.trust with fwMeas := zeros 48, fwSvn := 0, wiped := true }
    boot := { s.boot with run := none, slot := none } }.deriveHeld
  let s := (s.setCollector (s.get .fltStateState)).raise evBootRecovery
  (s.bootLog env { kind := 3, slot := none, step, reason, detail := 0 }).enginesOff.fabricOff.otpLate.trainOnce env

/-- A start ends before READY: in the failed hold, or in SCRAPPED in recovery mode, which it runs in at every start (R348). -/
def State.endStart (s : State) (env : StartEnv) (used : Option Nat) (step reason detail : Nat) : State :=
  if s.lc = lcScrapped then s.recoveryMode env step reason else s.failStart env used step reason detail

/-- A start that waits: BOOT_STATUS names the step. -/
def State.waitStart (s : State) (step : Nat) (r : StartRun) : State :=
  { s.set .bootStatusStep step with boot := { s.boot with run := some r } }

/-! ### Steps 9 and 10 (R340, R341) -/

/-- The engines and fabrics of a start (R309): a cold one powers all, a warm one those that OFF_REQ leaves on, counting the
domains that wake; a failed engine is OFFLINE. A device in SHUTDOWN leaves them off (R303). -/
def State.engineBoot (s : State) (warm : Bool) : State :=
  let up (s : State) (d : Nat) : State :=
    if s.dom d = domOn then s
    else let s := s.setDom d domOn
         if warm then s.satInc .pwrWakeCount d else s
  let fabrics := if warm then (if s.shutdown then [] else s.pondsBack) else List.range 6
  let s := fabrics.foldl (fun s p => up s (48 + p)) s
  let out (e : Nat) : Bool := (s.engine e).failed || (s.engine e).repairOff || s.flag .engCtrlOfflineReq e
  let may (e : Nat) : Bool := fabrics.contains (e / 8) && !out e
  let asked := (List.range 48).filter (fun e => may e && !(warm && s.flag .pwrDomOffReq e))
  let mine := if asked.isEmpty then ((List.range 48).reverse.find? may).toList else asked
  let s := (List.range 48).foldl (fun s e =>
    if out e then s.engineDown e engOffline
    else if mine.contains e then (up s e).set .engStateState engIdle e
    else s.engineDown e engOff) s
  let s := (List.range 6).foldl (fun s p => if fabrics.contains p then s else s.setDom (48 + p) domOff) s
  s.showEngines

/-- Is some engine not OFFLINE? -/
def State.anyEngine (s : State) : Bool :=
  (List.range 48).any (fun e => !(s.engine e).failed && !(s.engine e).repairOff)

/-- A FAILED PC at a start (R227): its event, and every basin but the journal basin that names it has EN 0. -/
def State.failedPcs (s : State) : State :=
  let failed := rangeWith 64 (fun p => s.get .drcPcStateState p == 5)
  let s := failed.foldl (fun s p => s.report { cls := .c, source := evDrcTrainFail, arg := p }) s
  (List.range 64).foldl (fun s b =>
    if !s.flag .drcBasinCfgJournal b && failed.any (fun p => bitAt (s.basinMask b) p) then
      (s.set .drcBasinCfgEn 0 b).applyB .drcBasinCfgEn b
    else s) s

/-- Enabled basins at a start (R213): one whose recorded owner is another is filled with zeros before READY. -/
def State.startBasins (s : State) : State :=
  (List.range 64).foldl (fun s b =>
    if !s.flag .drcBasinCfgEn b then s
    else
      let o := s.get .drcBasinCfgOwner b
      let s := match s.basinOwner b with
        | some o' => if o' = o then s else s.zeroBasin b
        | none => s
      s.setOwner b o) s

/-- Journal records become VOID (R100, R343). -/
def State.voidJournal (s : State) : State := match s.journalBasin with
  | some b => s.zeroBasin b
  | none => s

/-- A device that was in SHUTDOWN stays so (R303, R344): its domains are off, its stack is held in self-refresh. Otherwise a
kept stack stays in self-refresh until its first request (R221). -/
def State.startThermal (s : State) : State :=
  if s.shutdown then s.enginesOff.fabricOff.srForceAll
  else { s with dram := { s.dram with srCause := s.dram.srCause.map (fun x => (x.1, SrCause.idle)) } }

/-- READY (R341). STACK_VALID tells of a stack whose contents a rail has not taken meanwhile (log entry 40). -/
def State.reachReady (s : State) (env : StartEnv) (warm reload : Bool) : State :=
  let slot := s.get .bootStatusSlot
  let s := { s with boot := { s.boot with slot := some slot, run := none, faultHeld := false } }
  let s := ((s.set .bootStatusState bootReady).set .bootStatusStep 10).set .bootStatusReason 0
  let s := (s.set .bootStatusStackValid (b2n (!s.dram.lost))).set .bootStatusAttempts 0
  let s := if s.thermal.reject then s.set .thmStatusThReject 1 else s
  let s := { s with thermal := { s.thermal with reject := false } }
  let s := s.setCollector (s.get .fltStateState)
  let s := (List.range 256).foldl State.showRing s
  let s := s.releaseHeldEvents.bootLog env { kind := 1, slot := some slot, step := 10, reason := 0, detail := 0 }
  let s := if warm && reload then s.raise evBootImageReload else s
  let s := if slot = 1 then s.raise evBootSlotFallback else s
  (s.raise evDevReady).otpLate

/-- Step 10: READY, once the link of step 6 has trained too. -/
def State.readyStep (s : State) (env : StartEnv) (warm reload : Bool) : State :=
  if env.late = some 10 then s.endStart env (some (s.get .bootStatusSlot)) 10 whyWatchdog 0
  else if !s.dlUp then s.waitStart 6 { wait := .link, env, warm, reload }
  else s.reachReady env warm reload

/-- Interrupted jobs are marked in their journal records, through the slices (R100, W6). -/
def State.markInterrupted (s : State) : State :=
  (List.range 256).foldl (fun s q => (s.ring q).interrupted.foldl (fun s slot => s.recState q slot jInterrupted) s) s

/-- Step 9 and W6: Lake, engines, basins, admission, verification, then READY. `fresh`: ring contexts and records are not
kept. -/
def State.lastSteps (s : State) (env : StartEnv) (warm reload fresh : Bool) : State :=
  let s := (s.set .bootStatusStep 9).lakeInvalidate.quadsStart
  let slot := some (s.get .bootStatusSlot)
  if env.late = some 9 then s.endStart env slot 9 whyWatchdog 0
  else if !s.anyEngine then s.endStart env slot 9 whyNoEngine 0
  else
    let s := (s.engineBoot warm).failedPcs.startBasins
    let s := if fresh then s.voidJournal else s.markInterrupted
    let s := (List.range 18).foldl State.showGov s
    let s := (s.set .weirDnomD s.dNom).set .weirDnowD (s.dNow 16)
    let s := if reload then s.admitAll.verifyProfiles env.verifyMs else s
    let s := (List.range 59).foldl (fun s p => s.portEff s.clampNow p) s
    s.startThermal.readyStep env warm reload

/-! ### Step 8 (R340): repair record, training, zeroing -/

/-- An entry put in its place by SEQ. -/
def insertEntry (e : RepairEntry) : List RepairEntry → List RepairEntry
  | [] => [e]
  | x :: xs => if e.seq < x.seq then e :: x :: xs else x :: insertEntry e xs

/-- The good entries of the repair record in SEQ order (R291). -/
def State.entriesBySeq (s : State) : List RepairEntry :=
  (s.repairEntries.filterMap (·.2)).foldl (fun l e => insertEntry e l) []

/-- The registers of PCs, lanes and spares before the record is applied; EXHAUSTED, which the record does not hold, stays over a
warm start (R292). -/
def laneFields : List FN :=
  [.vlkPcErased, .vlkPcDegraded, .vlkPcErase0, .vlkPcErase1, .vlkPcBadBad0, .vlkPcBadBad1, .vlkPcBadBad2,
   .vlkPcBadBad3, .vlkPcSpares, .vlkCaBad0, .vlkCaBad1, .vlkCaSpares, .vlkCaFailed, .vlkDegLoMask, .vlkDegHiMask,
   .integPcSpareUsed, .drcPcStateState, .drcRetiredLoMask, .drcRetiredHiMask, .drcSrLoMask, .drcSrHiMask]

/-- A lane marked as the record says, without a further entry or event. -/
def State.markLane (s : State) (p lane : Nat) : State :=
  let e := s.erased p
  if e.contains lane || 2 ≤ e.length then s
  else
    let s := if e.isEmpty then s.set .vlkPcErase0 lane p else s.set .vlkPcErase1 lane p
    let s := (s.set .vlkPcErased (e.length + 1) p).set .vlkPcDegraded 1 p
    s.setMaskBit .vlkDegLoMask .vlkDegHiMask p true

/-- One ACTIVE entry applied. -/
def State.applyRepair (s : State) (e : RepairEntry) : State :=
  if e.typ = typRow then s.remap e
  else if e.typ = typPc then (s.set .drcPcStateState 4 e.unit).setMaskBit .drcRetiredLoMask .drcRetiredHiMask e.unit true
  else if e.typ = typLane then
    let bad := s.badTsvs e.unit
    if bad.contains e.bank || 4 ≤ bad.length then s else s.setBadTsvs e.unit (insertRising e.bank bad)
  else if e.typ = typErase then s.markLane e.unit e.bank
  else if e.typ = typCaLane then
    let bad := s.badCa e.unit
    if bad.contains e.bank || 2 ≤ bad.length then s else s.setBadCa e.unit (insertRising e.bank bad)
  else s

/-- Entries whose CRC fails are counted (R291). -/
def State.countBadEntries (s : State) : State :=
  s.set .integRecBadCount (min 65535 (s.repairEntries.filter (·.2.isNone)).length)

/-- A PENDING row entry made ACTIVE at a start (R291). -/
def State.settlePending (s : State) : State :=
  let todo := s.entriesBySeq.filter (fun e => e.typ = typRow && !e.active)
  let s := todo.foldl (fun s e =>
    let s := if s.dram.remaps.contains (e.unit, e.bank, e.row, e.spare) then s else s.remap e
    s.repairActivate e.seq) s
  { s with retire := {} }

/-- The repair record applied to a stack that is not kept. -/
def State.repairRecord (s : State) : State :=
  let s := s.coldFields laneFields
  let s := { s with dram := { s.dram with remaps := [], srCause := [] } }
  ((s.entriesBySeq.filter (·.active)).foldl State.applyRepair s).settlePending

/-- A TSV of a PC fails training (R281, R283): a spare takes its lane; with none left the lane is erasure-marked, and a third
mark makes the PC FAILED. -/
def State.tsvFails (s : State) (p tsv : Nat) : State :=
  let bad := s.badTsvs p
  if s.pcGone p || bad.contains tsv || 76 ≤ tsv then s
  else if bad.length < 4 then s.setBadTsvs p (insertRising tsv bad)
  else
    let lane := ((List.range 76).filter (fun t => !bad.contains t && t < tsv)).length
    if (s.erased p).contains lane then s
    else if 2 ≤ (s.erased p).length then s.set .drcPcStateState 5 p
    else s.eraseLane p lane

/-- The same for a CA TSV of a channel (R284). -/
def State.caTsvFails (s : State) (c tsv : Nat) : State :=
  let bad := s.badCa c
  if bad.contains tsv || 26 ≤ tsv then s
  else if bad.length < 2 then s.setBadCa c (insertRising tsv bad)
  else s.caFail c

/-- Findings of the TSV test (R370), which training handles, by PC: DQ TSV 0 to 75, and from 76 on the CA TSVs of the PC's
channel, its forwarded clock after them (DESIGN CHOICE, log entry 31). -/
def tsvFindings (fs : List BistFailure) : List (Nat × Nat) :=
  (fs.filter (fun f => f.test == 6 && f.inst < 64)).map (fun f => (f.inst, f.bit))

/-- Training of the stack interface; `found`: what the TSV test of the start found. -/
def State.trainStack (s : State) (env : StartEnv) (found : List (Nat × Nat)) : State :=
  let clocks := env.failedClocks ++ (found.filter (·.2 == 102)).map (·.1 / 2)
  let ca := env.badCaTsvs ++ (found.filter (fun x => 76 ≤ x.2 && x.2 < 102)).map (fun x => (x.1 / 2, x.2 - 76))
  let s := clocks.foldl (fun s c => if c < 32 then s.clockFail c else s) s
  let s := ca.foldl (fun s x => if x.1 < 32 then s.caTsvFails x.1 x.2 else s) s
  (env.badTsvs ++ found).foldl (fun s x => if x.1 < 64 then s.tsvFails x.1 x.2 else s) s

/-- STACK_TRAIN (R346): the FAILED PC that the journal basin names, or any where no PC is left. -/
def State.trainFailure (s : State) : Option Nat :=
  let failed := rangeWith 64 (fun p => s.get .drcPcStateState p == 5)
  match s.journalBasin.bind (fun b => failed.find? (fun p => bitAt (s.basinMask b) p)) with
  | some p => some p
  | none => if s.livePcs.isEmpty then failed.head? else none

/-- Failures of the self-test subset that a step finds, after `n` entries (R370, R373). -/
def State.subsetResult (s : State) (n : Nat) (all mine : List BistFailure) (tests : List Nat) : State :=
  let s := tests.foldl (fun s t => s.bistTestEnd all t) s
  s.bistLog n mine

/-- Tests of step 4 and of step 8 (R370). -/
def inStep4 (f : BistFailure) : Bool :=
  f.test = 1 || f.test = 2 || f.test = 3 || f.test = 4 || f.test = 8 || (f.test = 7 && sensorLayer f.address ≤ 1)
def inStep8 (f : BistFailure) : Bool := f.test = 5 || f.test = 6 || (f.test = 7 && 1 < sensorLayer f.address)

/-- SENSOR failures (R295, R370). -/
def State.sensorTest (s : State) (fs : List BistFailure) : State :=
  (fs.filter (fun f => f.test == 7)).foldl (fun s f =>
    if f.address < 104 && !s.sensorFailed f.address then s.sensorFails f.address else s) s

/-- The DRAM part of the subset and the calibrations of a cold start. -/
def State.stackTests (s : State) (env : StartEnv) : State :=
  let mine := env.bistFails.filter inStep8
  let before := (env.bistFails.filter (fun f => inStep4 f || f.test == 9)).length
  let s := (s.subsetResult before env.bistFails mine [5, 6, 7]).sensorTest mine
  let s := s.set .bistStatusResult (b2n (!env.bistFails.isEmpty))
  env.bistCorrected.foldl (fun s x => if x.1 < 64 then s.ceLog x.1 x.2.1 x.2.2 else s) s

/-- Does the start hold for the operating limits of a step's tests (R369)? -/
def State.limitsHeld (s : State) (layers : List Nat) : Bool := layers.any (fun l => !s.govInLimits l)

def State.holdBist (s : State) (step : Nat) (volt temp : Bool) (r : StartRun) : State :=
  let s := if volt || temp then s.set .bistStatusState bistHeld else s
  ((s.set .bistStatusHeldVolt (b2n volt)).set .bistStatusHeldTemp (b2n temp)).waitStart step r

def State.releaseBist (s : State) : State :=
  ((s.set .bistStatusState bistDoneState).set .bistStatusHeldVolt 0).set .bistStatusHeldTemp 0

/-- Step 8, for a stack that is not kept. -/
def State.stackStep (s : State) (env : StartEnv) (warm reload : Bool) : State :=
  let s := (s.set .bootStatusStep 8).set .bootStatusStackValid 0
  let slot := some (s.get .bootStatusSlot)
  if !s.boot.stackOk then s.waitStart 8 { wait := .stackRails, env, warm, reload, keep := false }
  else if !warm && s.limitsHeld (List.range 18) then
    s.holdBist 8 false true { wait := .bistLimits, env, warm, reload, keep := false }
  else if env.late = some 8 then s.endStart env slot 8 whyWatchdog 0
  else
    let s := (s.repairRecord.trainStack env (if warm then [] else tsvFindings env.bistFails)).quadsStart
    let s := if warm then s else s.releaseBist.stackTests env
    match s.trainFailure with
    | some p => s.endStart env slot 8 whyStackTrain p
    | none =>
      if !warm && 1024 < (env.bistFails.filter (·.test == 5)).length then s.endStart env slot 8 whyBistFail 0
      else
        let s := s.calOwed env.trims
        let s := ((s.zeroStack.lakeInvalidate).set .lcsTamperStackPending 0).set .thmStatusStackSuspect 0
        { s with dram := { s.dram with zeroing := false } }.lastSteps env warm reload true

/-! ### Step 7 and W4 (R340, R344): the image -/

/-- The image of a chosen slot is authenticated and applied; none where the start has failed, which the state then says. Its
slot is in force from READY on: a start that fails after it is loaded again (R42, R344; DEDUCED, log entry 40). A link that is
up already is judged against what the image asks (R182). -/
def State.loadImage (s : State) (env : StartEnv) (k : Nat) : State × Bool :=
  match s.authenticate k with
  | .error (reason, detail) => (s.endStart env (some k) 7 reason detail, false)
  | .ok x => ({ s with boot := { s.boot with slot := none } }.deriveKeys x.fwMeas x.svn |>.applyImage x |>.rejudge, true)

/-- What follows step 7: the link trains, by the image in force, and step 8 or, with the stack kept, step 9 follows. A kept stack
too is held to R212's STACK_TRAIN. -/
def State.afterImage (s : State) (env : StartEnv) (warm reload keep : Bool) : State :=
  let s := (s.trainOnce env).countBadEntries
  if !keep then s.stackStep env warm reload
  else match s.trainFailure with
    | some p => s.endStart env (some (s.get .bootStatusSlot)) 8 whyStackTrain p
    | none => s.settlePending.lastSteps env warm reload reload

/-- The image of the slot chosen is loaded, where it must be. -/
def State.imageLoad (s : State) (env : StartEnv) (warm reload keep : Bool) : State :=
  if !reload then s.afterImage env warm reload keep
  else match s.loadImage env (s.get .bootStatusSlot) with
    | (s, false) => s
    | (s, true) => (if warm then s.set .bootStatusCfgReloaded 1 else s).afterImage env warm reload keep

/-- Step 7 and W4 (R340, R344). It does not wait for the link; where the link comes up first, configuration requests meet Retry
Status until it has ended (R195). -/
def State.imageStep (s : State) (env : StartEnv) (warm reload keep : Bool) : State :=
  let s := s.set .bootStatusStep 7
  if env.late = some 7 then s.endStart env (some (s.get .bootStatusSlot)) 7 whyWatchdog 0
  else if !reload || !env.linkFirst then s.imageLoad env warm reload keep
  else
    let s := s.trainOnce env
    if s.dlUp then s.waitStart 7 { wait := .image, env, warm, reload, keep } else s.imageLoad env warm reload keep

/-! ### Steps 4 to 6 -/

/-- The way that a LAKE failure is confined to: as reported, or as its REPAIR of TYPE 2 names it (R370; log entry 4). -/
def failedWay (f : BistFailure) : Option Nat :=
  (f.way.or (if repType f.repair = 2 then some (repSpare f.repair) else none)).filter (· < 16)

/-- Ways that the LAKE test names, beyond those that fuses disable (R370): none where some failure is no way's, or a slice has
more than two. -/
def State.softWays (s : State) (fs : List BistFailure) : Option (List Nat) :=
  let lake := fs.filter (·.test == 1)
  let ways := ((lake.filterMap (fun f => (failedWay f).map (16 * (f.inst % 64) + ·))).filter
    (fun w => !s.lake.offWays.contains w)).dedup
  if lake.any (fun f => (failedWay f).isNone) then none
  else if ways.any (fun w => 2 < (ways.filter (fun v => v / 16 == w / 16)).length) then none
  else some ways

/-- What step 4's tests do (R370). Answers whether the start goes on. -/
def State.logicTests (s : State) (env : StartEnv) : State × Bool :=
  let fs := env.bistFails.filter inStep4
  let s := (s.bistClear.releaseBist).set .bistTimeUs env.bistUs
  let s := (s.set .bistStatusDestructive 1).set .bistStatusResult (b2n (!fs.isEmpty))
  let s := (s.subsetResult 0 fs fs [1, 2, 3, 4, 7, 8]).sensorTest fs
  let engines := ((fs.filter (fun f => f.test == 3 || f.test == 4)).map (·.inst)).dedup
  let s := engines.foldl (fun s e => if e < 48 then s.goOffline e else s) s
  match s.softWays fs with
  | none => (s, false)
  | some ways =>
    let s := { s with lake := { s.lake with offWays := s.lake.offWays ++ ways } }
    (s.set .bistSoftWaysCount ways.length, !fs.any (fun f => f.test == 2 || f.test == 8))

/-- SFDP table and header read at a cold start, at 16 MHz in 1-1-1 mode (R330): the header in force, or the identity of mask ROM
(R332, R348). Answers whether a valid copy was found. -/
def State.headerStep (s : State) (env : StartEnv) : State × Bool :=
  let s := (s.set .bootSpiMode 0).set .bootSpiMhz 16
  match (if env.sfdpValid then s.flashHeader else none) with
  | some (copy, h) =>
    let cert := hdrCert h
    let s := { s with
      pcie := { s.pcie with identity := hdrIdentity h }, trust := { s.trust with cert }
      boot := { s.boot with spi := (min 2 env.spiMode, min 133 (fieldAt h 5 1)) } }
    let ok := s.flag .otpRegionValid 0 && !cert.isEmpty && sha384 cert == s.certHash
    ((s.set .lcsStateCertOk (b2n ok)).set .bootSpiHdrCopy copy, true)
  | none =>
    ({ s with pcie := { s.pcie with identity := fitBytes 4 Config.romIdentity ++ zeros 8 } }.set .lcsStateCertOk 0, false)

/-- The PLLs lock, the flash runs at its fastest, and the event timer starts (R247); the sideband acknowledges from then on
(R397). -/
def State.pllsUp (s : State) : State :=
  let s := (s.set .bootSpiMode s.boot.spi.1).set .bootSpiMhz s.boot.spi.2
  { s with timer := 0, boot := { s.boot with stackPll := true, plls := true, sideband := { s.boot.sideband with up := true } } }

/-- The PLLs do not lock: no link, the flash at its slow clock, the sideband alone (R330, R347). -/
def State.pllsFail (s : State) : State :=
  let s := (s.set .bootSpiMode 0).set .bootSpiMhz 16
  { s with boot := { s.boot with plls := false, sideband := { s.boot.sideband with up := true } } }

/-- Step 6 of a cold start, after the header: the calibration record is read, the slot chosen. `why`: what has ended the start
already. -/
def State.linkStep (s : State) (env : StartEnv) (found : Bool) (why : Option (Nat × Nat)) : State :=
  let s := s.set .bootStatusStep 6
  match why with
  | some (step, reason) => s.endStart env none step reason 0
  | none =>
    if !found then s.recoveryMode env 6 (if env.sfdpValid then whyHeaderBad else whyFlashAbsent)
    else if s.lc = lcScrapped then s.recoveryMode env 7 0
    else if env.late = some 6 then s.endStart env none 6 whyWatchdog 0
    else match s.calRead.chooseSlot with
      | (s, none) => s.recoveryMode env 7 0
      | (s, some _) => s.imageStep env false true false

/-- Step 5, and the reading of the header. A start that has failed goes on to step 6 where the PLLs allow (R347). -/
def State.clockStep (s : State) (env : StartEnv) (why : Option (Nat × Nat)) : State :=
  let s := s.set .bootStatusStep 5
  let pll := env.bistFails.filter (·.test == 9)
  let s := if s.lc = lcScrapped then s
    else (s.subsetResult (env.bistFails.filter inStep4).length env.bistFails pll [9]).set .bistStatusResult
      (b2n (s.get .bistStatusResult = 1 || !pll.isEmpty))
  let (s, found) := s.headerStep env
  if !s.boot.coreOk || !env.crystalOk || !env.pllOk || !pll.isEmpty || decide (env.late = some 5) then
    let (step, reason) := why.getD (5, if env.late = some 5 then whyWatchdog else whyPllLock)
    s.pllsFail.endStart env none step reason 0
  else s.pllsUp.linkStep env found why

/-- Step 4: waits for VDD_CORE and VDD_LAKE, then for the operating limits of the tests over L0 and L1; SCRAPPED runs none. A step
up to here that exceeds twice its maximum ends the start with WATCHDOG. -/
def State.testStep (s : State) (env : StartEnv) : State :=
  let s := s.set .bootStatusStep 4
  let late := env.late.filter (fun k => 1 ≤ k && k ≤ 4)
  if late.any (· < 4) then s.clockStep env (late.map (·, whyWatchdog))
  else if !s.boot.coreOk then s.holdBist 4 (!s.boot.coreVolt) false { wait := .coreRails, env, warm := false }
  else if late.isSome then s.clockStep env (late.map (·, whyWatchdog))
  else if s.lc = lcScrapped then s.releaseBist.clockStep env none
  else if s.limitsHeld [0, 1] then s.holdBist 4 false true { wait := .bistLimits, env, warm := false }
  else
    let (s, passed) := s.logicTests env
    s.clockStep env (if passed then none else some (4, whyBistFail))

/-! ### The start of a cold start: steps 1 to 3 -/

/-- Temperatures as they are at the start. -/
def State.firstTemps (s : State) (govs : List Nat) : State :=
  (List.range 18).foldl (fun s l =>
    let g := govs.getD l 0
    let s := ((s.set .thmLayerTMeas g l).set .thmLayerTModel (if l = 0 then 0 else g) l).set .thmLayerGGov g l
    (layerSensors l).foldl (fun s k => let (f, i) := sensTemp k; s.set f g i) s) s

/-- A mailbox command that the always-on domain carries over a start keeps BUSY at 1, and PROG_BUSY while it programs (R365). -/
def State.showMbox (s : State) : State :=
  match s.trust.mbox with
  | none => s
  | some r => (s.set .lcsMboxStatusBusy 1).set .otpStatusProgBusy (b2n r.otp.isSome)

/-- What a cold start begins with: nothing, or the always-on domain after a loss of VDD_CORE (R21, R325). PERST# is honoured from
here on (R392). -/
def State.coldBase (s : State) (env : StartEnv) : State :=
  let held := s.boot.faultHeld || s.fatal
  let t := if s.boot.aux then s.aonOnly else s.unpowered
  let strap : Sideband := { i3c := bitAt env.strap 2, address := 0x64 + env.strap % 4 }
  let t := { t with
    trust := { t.trust with fwMeas := zeros 48, cfgMeas := zeros 48 }
    boot := { t.boot with aux := true, crystal := env.crystalOk, perst := env.perst, ramp := env.perst,
                          coreVolt := env.coreRails || env.coreVolt, coreOk := env.coreRails,
                          stackOk := env.stackRails, coldNext := false, faultHeld := held, sideband := strap } }
  let t := (t.setCollector 0).enginesOff.fabricOff
  ((([58, 59, 60, 61, 63] : List Nat).foldl (fun t d => t.setDom d domOff) t).firstTemps env.govs).showMbox

/-- The record of a loss of VDD_CORE is the first of the start, with the TIME of the earlier one (R325). -/
def State.coreLossRecord (s : State) : State :=
  match s.collector.coreLoss with
  | none => s
  | some t =>
    let r : FaultIn := { cls := .f, source := evPwrCoreLoss, cause := causePowerLoss }
    let (s, _) := { s with collector := { s.collector with coreLoss := none } }.record r t
    s.announce r

/-- In SCRAPPED the key-derivation logic refuses every request, and no key is left (R151, R159). -/
def State.scrap (s : State) : State :=
  if s.lc = lcScrapped then { s.setDom 62 domOff with trust := { s.trust with uds := none, held := none } } else s

/-- Steps 2 and 3: OTP and the life cycle. -/
def State.otpSteps (s : State) (env : StartEnv) : State := (s.senseOtp env.margins).decideLc.scrap

/-- A cold start (R340). -/
def State.coldStart (s : State) (env : StartEnv) : State :=
  ((((s.coldBase env).coreLossRecord).set .bootStatusStep 2).otpSteps env).testStep env

/-! ### Warm starts (R342 to R344) -/

/-- PERST# is asserted (R342): units end, the Lake is flushed with STACK_RETAIN, every channel enters self-refresh, the PHY
resets, sessions and streams end, and so does any collector state (R326). A cold start that has not passed step 5, where
neither rails nor clocks nor fuses are ready for a warm one, becomes the next start (DESIGN CHOICE, log entry 41). A zeroing
that PERST# cuts is owed to the next start (R172). MCTP's negotiated state, its waiting requests and the signer's waiting SPDM
entries end with DOE's: R156 names the sessions alone (DESIGN CHOICE, log entry 67). -/
def State.perst (s : State) : State :=
  let cold := match s.boot.run with
    | some r => !r.warm && s.get .bootStatusStep < 6
    | none => false
  let retain := s.flag .bootCtrlStackRetain
  let held := s.boot.faultHeld || s.fatal
  let s := (s.bistAbort.flashCut).haltJobs
  let s := if retain then s.startFlush else s
  let s := (s.srForceAll).linkGone
  let s := if s.dram.zeroing then (s.set .lcsTamperStackPending 1).set .bootStatusStackValid 0 else s
  let s := ((s.set .bootStatusState bootStarting).set .bootStatusStep 0).set .bootStatusReason 0
  let s := { s with
    collector := { s.collector with running := none, waiting := [], quiet := false }
    trust := { s.trust with conns := [], sessions := [], signer := [], requests := [], streams := [] }
    pcie := { s.pcie with tags := [], waiting := [], lost := [], quarantine := [], freed := [], held := [], doeIn := [], doeOut := [] }
    boot := { s.boot with perst := true, run := none, retain, coldNext := s.boot.coldNext || cold, faultHeld := held } }
  (s.setCollector 0).showPending

/-- The steps of R342 that still run when PERST# is released are completed before W2: the flush's write-backs reach the array, and
every channel its self-refresh. -/
def State.settlePerst (s : State) : State :=
  let s := s.lake.wbuf.foldl (fun s x => if x.clean || s.pcGone x.pc then s else s.wbDone x.pc x.a) s
  (List.range 32).foldl (fun s c => s.srEntryDone c) s

/-- Is the stack kept (R343)? -/
def State.stackKeeps (s : State) (env : StartEnv) : Bool :=
  s.boot.retain && s.flag .bootStatusStackValid && !s.flag .thmStatusStackSuspect && !s.flag .lcsTamperStackPending
    && !s.inHold && !s.dram.lost && env.stackRails

/-- Must the image be loaded again (R344)? -/
def State.mustReload (s : State) (c : Option Nat) : Bool :=
  match c with
  | none => true
  | some k => s.boot.slot ≠ some k || s.slotSeq k ≠ s.get .bootImgSeqSeq

/-- FETCH_SEQ and slot, in order of FETCH_SEQ, which wraps modulo 2^32 (R117). -/
def insertFetched (x : Nat × Nat) : List (Nat × Nat) → List (Nat × Nat)
  | [] => [x]
  | y :: ys => if seqBefore x.1 y.1 then x :: y :: ys else y :: insertFetched x ys

/-- Slots of a ring's fetched, incomplete jobs in order of fetch. -/
def State.fetchedSlots (s : State) (q : Nat) : List Nat :=
  let all := (s.jobsOf q).map (fun j => (j.fetchSeq, j.slot)) ++ (s.ring q).fetches.map (fun f => (f.seq, f.slot))
  (all.foldl (fun l x => insertFetched x l) []).map (·.2)

/-- A kept ring context (R100): its fetched jobs are INTERRUPTED and hold their keys (R131), what was not fetched is forgotten, EN
is 0. The count of completions since the last message restarts at 0 (R72; DESIGN CHOICE, log entry 65). -/
def State.interruptRing (s : State) (q : Nat) : State :=
  let slots := s.fetchedSlots q
  let old := s.ring q
  let keys := old.keys ++ (s.jobsOf q).flatMap (·.keys)
  ((s.forgetSeals (· == q)).setRing q { interrupted := old.interrupted ++ slots, keys }).set .jobRqDbSqTail
    (s.get .jobRqSqHead q) q

/-- Fields of ring contexts that no image names. -/
def ringFields : List FN := fieldsJob.filter (fun f => match f.row.src with
  | .value => true
  | .image | .start => false)

/-- Ring contexts at a warm start (R100, R343). -/
def State.warmRings (s : State) (kept : Bool) : State :=
  if kept then
    let s := (List.range 256).foldl (fun s q => if s.ringAlloc q then s.interruptRing q else s) s
    { s with jobUnit := { s.jobUnit with jobs := [], served := [] } }
  else
    let s := { s.coldFields ringFields with jobUnit := {} }
    (List.range 256).foldl State.imageRing s

/-- Sealing fields that a warm start keeps with the Tarn only (R150), beside those that stand in it. -/
def sealLogFields : List FN := [.sealLogBaseLoAddr, .sealLogBaseHiAddr, .sealLogCfgLog2size, .sealLogCfgLogEn]

/-- The Tarn at a warm start (R149, R150, R343): batches lose their jobs, or everything is cleared. A staged low word of a commit
(R144), 0 at reset, is 0 after every start: R149 does not name it (DESIGN CHOICE, log entry 67). -/
def State.warmTarn (s : State) (kept : Bool) : State :=
  if !kept then
    (List.range 64).foldl State.imageFunc ((s.clearTarn.coldFields sealLogFields).set .tarnStatusKeypathOpen 0)
  else
    { s with seals := s.seals.map (fun (x : Nat × SealFn) => (x.1, { x.2 with
        closing := x.2.closing.map (fun b => { b with job := none })
        records := x.2.records.map (fun r => (r.1, none))
        staged := 0, latched := none })) }

/-- The parts of the state that no register shows, after PERST#. -/
def State.warmParts (s : State) : State :=
  { s with
    inForce := [], timer := 0, eddies := [], stalls := [], scratch := [], packs := [], vlink := {}, weirs := {}
    bist := none, thermal := {}, planSlots := []
    collector := { nextSeq := s.collector.nextSeq, recoveries := s.collector.recoveries, ovfRaised := s.collector.ovfRaised }
    events := {}
    counters := { s.counters with hiLatch := [], bwLines := [] }
    lake := { blocked := s.lake.blocked, offWays := s.lake.offWays }
    dram := { s.dram with queue := [], waiting := [], banks := [], draining := [], urgentAt := none, held := []
                          corrected := [], filling := [], zeroing := false }
    dredge := { e0 := s.dredge.e0, scheduled := s.dredge.scheduled }
    retire := { copied := s.retire.copied }
    cal := { s.cal with running := [], again := [], waiting := s.cal.waiting ++ s.cal.running }
    pcie := { identity := s.pcie.identity }
    ponds := { ponds := [], engines := s.ponds.engines.map (fun (x : Nat × Engine) =>
      (x.1, { x.2 with tasks := [], fenced := [], stale := [] })) }
    trust := { s.trust with mbox := s.trust.mbox.filter (fun r => r.otp.isSome || r.late), nonce := none, reissue := false, wiped := false } }

/-- Everything a warm start resets, before its link trains. -/
def State.warmReset (s : State) (env : StartEnv) (tarn rings : Bool) : State :=
  let stale := s.cal.running
  let s := (s.warmRings rings).roundStops
  let s := s.warmParts.warmRegs
  let s := stale.foldl (fun s t => s.runHeld t.1 t.2) s.bistClear
  let s := (s.showCal.warmTarn tarn).decideLc.scrap
  let s := if s.trust.held.isNone then s.deriveHeld else s
  let s := { s with boot := { s.boot with perst := false, crystal := env.crystalOk, stackOk := env.stackRails, flashOp := none } }
  s.showMbox.setCollector 0

/-- W3 and W4: neither header nor calibration record is read again (R344). -/
def State.warmLink (s : State) (env : StartEnv) (choice : Option Nat) (reload keep : Bool) : State :=
  if !env.crystalOk || !env.pllOk || decide (env.late = some 5) then
    s.pllsFail.endStart env choice 5 (if env.late = some 5 then whyWatchdog else whyPllLock) 0
  else
    let s := s.pllsUp.set .bootStatusStep 6
    if s.pcie.identity.isEmpty then s.recoveryMode env 6 whyHeaderBad
    else if choice.isNone || s.lc = lcScrapped then s.recoveryMode env 7 0
    else if env.late = some 6 then s.endStart env choice 6 whyWatchdog 0
    else s.imageStep env true reload keep

/-- A warm start (R343, R344). -/
def State.warmStart (s : State) (env : StartEnv) : State :=
  let s := s.settlePerst
  let tarn := !s.trust.wiped
  let keep := s.stackKeeps env
  let (s, choice) := s.chooseSlot
  let reload := s.mustReload choice
  let s := s.warmReset env tarn (keep && !reload)
  let s := (s.set .bootStatusStackKept (b2n keep)).set .bootStatusTarnKept (b2n tarn)
  let s := s.set .bootStatusCfgReloaded 0
  let s := if s.boot.linkDown then ({ s with boot := { s.boot with linkDown := false } }).raise evPcxLinkDown else s
  s.warmLink env choice reload keep

/-! ### A start goes on -/

/-- Step 7 of a start ends after its link has come up. Contents that were kept and are lost meanwhile (R20, R172) are kept no
more, nor the ring contexts with them. -/
def State.imageGo (s : State) (r : StartRun) : State :=
  let keep := r.keep && s.flag .bootStatusStackValid && !s.dram.lost && !s.inHold
  let s := if r.keep && !keep then (s.set .bootStatusStackKept 0).warmRings false else s
  s.imageLoad r.env r.warm r.reload keep

/-- What a waiting start waits for may have come. A fatal fault or a hold has stopped it (R173, R325). -/
def State.resumeStart (s : State) : State :=
  match s.boot.run with
  | none => s
  | some r =>
    let t := { s with boot := { s.boot with run := none } }
    if s.fatal || s.inHold then s
    else match r.wait with
      | .coreRails => if s.boot.coreOk then t.testStep r.env else s
      | .bistLimits =>
        if s.get .bootStatusStep = 8 then
          if s.limitsHeld (List.range 18) then s else t.stackStep r.env r.warm r.reload
        else if s.limitsHeld [0, 1] then s else t.testStep r.env
      | .image => t.imageGo r
      | .link => if s.dlUp then t.readyStep r.env r.warm r.reload else s
      | .stackRails => if s.boot.stackOk then t.stackStep r.env r.warm r.reload else s

end Sys2Proof.Machine
end

