-- ==== Sys2Proof/Machine/StartCmds.lean ====
section
/-! DEFINITION. The commands of starts, of the flash port and of the sideband (R179, R188, R340 to R352, R391, R397, R398), and
the samples that a start may wait for (R296, R305). -/

namespace Sys2Proof.Machine

/-! ### Starts -/

/-- The F actions of a fault that a start itself has found: a start begins in NORMAL (R326). -/
def State.fatalCheck (s : State) : State := if s.fatal then s.fatalActions else s

/-- COLD_START (R340): a rise of VDD_AUX, or a start that R325 turns into a cold one. -/
def execColdStart (env : StartEnv) (s : State) : Host.Outcome State Fault Refusal :=
  whenWf "COLD_START" (Instr.wf (.coldStart env))
    (if s.boot.aux && !s.boot.coldNext then s else (s.coldStart env).fatalCheck)

/-- The start that follows a PERST#. -/
def State.nextStart (s : State) (env : StartEnv) : State :=
  (if s.boot.coldNext then s.coldStart env else s.warmStart env).fatalCheck

/-- PERST#, asserted since before a cold start, is deasserted (R340, R392): the link of step 6 trains, and a start that waits for
it goes on. -/
def State.rampEnd (s : State) (env : StartEnv) : State :=
  ({ s with boot := { s.boot with perst := false, ramp := false } }.trainOnce env).withFatal State.resumeStart

/-- WARM_START (R344): PERST# is deasserted. -/
def execWarmStart (env : StartEnv) (s : State) : Host.Outcome State Fault Refusal :=
  whenWf "WARM_START" (Instr.wf (.warmStart env))
    (if s.boot.aux && s.boot.perst then (if s.boot.ramp then s.rampEnd env else s.nextStart env) else s)

/-- PERST_ASSERT (R342). -/
def execPerstAssert (s : State) : Host.Outcome State Fault Refusal :=
  .next (if s.boot.aux && !s.boot.perst then s.perst else s)

/-- The link is lost: handled as PERST#, and counted (R188). -/
def State.linkLost (s : State) : State :=
  let s := (s.satInc .pcxLinkdownsCount).perst
  { s with boot := { s.boot with linkDown := true } }

/-- Is there a link to lose? -/
def State.linked (s : State) : Bool := s.boot.aux && !s.boot.perst && s.flag .pcxLinkStatusDlUp

/-- PCIE_PHY_PLL_UNLOCK (R188): no fault is raised. -/
def execPciePhyPllUnlock (s : State) : Host.Outcome State Fault Refusal := .next (if s.linked then s.linkLost else s)

/-- LINK_DOWN (R188): assertion and release of PERST# in one. -/
def execLinkDown (env : StartEnv) (s : State) : Host.Outcome State Fault Refusal :=
  whenWf "LINK_DOWN" (Instr.wf (.linkDown env)) (if s.linked then s.linkLost.nextStart env else s)

/-- LINK_UP (R179): a link that is down trains, once step 6 has installed an identity; none after a failure at step 5 (R347). -/
def State.linkUp (s : State) (t : TrainResult) : State :=
  if !s.boot.aux || s.boot.perst || !s.boot.plls || s.dlUp || s.pcie.identity.isEmpty then s
  else match s.train t with
    | (s, true) => s.withFatal State.resumeStart
    | (s, false) => s

/-- LINK_UP (R179). -/
def execLinkUp (train : TrainResult) (s : State) : Host.Outcome State Fault Refusal := .next (s.linkUp train)

/-- Rails come into range: VDD_CORE and VDD_LAKE (R340, step 4), or VDD_STK and VPP_STK (R391). -/
def State.railUp (s : State) (stack : Bool) : State :=
  if !s.boot.aux then s
  else
    let b := if stack then { s.boot with stackOk := true } else { s.boot with coreVolt := true, coreOk := true }
    ({ s with boot := b }).withFatal State.resumeStart

/-- RAIL_IN_RANGE (R340). -/
def execRailInRange (stack : Bool) (s : State) : Host.Outcome State Fault Refusal := .next (s.railUp stack)

/-- A step exceeds twice its maximum while a start waits (R340): the waits for the link, for the image and for the stack rails
count, the hold of BIST and the wait of step 4 for its rails do not, nor does time with PERST# asserted. A step that a start
passes through without a wait exceeds it as its environment says. -/
def State.watchdog (s : State) : State :=
  match s.boot.run with
  | none => s
  | some r =>
    let slot := some (s.get .bootStatusSlot)
    match r.wait with
    | .link => if s.boot.perst then s else s.endStart r.env slot 6 whyWatchdog 0
    | .image => s.endStart r.env slot 7 whyWatchdog 0
    | .stackRails => s.endStart r.env slot 8 whyWatchdog 0
    | .coreRails | .bistLimits => s

/-- START_WATCHDOG (R340). -/
def execStartWatchdog (s : State) : Host.Outcome State Fault Refusal := .next s.watchdog

/-- The stack rails stay out of range for 200 ms (R391). -/
def State.stackRailExpire (s : State) : State :=
  match s.boot.run with
  | none => s
  | some r =>
    match r.wait with
    | .stackRails => s.endStart r.env (some (s.get .bootStatusSlot)) 8 whyStackRail 0
    | .coreRails | .bistLimits | .image | .link => s

/-- STACK_RAIL_WAIT_EXPIRE (R391). -/
def execStackRailWaitExpire (s : State) : Host.Outcome State Fault Refusal := .next s.stackRailExpire

/-! ### Samples that end a hold (R369) -/

/-- A start that holds for temperatures looks again. -/
def State.resumeLimits (s : State) : State :=
  match s.boot.run with
  | none => s
  | some r =>
    match r.wait with
    | .bistLimits => s.resumeStart
    | .coreRails | .image | .link | .stackRails => s

/-- SENSOR_SAMPLE (R296). -/
def execSensorSample (layer : Nat) (readings : List Reading) (s : State) : Host.Outcome State Fault Refusal :=
  whenWf "SENSOR_SAMPLE" (Instr.wf (.sensorSample layer readings))
    (if s.boot.aux then s.withFatal (fun s => (s.sensorSample layer readings).resumeLimits) else s)

/-- MODEL_UPDATE (R305). -/
def execModelUpdate (intervalUs : Nat) (counts : List (List Nat)) (s : State) : Host.Outcome State Fault Refusal :=
  whenWf "MODEL_UPDATE" (Instr.wf (.modelUpdate intervalUs counts))
    (if s.boot.aux then s.withFatal (fun s => (s.modelUpdate intervalUs counts).resumeLimits) else s)

/-! ### Time (DESIGN CHOICE, log entries 11 and 40) -/

/-- What 10 ns bring on an empty queue: the unit of time, the end of a step 7 that its link came before, and a record write that
R314 has held back. -/
def State.idle (s : State) : State :=
  let s := s.tick.calWriteLater
  match s.boot.run with
  | none => s
  | some r =>
    match r.wait with
    | .image => s.withFatal State.resumeStart
    | .coreRails | .bistLimits | .link | .stackRails => s

/-! ### The flash port (R350) -/

/-- Does a range lie inside one of the regions that R331 lists, taken with the listed ones beside it? -/
def flashListed (a n : Nat) : Bool :=
  ([(0, 0x4000), (0x10000, 0x20000), (0x400000, 0x400000)] : List (Nat × Nat)).any (fun x => x.1 ≤ a && a + n ≤ x.1 + x.2)

/-- Does a range lie inside slots A and B? -/
def inSlots (a n : Nat) : Bool := 0x400000 ≤ a && a + n ≤ 0x800000

/-- Bytes that an operation covers: a page, or a sector. -/
def flashOpLen (op : Nat) : Nat := if op = 3 then 4096 else 256

/-- Is the operation permitted where it is asked? -/
def State.flashMay (s : State) (op a : Nat) : Bool :=
  let n := flashOpLen op
  let free := s.lc = lcBlank || s.lc = lcMfg || s.lc = lcReturned
  flashListed a n && (op = 1 || (s.lc ≠ lcScrapped && (free || inSlots a n)))

def flOk : Nat := 0
def flProtected : Nat := 1
def flAlign : Nat := 2
def flFlashErr : Nat := 3
def flBusy : Nat := 4

/-- A command ends with a result. -/
def State.flashEnds (s : State) (result : Nat) : State :=
  (s.set .bootFlStatusResult result).set .bootFlStatusDone 1

/-- A command with GO = 1: one behind a write of the calibration record waits for it (R350). -/
def State.flashGo (s : State) (op : Nat) : State :=
  let a := s.get .bootFlAddrAddr
  if op = 0 then s
  else if s.flag .bootFlStatusBusy then s.flashEnds flBusy
  else if !s.flashMay op a then s.flashEnds flProtected
  else if op ≠ 1 && a % flashOpLen op ≠ 0 then s.flashEnds flAlign
  else
    let data := if op = 2 then (List.range 64).flatMap (fun w => leBytes 4 (s.get .bootFlBufData w)) else []
    { s.set .bootFlStatusBusy 1 with boot := { s.boot with
      flashOp := some { op, addr := a, data, behind := s.cal.writing.isSome } } }

/-- READ (R350). -/
def execRead (s : State) : Host.Outcome State Fault Refusal := .next (s.blockWrite 0x01 0 (·.flashGo 1))

/-- PROGRAM (R350). -/
def execProgram (s : State) : Host.Outcome State Fault Refusal := .next (s.blockWrite 0x01 0 (·.flashGo 2))

/-- ERASE (R350). -/
def execErase (s : State) : Host.Outcome State Fault Refusal := .next (s.blockWrite 0x01 0 (·.flashGo 3))

/-- The buffer's words from bytes read. -/
def State.flashBuffer (s : State) (bytes : List Byte) : State :=
  (List.range 64).foldl (fun s w => s.set .bootFlBufData (fieldAt bytes (4 * w) 4) w) s

/-- What an operation that succeeds does. -/
def State.flashDoes (s : State) (x : FlashOp) : State :=
  if x.op = 1 then s.flashBuffer (s.flashBytes x.addr 256)
  else if x.op = 2 then s.flashProgram x.addr x.data
  else s.flashErase x.addr 4096

/-- The operation in progress ends; a program or an erase that fails leaves undefined data (a free value). -/
def State.flashDone (s : State) (ok : Bool) : State :=
  match s.boot.flashOp with
  | none => s
  | some x =>
    if x.behind && s.cal.writing.isSome then s else
    let s := if ok then { s.flashDoes x with boot := { s.boot with flashOp := none } } else s.flashCut
    let s := { s with boot := { s.boot with flashOp := none } }
    (s.set .bootFlStatusBusy 0).flashEnds (if ok then flOk else flFlashErr)

/-- FLASH_OP_DONE (R350). -/
def execFlashOpDone (ok : Bool) (s : State) : Host.Outcome State Fault Refusal := .next (s.flashDone ok)

/-- FLASH_OP_TIMEOUT (R350): of an erase or a program. -/
def execFlashOpTimeout (s : State) : Host.Outcome State Fault Refusal :=
  .next (match s.boot.flashOp with
    | some x => if x.op = 1 then s else s.flashDone false
    | none => s)

/-- CLEAR_BAD: both marks and ATTEMPTS (R352). -/
def State.clearBad (s : State) : State :=
  let s := ((s.set .bootBadASeq 0).set .bootBadBSeq 0).set .bootStatusAttempts 0
  { s with boot := { s.boot with marked := [] } }

/-- CLEAR_BAD (R352). -/
def execClearBad (s : State) : Host.Outcome State Fault Refusal := .next (s.blockWrite 0x01 0 State.clearBad)

/-! ### The sideband (R351, R397, R398) -/

/-- A sideband request: answered once step 5 has ended. -/
def State.sideband (s : State) (f : State → List Byte) : State :=
  if s.boot.aux && s.boot.sideband.up then s.emit (.sideband (f s)) else s

/-- Is the flash busy: with a port command, or with the device's own write? -/
def State.flashBusy (s : State) : Bool := s.boot.flashOp.isSome || s.cal.writing.isSome

/-- FLASH_READ's response. -/
def State.flashAnswer (s : State) (addr len : Nat) : List Byte :=
  if len < 1 ∨ 256 < len ∨ !flashListed addr len then [0x01]
  else if s.flashBusy then [0x02]
  else 0x00 :: s.flashBytes addr len

/-- FLASH_READ (R351). -/
def execFlashRead (addr len : Nat) (s : State) : Host.Outcome State Fault Refusal :=
  whenWf "FLASH_READ" (Instr.wf (.flashRead addr len)) (s.sideband (·.flashAnswer addr len))

/-- DYNAMIC_ADDRESS_ASSIGN (R397): in I3C mode. -/
def execDynamicAddressAssign (addr : Nat) (s : State) : Host.Outcome State Fault Refusal :=
  whenWf "DYNAMIC_ADDRESS_ASSIGN" (Instr.wf (.dynamicAddressAssign addr))
    (if s.boot.aux && s.boot.sideband.up && s.boot.sideband.i3c then
      { s with boot := { s.boot with sideband := { s.boot.sideband with dynamic := some addr } } }
    else s)

/-- SIDEBAND_FRAME_ERROR (R398). -/
def execSidebandFrameError (s : State) : Host.Outcome State Fault Refusal :=
  .next (if s.boot.aux && s.boot.sideband.up then s.withFatal (·.report { cls := .c, source := evSbErr }) else s)

end Sys2Proof.Machine
end

