-- ==== Sys2Proof/Machine/Registers.lean ====
section
/-! DEFINITION. Host access to registers by address (R1 to R9, R191 to R194, R385, R387): which fields stand at an offset,
what a read returns and does, what a write stores and starts, and the boundaries of class-B fields. -/

namespace Sys2Proof.Machine

/-! ### Which fields stand at an offset -/

/-- The instance of a row whose register stands at offset `o`. -/
def FieldRow.instAt (r : FieldRow) (o : Nat) : Option (Nat × Nat) :=
  if o < r.off then none
  else
    let d := o - r.off
    let i := if r.si = 0 then 0 else d / r.si
    let e := d - r.si * i
    let j := if r.sj = 0 then 0 else e / r.sj
    if e = r.sj * j ∧ i < r.ni ∧ j < r.nj then some (i, j) else none

/-- The fields that can stand in the block of an offset. -/
def blockFields (o : Nat) : List FN :=
  match o / 65536 with
  | 0x00 => fieldsDev
  | 0x01 => fieldsBoot
  | 0x02 => fieldsOtp
  | 0x03 => fieldsLcs
  | 0x04 => fieldsTarn
  | 0x05 => fieldsPcx
  | 0x06 => fieldsJob
  | 0x08 => fieldsEng
  | 0x0A => fieldsRip
  | 0x0B => fieldsSeal
  | 0x0C => fieldsLake
  | 0x0D => fieldsWeir
  | 0x0E | 0x0F => fieldsDrc0 ++ fieldsDrc1
  | 0x10 => fieldsVlk
  | 0x11 => fieldsInteg0 ++ fieldsInteg1
  | 0x12 => fieldsThm
  | 0x13 => fieldsPwr
  | 0x14 => fieldsCal
  | 0x15 => fieldsFlt
  | 0x16 => fieldsEvt
  | 0x17 => fieldsPmc
  | 0x18 => fieldsBist
  | n => if 0x100 ≤ n ∧ n < 0x140 then fieldsPmc else if 0x200 ≤ n ∧ n < 0x240 then fieldsMsix
         else if 0x400 ≤ n ∧ n < 0x440 then fieldsCfg else []

/-- The block that an offset's register belongs to, for what answers before READY (R195, R347). -/
def blockAt (o : Nat) : Nat :=
  let n := o / 65536
  if n = 0x0F then 0x0E else if n < 0x100 then n else if n < 0x200 then 0x17 else 0x05

/-- The fields of the 32-bit register at offset `o`, with their instance. -/
def fieldsAt (o : Nat) : List (FN × Nat × Nat) :=
  (blockFields o).filterMap (fun f => (f.row.instAt o).map (fun x => (f, x.1, x.2)))

/-- Where a 32-bit register at offset `off` of a function's BAR0 stands in the tables (R193, R387); none where nothing is
assigned (R3). -/
def State.regPlace (s : State) (func off : Nat) : Option Nat :=
  if func = 0 then
    if 0x58000 ≤ off ∧ off < 0x58800 then some (off - 0x58000 + 0x2000000)
    else if 0x59000 ≤ off ∧ off < 0x59010 then some (off - 0x59000 + 0x2000800)
    else if off < 0x1000000 then some off else none
  else if 0x1000 ≤ off ∧ off < 0x3000 then
    (s.ringPair func ((off - 0x1000) / 64)).map (fun q => 0x60000 + 64 * q + off % 64)
  else if 0x3000 ≤ off ∧ off < 0x3100 then some (0xB0000 + 0x100 * func + (off - 0x3000))
  else if 0x4000 ≤ off ∧ off < 0x5000 then some (0x1000000 + 0x1000 * func + (off - 0x4000))
  else if 0xE000 ≤ off ∧ off < 0xE080 then some (0x2000000 + 0x1000 * func + (off - 0xE000))
  else if 0xF000 ≤ off ∧ off < 0xF008 then some (0x2000800 + 0x1000 * func + (off - 0xF000))
  else none

/-- The fields of a register that answers; none before its block does. -/
def State.regFields (s : State) (func off : Nat) : List (FN × Nat × Nat) :=
  match s.regPlace func off with
  | some o => if s.blockOpen (blockAt o) then fieldsAt o else []
  | none => []

/-! ### Reads -/

/-- Events that a ring holds (R246, R249). -/
def State.eventsHeld (s : State) (r : Nat) : Nat := (s.events.entries.filter (·.ring == r)).length

/-- High bits of a count: latched by the last read of CNT_LO, else live (R380). -/
def State.pmcHigh (s : State) (func n : Nat) : Nat :=
  (sparseGet s.counters.hiLatch (pmcLatchKey func n)).getD ((if func = 0 then s.count48 n else s.vfCount48 func n) / 2 ^ 32)

/-- The value that a read of a field returns (R5, R6). -/
def State.readField (s : State) (f : FN) (i j : Nat) : Nat :=
  match f with
  | .evtCountCount => s.eventsHeld i
  | .evtPop0Word0 => ((s.popEvent i).get .evtPop0Word0 i)
  | .devTimerLoTime => s.timer % 2 ^ 32
  | .drcBasinSizeSize => s.basinSize i / 65536
  | .jobStatusAnyReject => b2n ((List.range 256).any (fun q => s.flag .jobRqStatusCfgReject q))
  | .jobStatusAnyDbErr => b2n ((List.range 256).any (fun q => s.flag .jobRqStatusDbErr q))
  | .pmcCntHiCount => s.pmcHigh 0 i
  | .pmcVfCntHiCount => s.pmcHigh i j
  | .pmcVfStatusUserRead => b2n (s.userRead i)
  | .sealEpochHiEpoch => (s.epochHi i).2
  | .calStatusDeferred => b2n s.anyDeferred
  | .jobRqStatusFetchHeld => b2n (s.fetchHeld i)
  | .pcxTagsTagsHeld => s.tagsHeld
  | .lcsMboxBufData => if s.flag .lcsMboxStatusBusy then 0 else s.get f i j
  | _ => if f.row.acc = .wo then 0 else s.get f i j

/-- What a read of a field does (R5, R6): an RC field ends at what hardware presents in the same cycle. -/
def State.readEffect (s : State) (add : Nat) (f : FN) (i j : Nat) : State :=
  match f with
  | .evtPop0Word0 => s.popEvent i
  | .devTimerLoTime => s.readTimerLo
  | .pmcCntLoCount => s.pmcReadLo 0 i add
  | .pcxReplaysCount => (s.set f add).count 0x05 2 0 add
  | .pmcVfCntLoCount => s.pmcReadLo i j add
  | .pmcCntHiCount =>
    { s with counters := { s.counters with hiLatch := sparseDel s.counters.hiLatch (pmcLatchKey 0 i) } }
  | .pmcVfCntHiCount =>
    { s with counters := { s.counters with hiLatch := sparseDel s.counters.hiLatch (pmcLatchKey i j) } }
  | .sealEpochLoEpoch => s.epochLatch i
  | .sealEpochHiEpoch => (s.epochHi i).1
  | _ => if f.row.acc = .rc then s.set f (bits add f.row.msb f.row.lsb) i j else s

/-- The 32 bits of a register. -/
def State.readWord (s : State) (fs : List (FN × Nat × Nat)) : Nat :=
  (fs.map (fun x => s.readField x.1 x.2.1 x.2.2 * 2 ^ x.1.row.lsb)).foldl (· + ·) 0

/-- A 32-bit read of the register at `off`: its value and what the read does. -/
def State.readReg (s : State) (func off add : Nat) : State × Nat :=
  let fs := s.regFields func off
  (fs.foldl (fun s x => s.readEffect add x.1 x.2.1 x.2.2) s, s.readWord fs)

/-- A read of `len` bytes of BAR0 at `off`, inside 8 aligned bytes (R2): each register that it touches is read whole, low
word first, and the addressed bytes are returned. A read of no byte touches none. -/
def State.bar0Read (s : State) (func off len add add2 : Nat) : State :=
  let o := off % 4
  if len = 0 then s.reply (.data func [])
  else
  let (s, lo) := s.readReg func (off - o) add
  if o + len ≤ 4 then s.reply (.data func (sliceBytes (leBytes 4 lo) o len))
  else
    let (s, hi) := s.readReg func (off - o + 4) add2
    s.reply (.data func (sliceBytes (leBytes 4 lo ++ leBytes 4 hi) o len))

/-- First byte of a function's plan slots in BAR4, and their number (R60). -/
def planBase (func : Nat) : Nat := if func = 0 then 0x80000 else 0x8000
def planSlots (func : Nat) : Nat := if func = 0 then 128 else 8

/-- The slot and the offset in it that a BAR4 offset names. -/
def slotPlace (func off : Nat) : Option (Nat × Nat) :=
  if planBase func ≤ off ∧ off < planBase func + 4096 * planSlots func then
    some ((off - planBase func) / 4096, (off - planBase func) % 4096)
  else none

/-- A read of BAR4 (R60, R61, R68): doorbells and what is not listed read 0. -/
def State.bar4Read (s : State) (func off len latency : Nat) : State :=
  match slotPlace func off with
  | some (slot, o) => s.planSlotRead func slot o len latency
  | none => s.reply (.data func (zeros len))

/-! ### Writes -/

/-- The bits of a VF's BAR2 that its size leaves writable (R192): none where it is not implemented. -/
def State.vfBar2Mask (s : State) : Nat :=
  let z := s.bar2Log2 1
  if z = 0 then 0 else 2 ^ 64 - 2 ^ z

/-- Is the field class S? -/
def FN.static (f : FN) : Bool := f.row.acc = .rwS

/-- Is the block of a class-S field instance enabled (R9, R73, R150, R225)? -/
def State.staticHeld (s : State) (f : FN) (i : Nat) : Bool :=
  match f.row.off / 65536 with
  | 0x06 => s.flag .jobRqCtrlEn i
  | 0x0B => s.logOn i
  | _ => s.eff .drcBasinCfgEn i == 1

/-- Is a value outside the range of a class-S field (R73, R150)? -/
def State.staticRange (s : State) (f : FN) (i x : Nat) : Bool :=
  match f with
  | .jobRqCfgHomePond => 5 < x
  | .jobRqIrqVector => s.ringFunc i ≠ 0 && 7 < x
  | .sealLogCfgVector => i ≠ 0 && 7 < x
  | .sealLogCfgLog2size => x < 6 || 16 < x
  | _ => false

/-- Is the write of `v` to a register's class-S fields rejected (R9)? -/
def State.staticReject (s : State) (fs : List (FN × Nat × Nat)) (v : Nat) : Bool :=
  fs.any (fun x =>
    let f := x.1
    let y := bits v f.row.msb f.row.lsb
    f.static && (if s.staticHeld f x.2.1 then s.get f x.2.1 x.2.2 != y else s.staticRange f x.2.1 y))

/-- CFG_REJECT and its event of the block of a field (R9). -/
def State.staticReport (s : State) (f : FN) (i : Nat) : State :=
  match f.row.off / 65536 with
  | 0x06 => s.ringReject i
  | 0x0B => (s.set .sealStatusCfgReject 1 i).raise evSealCfgReject i
  | _ => (s.set .drcStatusCfgReject 1).raise evDrcCfgReject 0xFF i

/-- A group whose GUAR or G_RATE is written waits for the next boundary's admission (R266). -/
def State.pendAdmission (s : State) (g : Nat) : State :=
  if s.weirs.pendAdmit.contains g then s
  else { s with weirs := { s.weirs with pendAdmit := s.weirs.pendAdmit ++ [g] } }

/-- GO of the mailbox (R165): the command in the buffer starts. -/
def State.mboxWriteGo (s : State) : State :=
  let b := s.mboxBytes
  let input := sliceBytes (b.drop 4) 0 (fieldAt b 2 2)
  let cmd := fieldAt b 0 1
  s.mboxGo cmd input (fun s => s.mboxStart cmd input { auxOk := true, failBit := none, margins := [] })

/-- SEL of a VF counter (R381): INST is stored as the VF; an event that is not function-scoped is not enabled. -/
def State.vfSelect (s : State) (v j w : Nat) : State :=
  let e := w % 65536 / 128 * 128 + v
  let own := pmcScoped (e / 1024) (e / 128 % 8)
  let s := (s.set .pmcVfSelEvent e v j).set .pmcVfSelEn (if own then bits w 16 16 else 0) v j
  if own then s else s.set .pmcVfStatusSelReject 1 v

/-- Masks of pending vectors are looked at again once MSI-X Enable or Function Mask is written (R204). -/
def State.msixRescan (s : State) (func : Nat) : State := (List.range 128).foldl (fun s v => s.msixPending func v) s

/-- A write of PowerState (R187, R191): D0 and D3hot only. -/
def State.powerState (s : State) (x : Nat) : State := if x = 3 then s.d3hotEntry else if x = 0 then s.d0Return else s

/-- TotalVFs and InitialVFs (R192); none before an image is in force. -/
def State.totalVfs (s : State) : Nat :=
  let image := if s.get .bootStatusStep < 8 && !s.ready then 0 else s.vfCount
  if s.flag .cfgAriHier then image else min image 7

/-- NumVFs (R192): written only while VF Enable is 0, with at most TotalVFs. -/
def State.writeNumVfs (s : State) (x : Nat) : State :=
  if s.flag .cfgVfEnable || s.totalVfs < x then s else s.set .cfgNumVfs x

/-- A write of the 32-bit value `v` to one field of a register (R5, R7, R8), with what the field's own rule adds. `hwSet`:
the bits of the register that hardware sets in the same cycle; an RW1C bit among them ends set (R6). -/
def State.writeField (s : State) (func v hwSet : Nat) (f : FN) (i j : Nat) : State :=
  let x := bits v f.row.msb f.row.lsb
  let hw := bits hwSet f.row.msb f.row.lsb
  match f with
  | .jobRqCtrlEn => s.ringEnable func i (x = 1)
  | .jobRqCtrlReset => if x = 1 then s.ringReset func i else s
  | .jobRqCtrlDropInt => if x = 1 then s.ringDropInt func i else s
  | .jobRqCancelGo => s.cancelWrite func i v
  | .engCtrlOfflineReq => s.offlineReq i (x = 1)
  | .engCtrlSelftest => if x = 1 then s.selftestReq i else s
  | .sealEpochLoEpoch => s.setSeal i { s.seal i with staged := x }
  | .sealEpochHiEpoch => s.epochCommit i x
  | .sealLogHeadHead => s.logHead i x
  | .lcsMboxCtrlGo => if x = 1 then s.mboxWriteGo else s
  | .drcBasinCfgEn => s.basinEnWrite i (x = 1)
  | .lakeCtrlFlush => if x = 1 then s.startFlush else s
  | .weirGrpCfgGuar | .weirGrpRateGRate => (s.setB f x i).pendAdmission i
  | .weirGrpCfgQmin | .weirGrpCfgQmax => (s.set f (s.storedAs f i x) i).admitWaiting
  | .weirGrpLatLatTarget =>
    { (s.set f x i).set .weirGrpLatavgAvg 0 i with weirs := { s.weirs with avg := assocDel s.weirs.avg i } }
  | .vlkShiftReqGo => s.shiftReq v
  | .integCeLocValid =>
    if x = 1 then (if hw = 1 then s.set f 1 i else (s.set f 0 i).set .integStatusCeFull 0) else s.set f (s.get f i ||| hw) i
  | .integDrCtrlGo => if x = 1 then s.dredgeGo else s
  | .integDrCtrlStop => if x = 1 then s.dredgeStop else s
  | .integDrEveryEvery => s.everyWrite x
  | .integRetCmdGo => s.retCmd v true
  | .thmCtrlResume => if x = 1 then s.resume else s
  | .thmLogicThWarn => s.writeTh false false (bits v 7 0) (bits v 15 8) (bits v 23 16) (bits v 26 24)
  | .thmDramThWarn => s.writeTh true false (bits v 7 0) (bits v 15 8) (bits v 23 16) (bits v 26 24)
  | .thmLogicThThrottle | .thmLogicThShutdown | .thmLogicThHyst | .thmDramThThrottle | .thmDramThShutdown
  | .thmDramThHyst => s
  | .pwrDomOffReq => s.offReq i (x = 1)
  | .calCtrlForce => if x = 1 then s.calForce else s
  | .fltReleaseN => s.fltRelease x
  | .fltInjectGo => s.withFatal (·.fltInject v)
  | .bootCtrlClearBad => if x = 1 then s.clearBad else s
  | .bootFlCmdGo => if x = 1 then s.flashGo (bits v 1 0) else s
  | .bistCtrlAbort => if x = 1 then s.bistAbort else s
  | .pmcSelClear => if x = 1 then s.pmcClearOne 0 i 0 else s
  | .pmcCtrlClearAll => if x = 1 then s.pmcClearAll [] else s
  | .pmcUserReadLoMask => s.set f (x - x % 2)
  | .pmcVfSelEvent => s.vfSelect i j v
  | .pmcVfSelEn => s
  | .pmcVfSelClear => if x = 1 then s.pmcClearOne i j 0 else s
  | .msixMask => s.msixSetMask i j (x = 1)
  | .cfgBme => s.busMaster i (x = 1)
  | .cfgPmState => s.powerState x
  | .cfgFlr => if x = 1 then s.flr i else s
  | .cfgRetrain => if x = 1 && s.flag .pcxLinkStatusDlUp && s.get .pcxLinkStatusLtssm == ltssmL0 then s.recovery else s
  | .cfgVfBar2Lo => s.set f (x &&& (s.vfBar2Mask % 2 ^ 32 / 2 ^ 30))
  | .cfgVfBar2Hi => s.set f (x &&& (s.vfBar2Mask / 2 ^ 32))
  | .cfgDoeAbort => if x = 1 then s.doeAbort else s
  | .cfgDoeGo => if x = 1 then s.doeGo else s
  | .cfgDoeWrite => s.doeWrite x
  | .cfgDoeRead => s.doeNext
  | .cfgMsixEn | .cfgMsixFuncMask => (s.set f x i).msixRescan i
  | .cfgVfEnable => s.vfEnable (x = 1)
  | .cfgVfMse => (rangeWith 64 (· ≠ 0)).foldl (fun s v => s.set .cfgMse x v) (s.set f x)
  | .cfgNumVfs => s.writeNumVfs x
  | _ =>
    match f.row.acc with
    | .ro | .rc | .wo => s
    | .rwL | .rwS => s.set f (s.storedAs f i x) i j
    | .rwB => s.setB f (s.storedAs f i x) i j
    | .rw1c => s.set f ((s.get f i j - (s.get f i j &&& x)) ||| hw) i j

/-- The fields that a function's write reaches: its own ring contexts, but EN of any ring for PF0 (R72); its own SEAL page
(R150); no register of the journal basin (R225); no VF counter page under USER_READ (R382); no mailbox buffer while a
command runs (R165). -/
def State.mayWrite (s : State) (func : Nat) (x : FN × Nat × Nat) : Bool :=
  let (f, i, _) := x
  match blockAt f.row.off with
  | 0x06 => s.ringOwn func i || (func == 0 && f == .jobRqCtrlEn)
  | 0x0B => i == func
  | 0x0E => f.row.off < 0xF0000 || 0xF0800 ≤ f.row.off || !s.flag .drcBasinCfgJournal i
  | 0x17 => func == 0 || !s.userRead func
  | 0x03 => f != .lcsMboxBufData || !s.flag .lcsMboxStatusBusy
  | _ => true

/-- The order in which a register's fields take a write: class-S fields before a basin's EN, which is checked against them
(R212); WR_LO before WR_HI, which is held above it (R226). -/
def writeOrder (fs : List (FN × Nat × Nat)) : List (FN × Nat × Nat) :=
  match fs.head? with
  | some (.drcBasinCfgEn, _, _) | some (.drcWrqWrHi, _, _) => fs.reverse
  | _ => fs

/-- A 32-bit write to the register at `off` (R5, R7, R9). The fields take it from the register's lowest bit up, so a write of
JOB_RQ_CTRL that changes EN and sets RESET or DROP_INT applies EN first (DESIGN CHOICE, log entry 63). -/
def State.writeReg (s : State) (func off v hwSet : Nat) : State :=
  let fs := (writeOrder (s.regFields func off)).filter (s.mayWrite func)
  let reject := s.staticReject fs v
  let s := if reject then
    match fs.find? (·.1.static) with
    | some x => s.staticReport x.1 x.2.1
    | none => s
    else s
  (fs.filter (fun x => !(reject && x.1.static))).foldl (fun s x => s.writeField func v hwSet x.1 x.2.1 x.2.2) s

/-- A BAR0 write that does not carry all four bytes of every register it touches (R2). -/
def State.narrowWrite (s : State) : State := (s.set .devStatusNarrowWr 1).raise evDevNarrowWr

/-- The 32-bit words that a write of `n` bytes at `off` touches, with whether it carries all of each. -/
def touchedWords (off n : Nat) : List (Nat × Bool) :=
  let lo := off - off % 4
  ((List.range 3).map (fun k => lo + 4 * k)).filterMap (fun w =>
    if off < w + 4 ∧ w < off + n then some (w, decide (off ≤ w ∧ w + 4 ≤ off + n)) else none)

/-- A write to BAR0 (R2): performed word by word, low word first, or discarded as a whole. `hwSet` gives the bits that hardware
sets in the first word in its low 32 bits, those in the second above them. -/
def State.bar0Write (s : State) (func off : Nat) (bytes : List Byte) (hwSet : Nat) : State :=
  let ws := touchedWords off bytes.length
  if ws.any (fun w => !w.2 && !(s.regFields func w.1).isEmpty) then s.narrowWrite
  else (ws.filter (·.2)).foldl (fun s w => s.writeReg func w.1 (fieldAt bytes (w.1 - off) 4)
    (if w.1 ≤ off then hwSet % 2 ^ 32 else hwSet / 2 ^ 32)) s

/-! ### Configuration space (R191 to R196) -/

/-- Has a VF the capability of a configuration register (R191): Command, the PCI Express capability without its Link
registers, MSI-X and AER? -/
def vfConfig (off : Nat) : Bool :=
  off = 0x004 || off = 0x058 || off = 0x078 || off = 0x0B0 || (0x100 ≤ off && off < 0x150)

/-- The fields of a configuration register. -/
def configFields (func reg : Nat) : List (FN × Nat × Nat) :=
  if func = 0 || vfConfig reg then fieldsAt (0x4000000 + 0x1000 * func + reg) else []

/-- Header of an extended capability (R191): ID, version 1, the next one's offset. -/
def extCap (id next : Nat) : Nat := id + 2 ^ 16 + next * 2 ^ 20

/-- The Device Serial Number (R190); 0 where the identity region is invalid (R359). -/
def State.serial (s : State) : Nat := if s.flag .otpRegionValid 0 then leNat (s.shadowBytes 0x050 8) else 0

/-- Is a device-initiated read of a function outstanding? -/
def State.readsOpen (s : State) (func : Nat) : Bool := s.pcie.tags.any (·.func == func)

/-- What a register that PF0 and the VFs have at the same offset reads beside its fields (R191): PCI Express, AER, ARI. -/
def State.configShared (s : State) (func reg : Nat) : Nat :=
  match reg with
  | 0x050 => 0x8002B010                               -- Flit Mode Supported (R176)
  | 0x054 => 0x10008022                               -- Max_Payload_Size Supported 512, extended tag, FLR (R176)
  | 0x058 => b2n (s.readsOpen func) * 2 ^ 21           -- Transactions Pending
  | 0x074 => 0x0003001F                               -- Completion Timeout ranges A to D and disable, 10-bit tags
  | 0x118 => 0x000000A0                               -- ECRC generation and check capable
  | _ => 0

/-- What a register of PF0's configuration space reads beside its fields (R190 to R193, R207); layouts inside a capability are
the base specification's (PRESUMED, log entry 62). -/
def State.configPf (s : State) (reg : Nat) : Nat :=
  let id := s.pcie.identity
  match reg with
  | 0x000 => fieldAt id 0 4
  | 0x004 => 0x00100000
  | 0x008 => fieldAt id 8 1 + 0x120000 * 2 ^ 8
  | 0x010 => 0x4
  | 0x018 => 0xC
  | 0x020 => 0x4
  | 0x02C => fieldAt id 4 4
  | 0x034 => 0x40
  | 0x040 => 0x00035001
  | 0x044 => 0x8
  | 0x05C => 6 + 16 * 2 ^ 4 + 2 * 2 ^ 10 + 3 * 2 ^ 15 + 2 ^ 22   -- 64.0 GT/s, x16, ASPM L1, L1 Exit Latency 0b011 (R186)
  | 0x060 => s.get .pcxLinkStatusRate * 2 ^ 16 + s.get .pcxLinkStatusWidth * 2 ^ 20
  | 0x07C => 0x7E + 3 * 2 ^ 23
  | 0x0B0 => 0x007F0011
  | 0x0B4 => 0x00058000
  | 0x0B8 => 0x00059000
  | 0x100 => extCap 0x0001 0x150
  | 0x150 => extCap 0x0003 0x160
  | 0x154 => s.serial % 2 ^ 32
  | 0x158 => s.serial / 2 ^ 32
  | 0x160 => extCap 0x000E 0x170
  | 0x170 => extCap 0x0010 0x1B0
  | 0x17C => s.totalVfs + s.totalVfs * 2 ^ 16
  | 0x184 => 1 + 2 ^ 16
  | 0x188 => fieldAt id 10 2 * 2 ^ 16
  | 0x18C => 0x1F
  | 0x194 => 0x4
  | 0x19C => if s.bar2Log2 1 = 0 then 0 else 0xC
  | 0x1A4 => 0x4
  | 0x1B0 => extCap 0x0019 0x1E0
  | 0x1E0 => extCap 0x0025 0x1F0
  | 0x1E4 => 1 + 2 ^ 31
  | 0x1F0 => extCap 0x0022 0x200
  | 0x1F4 => (48 + 4 * 2 ^ 9) + (29 + 4 * 2 ^ 9) * 2 ^ 12 + 2 ^ 31  -- Reset 50 ms, DL_Up 30 ms
  | 0x1F8 => (31 + 3 * 2 ^ 9) + (10 + 4 * 2 ^ 9) * 2 ^ 12          -- FLR 1 ms, D3hot to D0 10 ms
  | 0x200 => extCap 0x0026 0x240
  | 0x240 => extCap 0x0027 0x290
  | 0x290 => extCap 0x002A 0x2D0
  | 0x294 => 0x3                                      -- Equalization Bypass, No Equalization Needed (R176)
  | 0x2D0 => extCap 0x0031 0x300
  | 0x300 => extCap 0x002F 0x310
  | 0x304 => 0xE                                      -- 14-bit tags, Receiver L0p
  | 0x310 => extCap 0x002E 0x340
  | 0x324 => s.pcie.doeOut.headD 0
  | 0x340 => extCap 0x0030 0
  | 0x344 => 2 + 2 ^ 5 + 2 ^ 6 + 7 * 2 ^ 16           -- selective streams only, PCRC, IDE_KM, AES-GCM-256, 8 streams
  | _ =>
    if 0x34C ≤ reg ∧ reg < 0x34C + 8 * 0x2C then
      let n := (reg - 0x34C) / 0x2C
      match (reg - 0x34C) % 0x2C with
      | 0 => 2                                        -- two address association blocks
      | 8 => if (s.stream n).secure then 2 else 0
      | _ => 0
    else s.configShared 0 reg

/-- What a register of a VF's configuration space reads beside its fields (R191, R192). -/
def State.configVf (s : State) (func reg : Nat) : Nat :=
  match reg with
  | 0x000 => 0xFFFFFFFF
  | 0x004 => 0x00100000
  | 0x008 => fieldAt s.pcie.identity 8 1 + 0x120000 * 2 ^ 8
  | 0x02C => fieldAt s.pcie.identity 4 4
  | 0x034 => 0x50
  | 0x0B0 => 0x00070011
  | 0x0B4 => 0x0000E000
  | 0x0B8 => 0x0000F000
  | 0x100 => extCap 0x0001 0x160
  | 0x160 => extCap 0x000E 0
  | _ => s.configShared func reg

/-- A 32-bit register of a function's configuration space. -/
def State.configWord (s : State) (func reg : Nat) : Nat :=
  (if func = 0 then s.configPf reg else s.configVf func reg) + s.readWord (configFields func reg)

/-- Where a configuration request is answered: with Retry Status before the identity is in place (R195), as Unsupported where
the function does not exist or the request lies in more than one register, otherwise by `f`. -/
def State.configRequest (s : State) (func off len : Nat) (f : State → State) : State :=
  if !s.dlUp then s
  else if s.retrying then s.reply (.retry func)
  else if !s.funcExists func || 4 < off % 4 + len then s.respondUr func true
  else f s

/-- A configuration read (R191, R195). -/
def State.configRead (s : State) (func off len : Nat) : State :=
  s.configRequest func off len (fun s =>
    s.reply (.data func (sliceBytes (leBytes 4 (s.configWord func (off - off % 4))) (off % 4) len)))

/-- A 64-bit read at a counter's CNT_LO (R380), which stands at 4 modulo 8: it is performed, low word first, though R2 asks for
an 8-byte-aligned offset (DEDUCED, log entry 67). -/
def State.countPair (s : State) (func off len : Nat) : Bool :=
  len == 8 && off % 4 == 0 &&
    (s.regFields func off).any (fun x => decide (x.1 = .pmcCntLoCount ∨ x.1 = .pmcVfCntLoCount))

/-- A read request's space and limits (R2, R191, R194). -/
def State.hostRead (s : State) (space : Space) (func off len add add2 : Nat) : State :=
  match space with
  | .bar0 =>
    if 8 < off % 8 + len && !s.countPair func off len then s.respondUr func true
    else s.barRead func (·.bar0Read func off len add add2)
  | .bar4 => if 64 < off % 64 + len then s.respondUr func true else s.barRead func (·.bar4Read func off len add)
  | .config => s.configRead func off len

/-- RC_READ (R2, R5, R6): any read of BAR0, BAR4 or configuration space. -/
def execRcRead (func off : Nat) (read : ReadIn) (s : State) : Host.Outcome State Fault Refusal :=
  whenWf "RC_READ" (Instr.wf (.rcRead func off read))
    (s.tlpGuard func true read.tlp (·.hostRead read.space func off read.len read.add read.add2))

/-- A configuration write inside one register: bytes not written keep what they hold; a bit that acts on 1 takes 0. -/
def State.configWrite (s : State) (func off : Nat) (bytes : List Byte) (hwSet : Nat) : State :=
  let reg := off - off % 4
  let fs := configFields func reg
  let given := leNat bytes * 2 ^ (8 * (off % 4))
  let mask := (2 ^ (8 * bytes.length) - 1) * 2 ^ (8 * (off % 4))
  let old := s.readWord fs
  let v := old - (old &&& mask) + given
  fs.foldl (fun s x =>
    let r := x.1.row
    if bits mask r.msb r.lsb = 0 then s
    else s.writeField func (if r.acc = .rw1c ∨ r.acc = .wo then given else v) hwSet x.1 x.2.1 x.2.2) s

/-- A write to a ring's doorbell (R68): word 0, then word 1; a write narrower than 32 bits, or that holds a word in part, is
discarded. -/
def State.doorbellWrite (s : State) (func off : Nat) (bytes : List Byte) : State :=
  if off % 4 ≠ 0 || bytes.length % 4 ≠ 0 then s
  else (List.range (bytes.length / 4)).foldl (fun s k =>
    let o := off + 4 * k
    let v := fieldAt bytes (4 * k) 4
    s.doorbell func (o / 8) (fun s q => if o % 8 = 0 then s.sqTail (v % 65536) q else s.cqHead (v % 65536) q)) s

/-- A write to BAR4 (R60, R68); what is not listed discards it. -/
def State.bar4Write (s : State) (func off : Nat) (bytes : List Byte) : State :=
  match slotPlace func off with
  | some (slot, o) => s.planWrite func slot o bytes
  | none => if off < 8 * 256 then s.doorbellWrite func off bytes else s

/-- REGISTER_WRITE (R2 to R9, R60, R68, R191 to R195). A BAR write of more than 8 bytes, or across an 8-byte boundary, is an
Unsupported Request; a configuration write lies inside one register; a poisoned write is discarded (R205). -/
def State.registerWrite (s : State) (space : Space) (func off : Nat) (bytes : List Byte) (poisoned : Bool) (hwSet : Nat) :
    State :=
  match space with
  | .bar0 =>
    if 8 < off % 8 + bytes.length then s.respondUr func false
    else s.barWrite func (·.unlessPoisoned func poisoned (·.bar0Write func off bytes hwSet)) bytes.length
  | .bar4 =>
    if 8 < off % 8 + bytes.length then s.respondUr func false
    else s.barWrite func (·.unlessPoisoned func poisoned (·.bar4Write func off bytes)) bytes.length
  | .config =>
    s.configRequest func off bytes.length (fun s =>
      ((s.received bytes.length).unlessPoisoned func poisoned (·.configWrite func off bytes hwSet)).reply (.written func))

/-- REGISTER_WRITE. -/
def execRegisterWrite (space : Space) (func off : Nat) (bytes : List Byte) (arrives : WriteIn) (s : State) :
    Host.Outcome State Fault Refusal :=
  whenWf "REGISTER_WRITE" (Instr.wf (.registerWrite space func off bytes arrives))
    (s.tlpGuard func (decide (space = .config)) arrives.tlp
      (·.registerWrite space func off bytes (decide (arrives.tlp = .poisoned)) arrives.hwSet))

/-! ### Class-B boundaries (R7, R8) -/

/-- The boundary of one class-B field passes, by the field's own rule where it has one: WINDOW_US changes at the end of its own
window alone (R383). -/
def State.boundaryField (s : State) (f : FN) (i j : Nat) : State :=
  match f with
  | .drcBasinCfgEn => s.basinEffect i
  | .sealLogCfgLogEn => s.logEnEffect i
  | .weirGrpCfgGuar | .weirGrpRateGRate => s.admitPending
  | .pmcBwCfgWindowUs => s
  | _ => s.applyB f i j

/-- BOUNDARY_APPLY (R7, R8). -/
def execBoundaryApply (off : Nat) (s : State) : Host.Outcome State Fault Refusal :=
  whenWf "BOUNDARY_APPLY" (Instr.wf (.boundaryApply off))
    (((fieldsAt off).filter (fun x => x.1.row.acc = .rwB)).foldl (fun s x => s.boundaryField x.1 x.2.1 x.2.2) s)

/-! ### Register reads over the sideband (R398) -/

/-- The blocks that REG_READ reaches: BOOT, LCS, PCX, THM, PWR, FLT. -/
def sidebandBlocks : List Nat := [0x01, 0x03, 0x05, 0x12, 0x13, 0x15]

/-- REG_READ's response: the register's value, without the side effects of a read. R351 gives it the LCS block and R165 keeps
the mailbox from the sideband: the mailbox's registers are answered like the block's others (DESIGN CHOICE, log entry 67). -/
def State.regAnswer (s : State) (off : Nat) : List Byte :=
  let word (o : Nat) : Nat := s.readWord (((s.regPlace 0 o).map fieldsAt).getD [])
  let a := off - off % 4
  if sidebandBlocks.contains (off / 65536) then
    0x00 :: leBytes 4 ((word a + word (a + 4) * 2 ^ 32) / 2 ^ (8 * (off % 4)) % 2 ^ 32)
  else [0x01]

/-- REG_READ (R351). -/
def execRegRead (off : Nat) (s : State) : Host.Outcome State Fault Refusal := .next (s.sideband (·.regAnswer off))

end Sys2Proof.Machine
end

