-- ==== Sys2Proof/Machine/Windows.lean ====
section
/-! DEFINITION. Eddy windows (R236 to R238), Pack queues' flushes (R242), and line requests that reach their slice, with what
a failed parity check of their word does to its unit (R229, R243). -/

namespace Sys2Proof.Machine

/-! ### Eddy windows -/

/-- Misuse of a window is an internal error of the engine (R238). R120 lists no LAST_CAUSE code for it: the code is a free
value (log entry 25). -/
def State.windowError (s : State) (e : Nat) : State :=
  let (s, b) := s.draw 1
  s.fenceEngine e ((b.headD 0).toNat % 8)

/-- Accesses stalled at a window that can now go on are performed (R238). -/
def State.retryStalls (s : State) (e w : Nat) : State :=
  let x := s.eddy e w
  let go (st : Stall) : Bool := st.engine == e && st.window == w && match st.write with
    | none => st.offset + st.len ≤ x.fill
    | some _ => x.fill + st.offset + st.len ≤ x.len
  let ready := s.stalls.filter go
  let s := { s with stalls := s.stalls.filter (fun st => !go st) }
  ready.foldl (fun s st =>
    if !st.parityOk then s.fenceEngine e (engineErrorCode .scratchParity)
    else match st.write with
      | none => s.setEddy e w { x with delivered := s.scratchRead e x (x.head + st.offset) st.len }
      | some bytes => s.scratchWriteGo e x (x.tail + st.offset) bytes) s

/-- BASE, LEN and EN of a window are written (R236, R238). BASE and LEN are written with EN 1, and with EN 0 where they
change: an error while EN is 1. -/
def State.eddyEnable (s : State) (e w base len : Nat) (en : Bool) : State :=
  let x := s.eddy e w
  let y := { x with base := eddyBase base, len := eddyLen len, en }
  if x.en && (en || x.base ≠ y.base || x.len ≠ y.len) then s.windowError e
  else
    let others := (List.range 4).filter (fun v => v ≠ w && (s.eddy e v).en)
    let s' := s.setEddy e w y
    if en && others.any (fun v => y.meets (s.eddy e v)) then s'.windowError e else s'

/-- EDDY_ENABLE (R236). -/
def execEddyEnable (engine window base len : Nat) (en : Bool) (s : State) : Host.Outcome State Fault Refusal :=
  whenWf "EDDY_ENABLE" (Instr.wf (.eddyEnable engine window base len en)) (s.eddyEnable engine window base len en)

/-- An access through an enabled window (R237, R238). A scratch parity error during it is an internal error (R102). -/
def State.eddyAccess (s : State) (e w offset len : Nat) (write : Option (List Byte)) (parityOk : Bool) : State :=
  let x := s.eddy e w
  if !x.en then s
  else match write with
    | none =>
      if x.fill < offset + len then
        { s with stalls := s.stalls ++ [{ engine := e, window := w, offset, len, write := none, parityOk }] }
      else if !parityOk then s.fenceEngine e (engineErrorCode .scratchParity)
      else s.setEddy e w { x with delivered := s.scratchRead e x (x.head + offset) len }
    | some bytes =>
      if x.len < x.fill + offset + bytes.length then
        { s with stalls := s.stalls ++ [{ engine := e, window := w, offset, len := bytes.length, write := some bytes, parityOk }] }
      else if !parityOk then s.fenceEngine e (engineErrorCode .scratchParity)
      else s.scratchWriteGo e x (x.tail + offset) bytes

/-- EDDY_ACCESS (R237). -/
def execEddyAccess (engine window offset len : Nat) (write : Option (List Byte)) (parityOk : Bool) (s : State) :
    Host.Outcome State Fault Refusal :=
  whenWf "EDDY_ACCESS" (Instr.wf (.eddyAccess engine window offset len write parityOk))
    (s.eddyAccess engine window offset len write parityOk)

/-- CONSUME n (R237, R238). -/
def State.eddyConsume (s : State) (e w n : Nat) : State :=
  let x := s.eddy e w
  if !x.en then s
  else if x.fill < n then s.windowError e
  else
    let (p, wrap) := advance x.head x.hwrap n x.len
    (s.setEddy e w { x with head := p, hwrap := wrap }).retryStalls e w

/-- CONSUME (R237). -/
def execConsume (engine window n : Nat) (s : State) : Host.Outcome State Fault Refusal :=
  whenWf "CONSUME" (Instr.wf (.consume engine window n)) (s.eddyConsume engine window n)

/-- COMMIT n (R237, R238). -/
def State.eddyCommit (s : State) (e w n : Nat) : State :=
  let x := s.eddy e w
  if !x.en then s
  else if x.len < x.fill + n then s.windowError e
  else
    let (p, wrap) := advance x.tail x.twrap n x.len
    (s.setEddy e w { x with tail := p, twrap := wrap }).retryStalls e w

/-- COMMIT (R237). -/
def execCommit (engine window n : Nat) (s : State) : Host.Outcome State Fault Refusal :=
  whenWf "COMMIT" (Instr.wf (.commit engine window n)) (s.eddyCommit engine window n)

/-- CLEAR of a window (R236). -/
def State.eddyClear (s : State) (e w : Nat) : State :=
  s.setEddy e w { s.eddy e w with head := 0, tail := 0, hwrap := false, twrap := false }

/-- CLEAR (R236). -/
def execClear (engine window : Nat) (s : State) : Host.Outcome State Fault Refusal :=
  whenWf "CLEAR" (Instr.wf (.clear engine window)) (s.eddyClear engine window)

/-! ### Pack queues -/

/-- A flush request (R242): its boundary is the end of the packets produced so far; later packets are held behind it. -/
def State.packFlush (s : State) (q : Nat) : State :=
  let x := s.pack q
  if x.flush then s else s.setPack { x with flush := true, boundary := x.nextId }

/-- PACK_FLUSH_REQUEST (R242). -/
def execPackFlushRequest (queue : Nat) (s : State) : Host.Outcome State Fault Refusal := .next (s.packFlush queue)

/-- Every word up to the boundary has been accepted: the flush completes and the held writes proceed (R242). -/
def State.packFlushDone (s : State) (q : Nat) : State :=
  let x := s.pack q
  if x.flush && (s.packWords q (fun k => k < x.boundary)).isEmpty then (s.setPack { x with flush := false }).packPump q
  else s

/-- PACK_FLUSH_DONE (R242). -/
def execPackFlushDone (queue : Nat) (s : State) : Host.Outcome State Fault Refusal := .next (s.packFlushDone queue)

/-! ### Line requests at the Lake (R229 to R234, R243) -/

/-- The group of a port's request (R253): BIST and the security controller act for SYS, Dredge for PF0 or SYS, every other port
for a function or, on the PCIe DMA port, for the journal. -/
def lakeGroup (port group : Nat) : Nat :=
  if port < 55 then min group 63 else if port = 55 then min group 64 else if port = 56 ∧ group = 0 then 0 else 64

/-- A line request reaches its slice (R229). Writes of the BAR2 port are deferred, all others durable (R230); a read of the
BAR2 port, and a key-material fetch, are RT (R251). -/
def State.lakeArrive (s : State) (port group p a : Nat) (access : LakeAccess) : State :=
  let r : PortReq := { port, group := lakeGroup port group, rt := false, units := 1, pc := p, a, op := .read }
  match access with
  | .read => s.present { r with rt := port == 54 || group == 65 }
  | .write bytes poison => s.present { r with op := .write bytes poison (port ≠ 54) }

/-- A word of a packet that is written with a poison tag: its unit fails with HOST_DMA_ERROR or PEER_DMA_ERROR, by its source
(R243). It is the word that stood in the queue. -/
def State.wordFailed (s : State) (port p a : Nat) : State :=
  let word := s.inFlight.find? (fun r => r.port == port && r.packet.isSome && r.pc == p && r.a / 128 == a / 128)
  let packet := word.bind (fun r => (s.pack port).packets.find? (fun x => some x.id == r.packet))
  let s := match word with
    | none => s
    | some r => State.packAccepted
      { s with
        lake := { s.lake with held := s.lake.held.erase r }
        weirs := { s.weirs with queue := s.weirs.queue.erase r }
        packs := s.packs.map (fun x => { x with held := x.held.erase r }) } r
  match packet with
  | none => s
  | some x =>
    match s.findJob x.ring x.slot with
    | none => s
    | some j =>
      if j.gen ≠ x.gen then s
      else
        let (s, j) := s.failUnit j x.unit (if x.peer then .peerDmaError else .hostDmaError) noShard
        s.putJob j

/-- A line request (R229); an engine's port is closed to new ones from its fence until it has rejoined (R111), and to a read
while 64 are out (R101). -/
def State.lakeRequest (s : State) (port group p a : Nat) (access : LakeAccess) : State :=
  if port < 48 && (!s.engOnline port || (access == .read && 64 ≤ s.readsOut port)) then s
  else
    let t := s.lakeArrive port group p a access
    match access with
    | .write _ true => if port = 54 then t else t.wordFailed port p a
    | _ => t

/-- LAKE_REQUEST (R229). -/
def execLakeRequest (port group p a : Nat) (access : LakeAccess) (s : State) : Host.Outcome State Fault Refusal :=
  whenWf "LAKE_REQUEST" (Instr.wf (.lakeRequest port group p a access)) (s.lakeRequest port group p a access)

end Sys2Proof.Machine
end

