-- ==== Sys2Proof/Machine/Dispatch.lean ====
section
/-! DEFINITION. One arm per command: a direct call of its meaning. -/

namespace Sys2Proof.Machine

/-- The effect of a command on everything but the queue. -/
def exec (i : Instr) (s : State) : Host.Outcome State Fault Refusal :=
  match i with
  | .registerWrite space func off bytes arrives => Sys2Proof.Machine.execRegisterWrite space func off bytes arrives s
  | .rcRead func off read => Sys2Proof.Machine.execRcRead func off read s
  | .boundaryApply off => Sys2Proof.Machine.execBoundaryApply off s
  | .forwardedClockFail channel => Sys2Proof.Machine.execForwardedClockFail channel s
  | .lakeQuadWakeDone quad => Sys2Proof.Machine.execLakeQuadWakeDone quad s
  | .pondDomainOff pond => Sys2Proof.Machine.execPondDomainOff pond s
  | .stackRailLow => Sys2Proof.Machine.execStackRailLow s
  | .vddAuxLoss => Sys2Proof.Machine.execVddAuxLoss s
  | .clkXtalFail => Sys2Proof.Machine.execClkXtalFail s
  | .clkPllUnlock pll => Sys2Proof.Machine.execClkPllUnlock pll s
  | .pciePhyPllUnlock => Sys2Proof.Machine.execPciePhyPllUnlock s
  | .doorbellSqTail func ring value => Sys2Proof.Machine.execDoorbellSqTail func ring value s
  | .doorbellCqHead func ring value => Sys2Proof.Machine.execDoorbellCqHead func ring value s
  | .descriptorFetch q => Sys2Proof.Machine.execDescriptorFetch q s
  | .descriptorFetchFail q why => Sys2Proof.Machine.execDescriptorFetchFail q why s
  | .descriptorTypeUndefined q desc => Sys2Proof.Machine.execDescriptorTypeUndefined q desc s
  | .copy q desc fetched => Sys2Proof.Machine.execCopy q desc fetched s
  | .hash q desc fetched => Sys2Proof.Machine.execHash q desc fetched s
  | .encode q desc fetched => Sys2Proof.Machine.execEncode q desc fetched s
  | .decode q desc fetched => Sys2Proof.Machine.execDecode q desc fetched s
  | .repair q desc fetched => Sys2Proof.Machine.execRepair q desc fetched s
  | .verify q desc fetched => Sys2Proof.Machine.execVerify q desc fetched s
  | .plan q desc fetched => Sys2Proof.Machine.execPlan q desc fetched s
  | .seal q desc fetched => Sys2Proof.Machine.execSeal q desc fetched s
  | .query q desc fetched => Sys2Proof.Machine.execQuery q desc fetched s
  | .fence q desc fetched => Sys2Proof.Machine.execFence q desc fetched s
  | .scrub q desc fetched => Sys2Proof.Machine.execScrub q desc fetched s
  | .sealStart q slot => Sys2Proof.Machine.execSealStart q slot s
  | .fencePass q slot => Sys2Proof.Machine.execFencePass q slot s
  | .taskPush p => Sys2Proof.Machine.execTaskPush p s
  | .taskPop engine checkOk => Sys2Proof.Machine.execTaskPop engine checkOk s
  | .stealVisit pond checkOk => Sys2Proof.Machine.execStealVisit pond checkOk s
  | .taskResult engine digest task tokgen ext => Sys2Proof.Machine.execTaskResult engine digest task tokgen ext s
  | .unitDurable q slot unit flushFail => Sys2Proof.Machine.execUnitDurable q slot unit flushFail s
  | .receiptEntryAdd q slot slotWriteOk => Sys2Proof.Machine.execReceiptEntryAdd q slot slotWriteOk s
  | .jobComplete q slot => Sys2Proof.Machine.execJobComplete q slot s
  | .coalTimerExpire q => Sys2Proof.Machine.execCoalTimerExpire q s
  | .cancel func q value => Sys2Proof.Machine.execCancel func q value s
  | .ringEn func q en => Sys2Proof.Machine.execRingEn func q en s
  | .reset func q => Sys2Proof.Machine.execReset func q s
  | .dropInt func q => Sys2Proof.Machine.execDropInt func q s
  | .flr func => Sys2Proof.Machine.execFlr func s
  | .taskDeadline engine digest => Sys2Proof.Machine.execTaskDeadline engine digest s
  | .engineInternalError engine why => Sys2Proof.Machine.execEngineInternalError engine why s
  | .fenceRequeue engine => Sys2Proof.Machine.execFenceRequeue engine s
  | .engineSelftestStart engine => Sys2Proof.Machine.execEngineSelftestStart engine s
  | .engineSelftestDone engine pass => Sys2Proof.Machine.execEngineSelftestDone engine pass s
  | .offlineReq engine value => Sys2Proof.Machine.execOfflineReq engine value s
  | .selftest engine => Sys2Proof.Machine.execSelftest engine s
  | .sealEpochLoWrite func value => Sys2Proof.Machine.execSealEpochLoWrite func value s
  | .epochCommit func value => Sys2Proof.Machine.execEpochCommit func value s
  | .sealEpochLoRead func => Sys2Proof.Machine.execSealEpochLoRead func s
  | .signatureDone what slotWriteOk => Sys2Proof.Machine.execSignatureDone what slotWriteOk s
  | .logHeadWrite log value => Sys2Proof.Machine.execLogHeadWrite log value s
  | .logEnEffect log => Sys2Proof.Machine.execLogEnEffect log s
  | .keyUnloadComplete func slot => Sys2Proof.Machine.execKeyUnloadComplete func slot s
  | .getNonce input => Sys2Proof.Machine.execGetNonce input s
  | .getWrapKey input => Sys2Proof.Machine.execGetWrapKey input s
  | .keyLoad input => Sys2Proof.Machine.execKeyLoad input s
  | .keyUnload input => Sys2Proof.Machine.execKeyUnload input s
  | .lcAdvance input env => Sys2Proof.Machine.execLcAdvance input env s
  | .ownerChange input env => Sys2Proof.Machine.execOwnerChange input env s
  | .arbAdvance input env => Sys2Proof.Machine.execArbAdvance input env s
  | .udsGenerate input env => Sys2Proof.Machine.execUdsGenerate input env s
  | .otpProgram input env => Sys2Proof.Machine.execOtpProgram input env s
  | .otpLock input env => Sys2Proof.Machine.execOtpLock input env s
  | .bistRun input => Sys2Proof.Machine.execBistRun input s
  | .mboxUnknownCmd cmd input => Sys2Proof.Machine.execMboxUnknownCmd cmd input s
  | .mboxDone => Sys2Proof.Machine.execMboxDone s
  | .lcsTamper detector => Sys2Proof.Machine.execLcsTamper detector s
  | .stackZeroingDone => Sys2Proof.Machine.execStackZeroingDone s
  | .keyRequestReissue => Sys2Proof.Machine.execKeyRequestReissue s
  | .pairedQueueMismatch queue => Sys2Proof.Machine.execPairedQueueMismatch queue s
  | .tarnCollision addr a b => Sys2Proof.Machine.execTarnCollision addr a b s
  | .getVersion t => Sys2Proof.Machine.execGetVersion t s
  | .getCapabilities t version => Sys2Proof.Machine.execGetCapabilities t version s
  | .negotiateAlgorithms t suiteOffered => Sys2Proof.Machine.execNegotiateAlgorithms t suiteOffered s
  | .getDigests t => Sys2Proof.Machine.execGetDigests t s
  | .getCertificate t slot offset length => Sys2Proof.Machine.execGetCertificate t slot offset length s
  | .challenge t slot nonce => Sys2Proof.Machine.execChallenge t slot nonce s
  | .getMeasurements t index signed nonce => Sys2Proof.Machine.execGetMeasurements t index signed nonce s
  | .keyExchange t slot reqSession exchangeData => Sys2Proof.Machine.execKeyExchange t slot reqSession exchangeData s
  | .finish t session verifyData => Sys2Proof.Machine.execFinish t session verifyData s
  | .keyUpdate t session => Sys2Proof.Machine.execKeyUpdate t session s
  | .endSession t session => Sys2Proof.Machine.execEndSession t session s
  | .chunkSend t whole bytes => Sys2Proof.Machine.execChunkSend t whole bytes s
  | .chunkGet t seq => Sys2Proof.Machine.execChunkGet t seq s
  | .vendorDefinedRequest t session ideKm => Sys2Proof.Machine.execVendorDefinedRequest t session ideKm s
  | .keyProg t session stream keySet subStream key => Sys2Proof.Machine.execKeyProg t session stream keySet subStream key s
  | .kSetGo t session stream keySet => Sys2Proof.Machine.execKSetGo t session stream keySet s
  | .kSetStop t session stream keySet => Sys2Proof.Machine.execKSetStop t session stream keySet s
  | .ideKmQuery t session => Sys2Proof.Machine.execIdeKmQuery t session s
  | .perstAssert => Sys2Proof.Machine.execPerstAssert s
  | .warmStart env => Sys2Proof.Machine.execWarmStart env s
  | .linkUp train => Sys2Proof.Machine.execLinkUp train s
  | .linkDown env => Sys2Proof.Machine.execLinkDown env s
  | .linkRecovery train => Sys2Proof.Machine.execLinkRecovery train s
  | .l0pIdleExpire accepted => Sys2Proof.Machine.execL0pIdleExpire accepted s
  | .l0pWidthRequest width => Sys2Proof.Machine.execL0pWidthRequest width s
  | .l0pFullWidthRequest accepted => Sys2Proof.Machine.execL0pFullWidthRequest accepted s
  | .l1Entry => Sys2Proof.Machine.execL1Entry s
  | .l1Exit => Sys2Proof.Machine.execL1Exit s
  | .d3hotEntry => Sys2Proof.Machine.execD3hotEntry s
  | .d0Return => Sys2Proof.Machine.execD0Return s
  | .vfEnable en => Sys2Proof.Machine.execVfEnable en s
  | .busMasterEnable func en => Sys2Proof.Machine.execBusMasterEnable func en s
  | .memorySpaceEnable func en => Sys2Proof.Machine.execMemorySpaceEnable func en s
  | .tagEnableEffect => Sys2Proof.Machine.execTagEnableEffect s
  | .tagQuarantineEnd tag => Sys2Proof.Machine.execTagQuarantineEnd tag s
  | .completionReceived tag c tlp => Sys2Proof.Machine.execCompletionReceived tag c tlp s
  | .cplTimeout tag => Sys2Proof.Machine.execCplTimeout tag s
  | .msixUnmask func vector => Sys2Proof.Machine.execMsixUnmask func vector s
  | .atomicop func bar => Sys2Proof.Machine.execAtomicop func bar s
  | .doeObject type dwords bytes => Sys2Proof.Machine.execDoeObject type dwords bytes s
  | .doeAbort => Sys2Proof.Machine.execDoeAbort s
  | .marginCommand lane command => Sys2Proof.Machine.execMarginCommand lane command s
  | .basinEnWrite basin en => Sys2Proof.Machine.execBasinEnWrite basin en s
  | .basinEnableEffect basin => Sys2Proof.Machine.execBasinEnableEffect basin s
  | .basinFillDone basin => Sys2Proof.Machine.execBasinFillDone basin s
  | .controllerArbitrate p bank => Sys2Proof.Machine.execControllerArbitrate p bank s
  | .refreshDue p bank => Sys2Proof.Machine.execRefreshDue p bank s
  | .trefwEnd p => Sys2Proof.Machine.execTrefwEnd p s
  | .srIdleExpire channel => Sys2Proof.Machine.execSrIdleExpire channel s
  | .srEntryDone channel => Sys2Proof.Machine.execSrEntryDone channel s
  | .srResidencyEnd channel => Sys2Proof.Machine.execSrResidencyEnd channel s
  | .srExitDone channel => Sys2Proof.Machine.execSrExitDone channel s
  | .bar2Read func off len arrives => Sys2Proof.Machine.execBar2Read func off len arrives s
  | .bar2Write func off bytes poisoned tlp => Sys2Proof.Machine.execBar2Write func off bytes poisoned tlp s
  | .lakeRequest port group p a access => Sys2Proof.Machine.execLakeRequest port group p a access s
  | .durableWriteAck p a => Sys2Proof.Machine.execDurableWriteAck p a s
  | .flush => Sys2Proof.Machine.execFlush s
  | .lakeFlushDone => Sys2Proof.Machine.execLakeFlushDone s
  | .lineDecode func p a err1 err2 => Sys2Proof.Machine.execLineDecode func p a err1 err2 s
  | .laneShift p => Sys2Proof.Machine.execLaneShift p s
  | .laneShiftDone p => Sys2Proof.Machine.execLaneShiftDone p s
  | .vlkShiftReq value => Sys2Proof.Machine.execVlkShiftReq value s
  | .caParityError channel lane row => Sys2Proof.Machine.execCaParityError channel lane row s
  | .eddyEnable engine window base len en => Sys2Proof.Machine.execEddyEnable engine window base len en s
  | .eddyAccess engine window offset len write parityOk => Sys2Proof.Machine.execEddyAccess engine window offset len write parityOk s
  | .consume engine window n => Sys2Proof.Machine.execConsume engine window n s
  | .commit engine window n => Sys2Proof.Machine.execCommit engine window n s
  | .clear engine window => Sys2Proof.Machine.execClear engine window s
  | .packFlushRequest queue => Sys2Proof.Machine.execPackFlushRequest queue s
  | .packFlushDone queue => Sys2Proof.Machine.execPackFlushDone queue s
  | .evtPop0Read ring => Sys2Proof.Machine.execEvtPop0Read ring s
  | .weirTick => Sys2Proof.Machine.execWeirTick s
  | .weirRelease port => Sys2Proof.Machine.execWeirRelease port s
  | .weirWindowBoundary => Sys2Proof.Machine.execWeirWindowBoundary s
  | .latencySample group sample => Sys2Proof.Machine.execLatencySample group sample s
  | .agePromote p index => Sys2Proof.Machine.execAgePromote p index s
  | .dredgePiece => Sys2Proof.Machine.execDredgePiece s
  | .dredgeLine err1 err2 => Sys2Proof.Machine.execDredgeLine err1 err2 s
  | .dredgeGo => Sys2Proof.Machine.execDredgeGo s
  | .stop => Sys2Proof.Machine.execStop s
  | .integDredgeDone => Sys2Proof.Machine.execIntegDredgeDone s
  | .dredgeRoundDone => Sys2Proof.Machine.execDredgeRoundDone s
  | .rowRetire value flashOk => Sys2Proof.Machine.execRowRetire value flashOk s
  | .rowCopy => Sys2Proof.Machine.execRowCopy s
  | .pcRetire value flashOk => Sys2Proof.Machine.execPcRetire value flashOk s
  | .sensorSample layer readings => Sys2Proof.Machine.execSensorSample layer readings s
  | .modelUpdate intervalUs counts => Sys2Proof.Machine.execModelUpdate intervalUs counts s
  | .graceExpire => Sys2Proof.Machine.execGraceExpire s
  | .resume => Sys2Proof.Machine.execResume s
  | .powerPeriodEnd deciWatts => Sys2Proof.Machine.execPowerPeriodEnd deciWatts s
  | .offReq domain value => Sys2Proof.Machine.execOffReq domain value s
  | .domainWakeDone domain => Sys2Proof.Machine.execDomainWakeDone domain s
  | .force => Sys2Proof.Machine.execForce s
  | .calRunStart kind index => Sys2Proof.Machine.execCalRunStart kind index s
  | .calRunEnd kind index trim => Sys2Proof.Machine.execCalRunEnd kind index trim s
  | .faultReport reports => Sys2Proof.Machine.execFaultReport reports s
  | .containmentEnd ok => Sys2Proof.Machine.execContainmentEnd ok s
  | .containmentTimeout => Sys2Proof.Machine.execContainmentTimeout s
  | .quietTimerExpire => Sys2Proof.Machine.execQuietTimerExpire s
  | .fActionsEnd => Sys2Proof.Machine.execFActionsEnd s
  | .fltRelease value => Sys2Proof.Machine.execFltRelease value s
  | .fltInject value => Sys2Proof.Machine.execFltInject value s
  | .coldStart env => Sys2Proof.Machine.execColdStart env s
  | .railInRange stack => Sys2Proof.Machine.execRailInRange stack s
  | .startWatchdog => Sys2Proof.Machine.execStartWatchdog s
  | .read => Sys2Proof.Machine.execRead s
  | .program => Sys2Proof.Machine.execProgram s
  | .erase => Sys2Proof.Machine.execErase s
  | .flashOpDone ok => Sys2Proof.Machine.execFlashOpDone ok s
  | .flashOpTimeout => Sys2Proof.Machine.execFlashOpTimeout s
  | .regRead off => Sys2Proof.Machine.execRegRead off s
  | .flashRead addr len => Sys2Proof.Machine.execFlashRead addr len s
  | .clearBad => Sys2Proof.Machine.execClearBad s
  | .bistDone fails us => Sys2Proof.Machine.execBistDone fails us s
  | .abort => Sys2Proof.Machine.execAbort s
  | .pmcClear func n add => Sys2Proof.Machine.execPmcClear func n add s
  | .clearAll adds => Sys2Proof.Machine.execClearAll adds s
  | .freeze value => Sys2Proof.Machine.execFreeze value s
  | .pmcCntLoRead func n add => Sys2Proof.Machine.execPmcCntLoRead func n add s
  | .bwWindowEnd => Sys2Proof.Machine.execBwWindowEnd s
  | .devTimerLoRead => Sys2Proof.Machine.execDevTimerLoRead s
  | .planResultRead func slot off len latency => Sys2Proof.Machine.execPlanResultRead func slot off len latency s
  | .planLatch func slot latency => Sys2Proof.Machine.execPlanLatch func slot latency s
  | .planLaneTimeout func slot latency => Sys2Proof.Machine.execPlanLaneTimeout func slot latency s
  | .vddCoreLoss => Sys2Proof.Machine.execVddCoreLoss s
  | .crystalReturn => Sys2Proof.Machine.execCrystalReturn s
  | .sidebandReset => Sys2Proof.Machine.execSidebandReset s
  | .dynamicAddressAssign addr => Sys2Proof.Machine.execDynamicAddressAssign addr s
  | .sidebandFrameError => Sys2Proof.Machine.execSidebandFrameError s
  | .planSlotWrite func slot off bytes poisoned => Sys2Proof.Machine.execPlanSlotWrite func slot off bytes poisoned s
  | .stackRailWaitExpire => Sys2Proof.Machine.execStackRailWaitExpire s
  | .calRecordWriteEnd ok => Sys2Proof.Machine.execCalRecordWriteEnd ok s
  | .loopbackEntry => Sys2Proof.Machine.execLoopbackEntry s

end Sys2Proof.Machine
end

