-- ==== Sys2Proof/Safety.lean ====
section
/-! DEFINITION. What counts as a safe run, in the terms the claims use: the canonical forms of the sparse parts of the state
(one list for each content), fuses that never clear (R353), steps that answer a next state, a device that answers its host,
and what a command leaves alone. -/

namespace Sys2Proof.Machine

/-- The memories hold their canonical form: stack memory, engine scratch, fuses (unlisted byte 0) and flash (0xFF). -/
def State.memWf (s : State) : Bool :=
  Mem.wf 0 s.dram.mem && Mem.wf 0 s.scratch && Mem.wf 0 s.fuses.cells && Mem.wf 0xFF s.flash

/-- The register file's keys rise strictly. -/
def State.regsWf (s : State) : Bool := sparseWfFrom 0 s.regs && sparseWfFrom 0 s.inForce

/-- Every fuse bit blown in `s` is blown in `t` (R353). -/
def State.fusesKept (s t : State) : Prop :=
  ∀ a b, bitAt (Mem.read 0 s.fuses.cells a).toNat b = true → bitAt (Mem.read 0 t.fuses.cells a).toNat b = true

/-- A state whose next step answers a next state. -/
def State.safe (s : State) : Prop := ∃ t, step s = .next t

/-- The device is READY and a function's BARs answer (R192, R194, R195). -/
def State.hostReady (s : State) (func : Nat) : Bool := s.barOpen func && s.ready

/-- Every register field but those listed reads in `t` as in `s`. -/
def State.regsExcept (fs : List FN) (s t : State) : Prop :=
  ∀ f i j, f ∉ fs → i < 4096 → j < 4096 → t.get f i j = s.get f i j

/-- Every byte of the memories (stack memory, engine scratch, flash, fuses) is in `t` as in `s`. -/
def State.sameMemory (s t : State) : Prop :=
  t.dram.mem = s.dram.mem ∧ t.dram.poison = s.dram.poison ∧ t.scratch = s.scratch ∧ t.flash = s.flash ∧ t.fuses = s.fuses

/-- The registers that counting an event (R377, R378) and raising one (R246, R320) may change: counts and their overflow
bits, EVT_LOST, pending MSI-X messages, and the link's state where a message queued in L1 starts the exit (R186). -/
def signalRegs : List FN :=
  [.pmcCntLoCount, .pmcCntHiCount, .pmcVfCntLoCount, .pmcVfCntHiCount, .pmcOvfLoMask, .pmcOvfHiMask, .pmcVfStatusOvf,
    .evtLostCount, .msixPba, .pcxRecoveriesCount, .pcxLinkStatusLtssm]

/-- `s` with what counting, raising events and answering may change taken from `t`: register fields (and the values in force
of the link's class-B fields, which an exit of L1 brings into effect), the free values' counter (an error's header, R206),
event rings, counters, what has left the device or waits to leave it. -/
def State.signals (s t : State) : State :=
  { s with regs := t.regs, inForce := t.inForce, freeCtr := t.freeCtr, events := t.events, counters := t.counters, out := t.out,
           pcie := { s.pcie with held := t.pcie.held } }

/-- What has left the device before still stands, and `o` is among what left it since. -/
def State.sends (s t : State) (o : Out) : Prop := ∃ before after, t.out = s.out ++ before ++ o :: after

/-- The nine checks of R81 on the ring's oldest descriptor `f` on its way, whose bytes are `desc`; `ext` is what the fetches
of its buffers bring. -/
def State.checks (s : State) (q : Nat) (f : Fetch) (desc : List Byte) (ext : List Fetched) : Check :=
  let s := (s.setRing q { s.ring q with fetches := (s.ring q).fetches.tail }).recDescribe q f.slot desc 0
  ({ st := s, ext, job := newJob s q f desc } : Check).run f.gen

/-- The commands whose descriptor of one TYPE arrives, with that TYPE (R75). -/
def arrivals (q : Nat) (desc : List Byte) (ext : List Fetched) : List (Nat × Instr) :=
  [(1, .copy q desc ext), (2, .hash q desc ext), (3, .encode q desc ext), (4, .decode q desc ext), (5, .repair q desc ext),
   (6, .verify q desc ext), (7, .plan q desc ext), (8, .seal q desc ext), (9, .query q desc ext), (10, .fence q desc ext),
   (11, .scrub q desc ext)]

end Sys2Proof.Machine
end

