-- ==== Sys2Proof/Certificates/Slice0/Obligations.lean ====
section
/-! DEFINITION. The statements for the provers, in the order of OBLIGATIONS.json. -/

open Sys2Proof Sys2Proof.Machine

/-! ### The queue, the step, reset, memory and registers -/

/-- A command at the front of the queue runs on the state with the queue's rest (the model's own rule for a block, log entry
11). -/
def Obligations.StepRunsFrontCommand : Prop :=
  ∀ (s : State) (c : Instr) (rest : List Instr), s.pending = c :: rest → step s = exec c { s with pending := rest }

/-- A step takes exactly the front command from the queue: no command enters, leaves or changes place otherwise. -/
def Obligations.StepKeepsQueue : Prop :=
  ∀ s t : State, step s = .next t → t.pending = s.pending.tail

/-- R353: logical bit n is stored as physical bit n in bank A and 32,768 + n in bank B, programming blows both copies and no
other bit, and a bit, once blown, cannot be cleared, whatever step is taken. -/
def Obligations.FusesNeverClear : Prop :=
  (∀ s t : State, step s = .next t → s.fusesKept t) ∧
  ∀ (s : State) (n k : Nat), n < 32768 →
    let bit (u : State) (m : Nat) : Bool := bitAt (Mem.read 0 u.fuses.cells (m / 8)).toNat (m % 8)
    bit (s.blow n) n = true ∧ bit (s.blow n) (32768 + n) = true ∧
    (k ≠ n → k ≠ 32768 + n → bit (s.blow n) k = bit s k) ∧ s.blow n = { s with fuses := (s.blow n).fuses } ∧
    s.arrayBit n = (bit s n || bit s (32768 + n))

/-- Every step keeps the canonical forms: each memory and each sparse register map is one list for one content (an invariant
of the model's own data, log entry 17). -/
def Obligations.CanonicalForms : Prop :=
  ∀ s t : State, s.memWf = true → s.regsWf = true → step s = .next t → t.memWf = true ∧ t.regsWf = true

/-- A command that names units, instances and values that exist answers a next state in every state, the queue unchanged;
one that does not is refused by name; no command faults (the model's reading of the rows' operands, log entry 4). -/
def Obligations.CommandsComplete : Prop :=
  ∀ (c : Instr) (s : State), (c.wf = true → ∃ t, exec c s = .next t ∧ t.pending = s.pending) ∧
    (c.wf = false → ∃ m, exec c s = .refused (.illFormed m))

/-- The state at power-on: every register field at its cold value (R10), no command waiting, nothing sent, and every memory
in its canonical form with nothing listed. (The cold values before COLD_START, the memories' form and contents and PERST#
asserted are the model's, log entries 3, 17 and 19.) -/
def Obligations.ResetState : Prop :=
  (∀ (f : FN) (i j : Nat), State.reset.get f i j = f.cold i j) ∧ State.reset.pending = [] ∧ State.reset.out = [] ∧
  State.reset.memWf = true ∧ State.reset.regsWf = true ∧ State.reset.timer = 0 ∧ State.reset.boot.perst = true ∧
  State.reset.dram.mem = [] ∧ State.reset.dram.poison = [] ∧ State.reset.scratch = [] ∧ State.reset.flash = [] ∧
  State.reset.fuses.cells = []

/-- A stored byte reads back, every other address reads as before, and the canonical form is kept.
A register field holds the low bits of what was set, every other field instance reads as before, and the register file
keeps its canonical form. -/
def Obligations.MemoryAndRegisterLaws : Prop :=
  (∀ (d : Byte) (m : List Host.Cell) (a : Nat) (b : Byte),
     Mem.read d (Mem.write d m a b) a = b ∧ (∀ x, x ≠ a → Mem.read d (Mem.write d m a b) x = Mem.read d m x) ∧
     (Mem.wf d m = true → Mem.wf d (Mem.write d m a b) = true)) ∧
  (∀ (s : State) (f : FN) (v i j : Nat), f.inst i j = true →
     (s.set f v i j).get f i j = v % 2 ^ f.width ∧
     (∀ (g : FN) (k l : Nat), k < 4096 → l < 4096 → (g, k, l) ≠ (f, i, j) → (s.set f v i j).get g k l = s.get g k l) ∧
     (s.regsWf = true → (s.set f v i j).regsWf = true))

/-- R8: a class-B write reads back at once, keeps the value in effect until the boundary, and of several writes before one
boundary only the last takes effect.
R7, R8, R383: WINDOW_US takes no effect before the end of its window; at the boundary of JOB_TASK_CAP the value last written takes
effect, and nothing else changes. -/
def Obligations.ClassBFields : Prop :=
  (∀ (s : State) (f : FN) (v w i j : Nat), f.inst i j = true →
     (s.setB f v i j).get f i j = v % 2 ^ f.width ∧ (s.setB f v i j).eff f i j = s.eff f i j ∧
     ((s.setB f v i j).setB f w i j).eff f i j = s.eff f i j ∧
     (((s.setB f v i j).setB f w i j).applyB f i j).eff f i j = w % 2 ^ f.width) ∧
  (∀ s : State, exec (.boundaryApply 0x172000) s = .next s ∧
     exec (.boundaryApply 0x82000) s = .next (s.applyB .engCfgJobTaskCap) ∧
     (s.applyB .engCfgJobTaskCap).eff .engCfgJobTaskCap = s.get .engCfgJobTaskCap)

/-! ### Host access to registers, counters and the timer (00_scope.md, 08_pcie.md, 17_counters_registers.md) -/

/-- R2: a BAR0 write that does not carry all four bytes of a register it touches is discarded and sets NARROW_WR.
REGISTER_WRITE of a route and of a way mask (class L): the fields take the written bits at once, and nothing else of
the device changes.
R6, on three RC counters: a read returns the value before what hardware adds in the same cycle, or the bytes of it that are
asked for (R2), and the counter ends holding that amount.
R194: a request outside a BAR's limits has no effect but the Unsupported Request: an AtomicOp, a BAR0 write across an
8-byte boundary.
R205: a poisoned write to BAR0 is discarded; it is only reported.
R68, R195: a doorbell reads 0, a write to it narrower than 32 bits is discarded; a configuration request before the identity is
in place, or before step 7 has ended, gets Configuration Request Retry Status.
R186, R189: an answer leaves at once; in Recovery it waits, and in L1 it also starts the exit. -/
def Obligations.RegisterAccess : Prop :=
  (∀ (s : State) (off hw : Nat) (bytes : List Byte), s.hostReady 0 = true → off % 4 = 0 → 0 < bytes.length →
     bytes.length < 4 → ((s.received bytes.length).regFields 0 off).isEmpty = false →
     exec (.registerWrite .bar0 0 off bytes ⟨.good, hw⟩) s =
       .next (((s.received bytes.length).set .devStatusNarrowWr 1).raise evDevNarrowWr)) ∧
  (∀ (s : State) (v hw : Nat), v < 2 ^ 32 → s.hostReady 0 = true →
     (∀ e < 320, exec (.registerWrite .bar0 0 (0x161000 + 4 * e) (leBytes 4 v) ⟨.good, hw⟩) s =
       .next (((s.received 4).set .evtRouteEn (v % 2) e).set .evtRouteRing (v / 2 % 8) e)) ∧
     (∀ g < 64, exec (.registerWrite .bar0 0 (0xC0100 + 4 * g) (leBytes 4 v) ⟨.good, hw⟩) s =
       .next ((s.received 4).set .lakeWaysMask (v % 65536) g))) ∧
  (∀ (s : State) (add add2 o n : Nat), add < 2 ^ 32 → s.hostReady 0 = true → 0 < n → o + n ≤ 4 →
     ∀ p ∈ [(0x15100C, FN.fltOvfCount), (0x82010, FN.engStaleTokCount), (0x40004, FN.tarnCollRwCount)],
       exec (.rcRead 0 (p.1 + o) ⟨.bar0, n, add, add2, .good⟩) s =
         .next ((s.set p.2 add).reply (.data 0 (sliceBytes (leBytes 4 (s.get p.2)) o n)))) ∧
  (∀ (s : State) (func bar off hw : Nat) (bytes : List Byte), func < 64 → s.dlUp = true →
     (bar < 6 → ∃ t, exec (.atomicop func bar) s = .next t ∧ (s.linkHeld = false → s.sends t (.unsupported func)) ∧
       t = s.signals t ∧
       State.regsExcept (.cfgAerUncStatus :: .cfgAerCorStatus :: .cfgAerFep :: .cfgAerHdr :: signalRegs) s t) ∧
     (0 < bytes.length → 8 < off % 8 + bytes.length →
       ∃ t, exec (.registerWrite .bar0 func off bytes ⟨.good, hw⟩) s = .next t ∧ t = s.signals t ∧
       State.regsExcept (.cfgAerUncStatus :: .cfgAerCorStatus :: .cfgAerFep :: .cfgAerHdr :: signalRegs) s t) ∧
     (0 < bytes.length → off % 8 + bytes.length ≤ 8 → s.hostReady func = true →
       exec (.registerWrite .bar0 func off bytes ⟨.poisoned, hw⟩) s =
         .next ((s.received bytes.length).aerAdvisoryNonFatal func aerPoisoned))) ∧
  (∀ (s : State) (func off len x y hw : Nat) (bytes : List Byte), func < 64 →
     (off + len ≤ 2048 → off % 64 + len ≤ 64 → s.hostReady func = true →
       exec (.rcRead func off ⟨.bar4, len, x, y, .good⟩) s = .next (s.reply (.data func (zeros len)))) ∧
     (off < 2048 → bytes.length < 4 → off % 8 + bytes.length ≤ 8 → s.hostReady func = true →
       exec (.registerWrite .bar4 func off bytes ⟨.good, hw⟩) s = .next (s.received bytes.length)) ∧
     (s.dlUp = true → s.pcie.identity = [] ∨ (∃ run, s.boot.run = some run ∧ run.wait = .image) →
       exec (.rcRead func off ⟨.config, len, x, y, .good⟩) s = .next (s.reply (.retry func)) ∧
       exec (.registerWrite .config func off bytes ⟨.good, hw⟩) s = .next (s.reply (.retry func)))) ∧
  (∀ (s : State) (o : Out),
     (s.linkHeld = false → s.sends (s.reply o) o ∧ s.reply o = { s with out := (s.reply o).out, counters := (s.reply o).counters }) ∧
     (s.linkHeld = true → (s.reply o).out = s.out ∧ (s.reply o).pcie.held = s.pcie.held ++ [o] ∧
       (s.get .pcxLinkStatusLtssm = ltssmL1 → (s.reply o).get .pcxLinkStatusLtssm = ltssmRecovery)))

/-- R378, R379, R382: CLEAR sets a count to 0 and keeps the increment of the same cycle where the counter counts (its EN is 1,
a PF0 counter's FREEZE 0), else loses it; a page under USER_READ discards the write.
R379: CLEAR_ALL clears every PF0 counter and then adds the increments of that cycle; FREEZE only sets its bit.
R379, R380: a read of CNT_LO returns bits [31:0] before the cycle's increment, latches bits [47:32] for the next read of
CNT_HI, and keeps the increment. -/
def Obligations.Counters : Prop :=
  (∀ (s : State) (n v add : Nat), add < 2 ^ 48 →
     (n < 64 → s.hostReady 0 = true → ∃ t, exec (.pmcClear 0 n add) s = .next t ∧
       t.count48 n = (if s.counts 0 n then add else 0) ∧
       State.regsExcept [.pmcCntLoCount, .pmcCntHiCount] s t ∧ (∀ m, m < 64 → m ≠ n → t.count48 m = s.count48 m) ∧
       t = { s with regs := t.regs, counters := t.counters }) ∧
     (n < 8 → 1 ≤ v → v < 64 → s.hostReady v = true → s.userRead v = false →
       ∃ t, exec (.pmcClear v n add) s = .next t ∧ t.vfCount48 v n = (if s.counts v n then add else 0) ∧
       t = { s with regs := t.regs, counters := t.counters }) ∧
     (n < 8 → 1 ≤ v → v < 64 → s.hostReady v = true → s.userRead v = true → s.vfCount48 v n + add < 2 ^ 48 →
       ∃ t, exec (.pmcClear v n add) s = .next t ∧
         t.vfCount48 v n = s.vfCount48 v n + (if s.counts v n then add else 0))) ∧
  (∀ (s : State) (k a : Nat) (v : Bool), s.hostReady 0 = true → k < 64 → a < 2 ^ 48 →
     (∃ t, exec (.clearAll [(k, a)]) s = .next t ∧
       t.count48 k = (if s.counts 0 k then a else 0) ∧ (∀ m, m < 64 → m ≠ k → t.count48 m = 0) ∧
       State.regsExcept [.pmcCntLoCount, .pmcCntHiCount] s t ∧ t = { s with regs := t.regs, counters := t.counters }) ∧
     exec (.freeze v) s = .next ((s.received 4).set .pmcCtrlFreeze (b2n v))) ∧
  (∀ (s : State) (n add : Nat), n < 64 → s.count48 n + add < 2 ^ 48 → s.hostReady 0 = true → s.linkHeld = false →
     ∃ t, exec (.pmcCntLoRead 0 n add) s = .next t ∧ s.sends t (.data 0 (leBytes 4 (s.count48 n % 2 ^ 32))) ∧
       t.pmcHigh 0 n = s.count48 n / 2 ^ 32 ∧ t.count48 n = s.count48 n + (if s.counts 0 n then add else 0) ∧
       State.regsExcept [.pmcCntLoCount, .pmcCntHiCount] s t ∧
       t = { s with regs := t.regs, out := t.out, counters := t.counters })

/-- R386: a read of DEV_TIMER_LO returns the timer's low word and latches its high word in DEV_TIMER_HI.
R383: the end of a bandwidth window latches each port's rate, raises its peak, increments SEQ, starts counting anew, and
lets a new WINDOW_US take effect. -/
def Obligations.TimerAndBandwidth : Prop :=
  (∀ s : State, s.hostReady 0 = true →
     exec .devTimerLoRead s = .next ((s.reply32 0 (s.timer % 2 ^ 32)).set .devTimerHiTime (s.timer / 2 ^ 32))) ∧
  (∀ s : State, ∃ t, exec .bwWindowEnd s = .next t ∧ t.counters = { s.counters with bwLines := [] } ∧
     (∀ p, p < 59 → t.get .pmcBwRate p = min (2 ^ 20 - 1) (s.bwUnits p * 16 / s.eff .pmcBwCfgWindowUs) ∧
       t.get .pmcBwPeakRate p = max (s.get .pmcBwPeakRate p) (t.get .pmcBwRate p)) ∧
     t.get .pmcBwSeqSeq = (s.get .pmcBwSeqSeq + 1) % 2 ^ FN.pmcBwSeqSeq.width ∧
     t.eff .pmcBwCfgWindowUs = s.get .pmcBwCfgWindowUs ∧
     State.regsExcept [.pmcBwRate, .pmcBwPeakRate, .pmcBwSeqSeq] s t ∧
     t = { s with regs := t.regs, inForce := t.inForce, counters := t.counters })

/-! ### On-chip blocks, the plan port and Weirs (10_onchip.md, 03_ripple_decode.md, 11_weirs.md) -/

/-- R246: a read of EVT_POP0_r removes the ring's oldest entry and returns its word 0, the other words being readable in
EVT_POP1 to EVT_POP3; an empty ring reads 0.
R242: a flush request is pending on its queue, its boundary the end of the packets produced so far, until every word up to
the boundary has been accepted; then the writes held behind it proceed as far as credits go; no other queue changes.
R245: a word is sent only against a credit, and held by its producer otherwise; its acceptance by the Lake side returns one. -/
def Obligations.EventPopAndPackFlush : Prop :=
  (∀ (s : State) (r : Nat), r < 8 → s.hostReady 0 = true → s.linkHeld = false →
     ∃ t, exec (.evtPop0Read r) s = .next t ∧
       (s.ringEntries r = [] → s.sends t (.data 0 [0, 0, 0, 0])) ∧
       (∀ e rest, s.ringEntries r = e :: rest →
         s.sends t (.data 0 (leBytes 4 (1 + 2 ^ 8 * e.func + 2 ^ 16 * e.event))) ∧
         t.get .evtPop1Word1 r = e.arg % 2 ^ 32 ∧ t.get .evtPop2Word2 r = e.time % 2 ^ 32 ∧
         t.get .evtPop3Word3 r = e.time / 2 ^ 32 % 2 ^ 32) ∧
       t.ringEntries r = (s.ringEntries r).tail ∧ (∀ q, q ≠ r → t.ringEntries q = s.ringEntries q) ∧
       t.events.held = s.events.held ∧ t = { s with regs := t.regs, out := t.out, events := t.events, counters := t.counters } ∧
       State.regsExcept [.evtPop0Word0, .evtPop1Word1, .evtPop2Word2, .evtPop3Word3] s t) ∧
  (∀ (s : State) (q : Nat),
     let x := s.pack q
     let behind := s.packWords q (fun k => decide (k < x.boundary))
     (∃ t, exec (.packFlushRequest q) s = .next t ∧ t = { s with packs := t.packs } ∧
       t.pack q = { x with flush := true, boundary := if x.flush then x.boundary else x.nextId } ∧
       t.packs.filter (·.queue != q) = s.packs.filter (·.queue != q)) ∧
     (x.flush = true → behind = [] → ∃ t, exec (.packFlushDone q) s = .next t ∧
       t.pack q = { x with
         flush := false, credits := x.credits - (x.held.take x.credits).length, held := x.held.drop x.credits } ∧
       t.packs.filter (·.queue != q) = s.packs.filter (·.queue != q) ∧
       t = { s with packs := t.packs
                    weirs := { s.weirs with queue := s.weirs.queue ++ x.held.take x.credits } }) ∧
     (x.flush = false ∨ behind ≠ [] → exec (.packFlushDone q) s = .next s)) ∧
  (∀ (s : State) (r : PortReq) (k : Nat), r.packet = some k →
     let x := s.pack r.port
     x.held = [] → x.flush = false →
     (x.credits = 0 → (s.portSend r).pack r.port = { x with held := [r] } ∧ (s.portSend r).weirs = s.weirs) ∧
     (0 < x.credits → (s.portSend r).pack r.port = { x with credits := x.credits - 1 } ∧
       (s.portSend r).weirs.queue = s.weirs.queue ++ [r]) ∧
     ((s.packAccepted r).pack r.port).credits = x.credits + 1)

/-- R233: LAKE_CTRL.FLUSH starts the write-back of every DIRTY sector (here: the Lake holding one line, of address `a` of PC
`p`), leaving no sector DIRTY and the array as it is, and FLUSHING reads 1 until LAKE_FLUSH_DONE is raised.
R233: when the last write-back is in the array (here: with none under way, or with one), FLUSHING reads 0 and LAKE_FLUSH_DONE
is raised; the write-back's data is in the array and no other byte of it changes. -/
def Obligations.LakeFlushes : Prop :=
  (∀ (s : State) (p a : Nat) (l : LakeLine), p < 64 → a < pcBytes → s.lake.lines = [l] → l.slice = p → l.set = lakeSet a →
     l.tag = lakeTag a → s.hostReady 0 = true → s.flag .lakeStatusFlushing = false →
     ∃ t, exec .flush s = .next t ∧ t.flag .lakeStatusFlushing = true ∧ t.dirtySectors = 0 ∧
       t.lake.wbuf = s.lake.wbuf ++ ((List.range 2).filter (fun n => (l.sector n).dirty)).map (fun n =>
         { pc := p, a := a / 128 * 128 + 64 * n, data := (l.sector n).data, poison := (l.sector n).poison }) ∧
       t = { s.signals t with
         lake := { s.lake with lines := t.lake.lines, wbuf := t.lake.wbuf }
         dram := { s.dram with queue := t.dram.queue, waiting := t.dram.waiting, held := t.dram.held
                               draining := t.dram.draining } } ∧
       State.regsExcept (.lakeStatusFlushing :: .drcPcQmaxMax :: .drcPcSrheldCount :: .drcPcStateState :: signalRegs) s t) ∧
  (∀ s : State, s.flag .lakeStatusFlushing = true →
     ((∀ r ∈ s.dram.queue ++ s.dram.waiting ++ s.dram.held, r.write = true → r.durable = true) →
       exec .lakeFlushDone s = .next ((s.set .lakeStatusFlushing 0).raise evLakeFlushDone)) ∧
     (∀ x r, s.lake.wbuf = [x] → x.clean = false → s.dram.queue = [r] → s.dram.waiting = [] → s.dram.held = [] → r.write = true →
       r.durable = false → r.pc = x.pc → r.addr / 64 = x.a / 64 → s.pcGone x.pc = false →
       ∃ t, exec .lakeFlushDone s = .next t ∧ t.flag .lakeStatusFlushing = false ∧ t.lake.wbuf = [] ∧ t.dram.queue = [] ∧
         Mem.readN 0 t.dram.mem (memKey x.pc (x.a / 64 * 64)) 64 = fitBytes 64 x.data ∧
         (∀ k, k < memKey x.pc (x.a / 64 * 64) ∨ memKey x.pc (x.a / 64 * 64) + 64 ≤ k →
           Mem.read 0 t.dram.mem k = Mem.read 0 s.dram.mem k) ∧
         t.dram.poison.contains (lineKey x.pc x.a) = x.poison))

/-- R236, R237: enabling a window (its BASE and LEN in 64-byte units) that overlaps no other enabled one, CLEAR, CONSUME of no more than the fill, COMMIT of no
more than the room; pointers wrap at LEN and toggle their wrap bit. Only that window changes.
R237: a window read delivers the scratch bytes from HEAD + offset on, a window write stores from TAIL + offset on, both
in offset order and wrapping at LEN; no other byte of scratch changes. (A window that passes the end of scratch goes on at
its start: the model's choice, log 25.) -/
def Obligations.EddyWindows : Prop :=
  (∀ (s : State) (e w base len n : Nat) (en : Bool), Instr.wf (.eddyEnable e w base len en) = true → n ≤ 524288 →
     (s.eddy e w).en = false → (∀ v < 4, v ≠ w → (s.eddy e v).en = true →
       Eddy.meets { s.eddy e w with base := base % 524288 / 64 * 64, len := len % 1048576 / 64 * 64, en } (s.eddy e v) = false) →
     exec (.eddyEnable e w base len en) s = .next (s.setEddy e w
       { s.eddy e w with base := base % 524288 / 64 * 64, len := len % 1048576 / 64 * 64, en }) ∧
     exec (.clear e w) s = .next (s.setEddy e w { s.eddy e w with head := 0, tail := 0, hwrap := false, twrap := false }) ∧
     ∀ u : State, u.stalls = [] → (u.eddy e w).en = true →
       (n ≤ (u.eddy e w).fill → exec (.consume e w n) u = .next (u.setEddy e w
         (let x := u.eddy e w
          if x.head + n < x.len then { x with head := x.head + n }
          else { x with head := x.head + n - x.len, hwrap := !x.hwrap }))) ∧
       ((u.eddy e w).fill + n ≤ (u.eddy e w).len → exec (.commit e w n) u = .next (u.setEddy e w
         (let x := u.eddy e w
          if x.tail + n < x.len then { x with tail := x.tail + n }
          else { x with tail := x.tail + n - x.len, twrap := !x.twrap })))) ∧
  (∀ (s : State) (e w offset len : Nat) (bytes : List Byte), e < 48 → w < 4 → offset < 524288 → len ≤ 524288 →
     (s.eddy e w).en = true →
     let x := s.eddy e w
     (offset + len ≤ x.fill → exec (.eddyAccess e w offset len none true) s = .next (s.setEddy e w { x with
         delivered := (List.range len).map (fun i =>
           Mem.read 0 s.scratch (e * 524288 + (x.base + (x.head + offset + i) % x.len) % 524288)) })) ∧
     (x.fill + offset + bytes.length ≤ x.len → x.len ≤ 524288 → 0 < bytes.length →
       ∃ t, exec (.eddyAccess e w offset len (some bytes) true) s = .next t ∧ t = { s with scratch := t.scratch } ∧
         (∀ i < bytes.length,
           Mem.read 0 t.scratch (e * 524288 + (x.base + (x.tail + offset + i) % x.len) % 524288) = bytes.getD i 0) ∧
         (∀ k, (∀ i < bytes.length, k ≠ e * 524288 + (x.base + (x.tail + offset + i) % x.len) % 524288) →
           Mem.read 0 t.scratch k = Mem.read 0 s.scratch k)))

/-- R236, R238: CONSUME beyond the fill, COMMIT beyond the room, an enable of a window that overlaps an enabled one and a write
of BASE and LEN of an enabled one are an
internal error of the engine, as is a scratch parity error during an access: an online engine is fenced with its tasks. A
read beyond the fill stalls until enough bytes are committed, a write beyond the room until enough are consumed. The pointers
move as R237 has them. (The operands of an enable as writes of BASE and LEN, a window that passes the end of scratch, the cause
code, and a stalled access whose scratch failed its parity check being the error when it goes on, are the model's, log entry
25.) -/
def Obligations.EddyMisuse : Prop :=
  (∀ (s : State) (e w n offset len : Nat), e < 48 → w < 4 → n ≤ 524288 → offset < 524288 → len ≤ 524288 →
    (s.eddy e w).en = true →
    ((s.eddy e w).fill < n → exec (.consume e w n) s = .next (s.windowError e)) ∧
    ((s.eddy e w).len < (s.eddy e w).fill + n → exec (.commit e w n) s = .next (s.windowError e)) ∧
    ((s.eddy e w).fill < offset + len → exec (.eddyAccess e w offset len none true) s =
      .next { s with stalls := s.stalls ++ [{ engine := e, window := w, offset, len, write := none, parityOk := true }] }) ∧
    (∀ bytes, (s.eddy e w).len - (s.eddy e w).fill < offset + bytes.length →
      exec (.eddyAccess e w offset len (some bytes) true) s = .next { s with stalls := s.stalls ++
        [{ engine := e, window := w, offset, len := bytes.length, write := some bytes, parityOk := true }] }) ∧
    (∀ st, s.stalls = [st] → st.engine = e → st.window = w → st.parityOk = true →
      (st.write = none → (s.eddy e w).fill + n ≤ (s.eddy e w).len → 0 < n → ∃ t, exec (.commit e w n) s = .next t ∧
        (t.stalls = [] ↔ st.offset + st.len ≤ (t.eddy e w).fill)) ∧
      (st.write.isSome = true → n ≤ (s.eddy e w).fill → 0 < n → ∃ t, exec (.consume e w n) s = .next t ∧
        (t.stalls = [] ↔ (t.eddy e w).fill + st.offset + st.len ≤ (t.eddy e w).len))) ∧
    (∀ st, s.stalls = [st] → st.engine = e → st.window = w → st.parityOk = false → st.write = none →
      (s.eddy e w).fill + n ≤ (s.eddy e w).len → (s.eddy e w).tail + n < (s.eddy e w).len →
      st.offset + st.len ≤ Eddy.fill { s.eddy e w with tail := (s.eddy e w).tail + n } →
      exec (.commit e w n) s = .next ({ s.setEddy e w { s.eddy e w with tail := (s.eddy e w).tail + n } with
        stalls := [] }.fenceEngine e (engineErrorCode .scratchParity))) ∧
    (let parity := s.fenceEngine e (engineErrorCode .scratchParity)
     exec (.engineInternalError e .scratchParity) s = .next parity ∧
     (offset + len ≤ (s.eddy e w).fill → exec (.eddyAccess e w offset len none false) s = .next parity) ∧
     (∀ bytes, (s.eddy e w).fill + offset + bytes.length ≤ (s.eddy e w).len →
       exec (.eddyAccess e w offset len (some bytes) false) s = .next parity))) ∧
  (∀ (s : State) (e w v base len : Nat), Instr.wf (.eddyEnable e w base len true) = true → (s.eddy e w).en = false →
    v < 4 → v ≠ w → (s.eddy e v).en = true →
    let y := { s.eddy e w with base := base % 524288 / 64 * 64, len := len % 1048576 / 64 * 64, en := true }
    Eddy.meets y (s.eddy e v) = true →
    exec (.eddyEnable e w base len true) s = .next ((s.setEddy e w y).windowError e)) ∧
  (∀ (s : State) (e w base len : Nat), e < 48 → w < 4 → (s.eddy e w).en = true →
    exec (.eddyEnable e w base len true) s = .next (s.windowError e) ∧
    (base % 524288 / 64 * 64 = (s.eddy e w).base → len % 1048576 / 64 * 64 = (s.eddy e w).len →
      exec (.eddyEnable e w base len false) s = .next (s.setEddy e w { s.eddy e w with en := false })) ∧
    (base % 524288 / 64 * 64 ≠ (s.eddy e w).base ∨ len % 1048576 / 64 * 64 ≠ (s.eddy e w).len →
      exec (.eddyEnable e w base len false) s = .next (s.windowError e))) ∧
  (∀ (s : State) (e : Nat), e < 48 → s.engOnline e = true →
    let fenced (t : State) : Prop := t.engState e = engFenced ∧ (t.engine e).tasks = [] ∧
      (t.engine e).fenced = (s.engine e).fenced ++ (s.engine e).tasks
    fenced (s.windowError e) ∧ fenced (s.fenceEngine e (engineErrorCode .scratchParity)))

/-- R60, R61, R62: slot writes; a read of PLAN_RESULT snapshots the inputs and waits, or is answered BUSY while a plan of the
slot runs; at the latch the outputs change together under the next SEQ and the read is answered, with the reads of the
outputs held since; a read dropped after 12 µs is answered BUSY.
R60, R61: a read that does not cover PLAN_RESULT returns what the slot holds, or is held where it asks for an output while a
plan is in progress. -/
def Obligations.PlanPort : Prop :=
  ∀ (s : State) (f slot off len lat v : Nat), f < 64 → slot < (if f = 0 then 128 else 8) → off ≤ 128 → 128 < off + len →
    off + len ≤ 4096 → off % 64 + len ≤ 64 → v < 2 ^ 32 →
    let x := s.planSlot f slot
    let busy := Out.data f (x.bytes (0x50 + 2 ^ 24 * x.seq) off len)
    (s.hostReady f = true → exec (.planSlotWrite f slot 0 (leBytes 4 v) false) s =
      .next ((s.received 4).setPlanSlot f slot { x with profile := v % 256 })) ∧
    (s.hostReady f = true → x.running = none → s.quiesced = false → (s.profile x.profile).isSome = true →
      exec (.planResultRead f slot off len lat) s = .next (s.setPlanSlot f slot { x with
        running := some { profile := x.profile, present := x.present, wanted := x.wanted, off, len } })) ∧
    (s.hostReady f = true → x.running.isSome = true → s.linkHeld = false → ∃ t, exec (.planResultRead f slot off len lat) s = .next t ∧
      s.sends t busy ∧ t = s.signals t ∧ State.regsExcept (.ripPlanBusyCount :: .ripPlanMaxlatMaxlat :: signalRegs) s t) ∧
    (∀ r p, x.running = some r → s.profile r.profile = some p → s.linkHeld = false →
      ∃ t, exec (.planLatch f slot lat) s = .next t ∧
        (let pl := p.planMaps r.present r.wanted
         (t.planSlot f slot).result = pl.result (x.seq + 1) ∧ (t.planSlot f slot).sched = pl.sched p ∧
         s.sends t (.data f ((t.planSlot f slot).bytes (pl.result (x.seq + 1)) r.off r.len)) ∧
         ∀ h ∈ x.held, s.sends t (.data f ((t.planSlot f slot).bytes (pl.result (x.seq + 1)) h.1 h.2))) ∧
        (t.planSlot f slot).running = none ∧ (t.planSlot f slot).held = [] ∧
        t = { s.signals t with planSlots := t.planSlots } ∧
        State.regsExcept (.ripPlansCount :: .ripPlanMaxlatMaxlat :: signalRegs) s t) ∧
    (∀ r, x.running = some r → r.off = off → r.len = len → s.linkHeld = false →
      ∃ t, exec (.planLaneTimeout f slot lat) s = .next t ∧ s.sends t busy ∧
        t.planSlot f slot = { x with running := none, held := [] } ∧ t = { s.signals t with planSlots := t.planSlots } ∧
        State.regsExcept (.ripPlanBusyCount :: .ripPlanMaxlatMaxlat :: signalRegs) s t) ∧
    (∀ o n, o < 4096 → o % 64 + n ≤ 64 → ¬(o ≤ 128 ∧ 128 < o + n) → s.hostReady f = true →
      (x.running = none ∨ planOutputs o n = false →
        exec (.planResultRead f slot o n lat) s = .next (s.reply (.data f (x.bytes x.result o n)))) ∧
      (x.running.isSome = true → planOutputs o n = true →
        exec (.planResultRead f slot o n lat) s = .next (s.setPlanSlot f slot { x with held := x.held ++ [(o, n)] })))

/-- R255, R256: one tick refills every port bucket by EFF up to BURST, and every admitted group's bucket by G_EFF up to a
tenth of a window's refill, never less than 2 tokens.
R101, R255, R256, R271: the head of a port leaves for its tokens when the port holds one, RT without any; a head that
lacks a token, or whose engine has 64 line reads out, stays; WEIR_PORT_LINES counts the units released; an admitted group's
token is taken when its bucket holds it; a read stores nothing.
R252, R270: an RT request stands before every other of its port, and takes the function's posted writes ahead of it with it.
R223: a zero-length BAR2 read is answered when it reaches the head. -/
def Obligations.WeirTokens : Prop :=
  (∀ s : State, ∃ t, exec .weirTick s = .next t ∧
     (∀ p < 59, t.portBucket p = min (s.portBucket p + s.get .weirPortEffEff p) (s.get .weirPortBurstBurst p * 256)) ∧
     (∀ g < 65, t.grpBucket g = if s.flag .weirGrpCfgAdmitted g then
       min (s.grpBucket g + s.get .weirGrpEffGEff g) (max (s.get .weirGrpEffGEff g * 256 / 160) 512) else s.grpBucket g) ∧
     t = { s.signals t with weirs := { s.weirs with bucket := t.weirs.bucket, grpBucket := t.weirs.grpBucket } } ∧
     State.regsExcept (.weirPortHeldCount :: signalRegs) s t) ∧
  (∀ (s : State) (p : Nat) (r : PortReq), p < 59 → s.portHead p = some r →
     (r.op = .fence → exec (.weirRelease p) s = .next
       (({ s with weirs := { s.weirs with queue := s.weirs.queue.erase r } } : State).reply (.data r.group (zeros 4)))) ∧
     (r.op ≠ .fence → s.heldForToken r = true ∨ s.portClosed r = true → exec (.weirRelease p) s = .next s) ∧
     (r.op ≠ .fence → s.heldForToken r = false → s.portClosed r = false → ∃ t, exec (.weirRelease p) s = .next t ∧
       (r.packet = none → t.weirs.queue = s.weirs.queue.erase r) ∧
       (r.rt = true ∨ s.inheritsRt r = true → t.portBucket p = s.portBucket p ∧ t.weirs.grpBucket = s.weirs.grpBucket) ∧
       (r.rt = false → r.round = false → r.sched = false → s.inheritsRt r = false →
         t.portBucket p = s.portBucket p - 256 * r.units ∧
         (s.flag .weirGrpCfgAdmitted r.group = true → 256 * r.units ≤ s.grpBucket r.group →
           t.grpBucket r.group = s.grpBucket r.group - 256 * r.units)) ∧
       (∀ q, q ≠ p → t.portBucket q = s.portBucket q) ∧ (∀ g, g ≠ r.group → t.grpBucket g = s.grpBucket g) ∧
       t.get .weirPortLinesCount p = (s.get .weirPortLinesCount p + r.units) % 2 ^ FN.weirPortLinesCount.width ∧
       t = { s.signals t with
         weirs := { s.weirs with queue := t.weirs.queue, bucket := t.weirs.bucket, grpBucket := t.weirs.grpBucket }
         pcie := { s.pcie with held := t.pcie.held, replies := t.pcie.replies }
         lake := t.lake, dram := t.dram, packs := t.packs, collector := t.collector } ∧
       (r.op = .read → s.sameMemory t))) ∧
  (∀ (s : State) (p : Nat) (r : PortReq), p < 59 → s.portHead p = some r → r ∈ s.weirs.queue ∧ r.port = p ∧
     (∀ x ∈ s.weirs.queue, x.port = p → x.rt = true → s.fenced x = false → s.portRt r = true))

/-- R259: one latency sample moves AVG by a 256th of the difference; AVG is reported in whole units and saturates.
R260: the promoted request, BEST_EFFORT until then, has priority 4 where it stands, in its PC's queue or held at its slice;
WEIR_GRP_AGED counts it.
R264, R267, R268: at every window boundary D_NOM counts 29.0 GB/s for each live PC, G_EFF of every admitted group is its
G_RATE scaled by SCALE and 0 for the others, and EFF of every port is its RATE, times the clamp's fraction on the ports the
clamp acts on. -/
def Obligations.WeirWindows : Prop :=
  (∀ (s : State) (g sample : Nat), g < 65 → ∃ t, exec (.latencySample g sample) s = .next t ∧
     (t.avg256 g : Int) = max 0 ((s.avg256 g : Int) + ((sample : Int) * 256 - s.avg256 g) / 256) ∧
     t.get .weirGrpLatavgAvg g = min 65535 (t.avg256 g / 256) ∧ (∀ h, h ≠ g → t.avg256 h = s.avg256 h) ∧
     t = { s.signals t with weirs := { s.weirs with avg := t.weirs.avg } } ∧
     State.regsExcept (.weirGrpLatavgAvg :: signalRegs) s t) ∧
  (∀ (s : State) (p : Nat) (pre post : List DramReq) (r : DramReq), p < 64 → s.dram.queue = pre ++ r :: post → r.pc = p →
     r.rt = false → r.guar = false → r.prio = 0 → r.aged = false → r.group < 65 →
     ∃ t, exec (.agePromote p (pre.filter (·.pc == p)).length) s = .next t ∧
       t = { s.signals t with dram := { s.dram with queue := pre ++ { r with prio := 4, aged := true } :: post } } ∧
       t.get .weirGrpAgedCount r.group = (s.get .weirGrpAgedCount r.group + 1) % 2 ^ 32 ∧
       State.regsExcept (.weirGrpAgedCount :: signalRegs) s t) ∧
  (∀ (s : State) (p : Nat) (pre post : List PortReq) (r : PortReq), p < 64 →
     (∀ d ∈ s.dram.queue ++ s.dram.waiting ++ s.dram.held, d.pc ≠ p) → s.lake.held = pre ++ r :: post → r.pc = p →
     r.rt = false → r.guar = false → r.prio = 0 → r.aged = false → r.group < 65 →
     ∃ t, exec (.agePromote p (pre.filter (·.pc == p)).length) s = .next t ∧
       t = { s.signals t with lake := { s.lake with held := pre ++ { r with prio := 4, aged := true } :: post } } ∧
       t.get .weirGrpAgedCount r.group = (s.get .weirGrpAgedCount r.group + 1) % 2 ^ 32 ∧
       State.regsExcept (.weirGrpAgedCount :: signalRegs) s t) ∧
  (∀ s : State, ∃ t, exec .weirWindowBoundary s = .next t ∧
     t.get .weirDnomD = ((List.range 64).filter (fun p => decide (s.get .drcPcStateState p < 4))).length * 7250 ∧
     (∀ g < 65, t.get .weirGrpEffGEff g =
       if t.flag .weirGrpCfgAdmitted g then t.get .weirGrpRateGRate g * t.get .weirScaleScale / 1024 % 2 ^ 20 else 0) ∧
     (∀ p < 59, t.get .weirPortEffEff p =
       if clampPort p && (s.tstate == 2 || s.flag .pwrStatusCapped) then
         s.get .weirPortRateRate p * (((s.applyB .thmCtrlTf).applyB .pwrCapPtf).clampNow.getD 16) / 16 % 2 ^ 20
       else s.get .weirPortRateRate p) ∧
     t.weirs.pendAdmit = [] ∧ t = { s.signals t with inForce := t.inForce, weirs := { s.weirs with pendAdmit := [] } })

/-! ### Stack memory and the Lake (09_stack_memory.md, 10_onchip.md) -/

/-- R215, R218, R219: an ACTIVE PC's free bank issues an urgent refresh before all else, then a targeted refresh once its
activates reach RFM_TH and no RT request waits for it, then the picked request, which leaves the queue; a PC that is not
ACTIVE issues nothing. -/
def Obligations.ControllerArbitrate : Prop :=
  ∀ (s : State) (p b : Nat), p < 64 → b < 32 →
    (s.get .drcPcStateState p ≠ 0 → exec (.controllerArbitrate p b) s = .next s) ∧
    (s.get .drcPcStateState p = 0 → s.laneHold p = false →
      ((s.bank p b).urgent = true → ∃ t, exec (.controllerArbitrate p b) s = .next t ∧
        (t.bank p b).debt = (s.bank p b).debt - 1 ∧ (t.bank p b).openRow = none ∧
        ((t.bank p b).urgent = true ↔ 4 < (t.bank p b).debt) ∧
        t.get .drcPcRefsCount p = (s.get .drcPcRefsCount p + 1) % 2 ^ FN.drcPcRefsCount.width ∧
        t.dram.queue = s.dram.queue ∧ (∀ q c, c < 32 → (q, c) ≠ (p, b) → t.bank q c = s.bank q c)) ∧
      ((s.bank p b).urgent = false → s.dram.queue.any (fun r => r.pc == p && r.bank == b && s.effRt r) = false →
        s.get .drcRfmRfmTh ≤ (s.bank p b).acts → ∃ t, exec (.controllerArbitrate p b) s = .next t ∧
        (t.bank p b).acts = 0 ∧ t.get .drcPcRfmCount p = (s.get .drcPcRfmCount p + 1) % 2 ^ FN.drcPcRfmCount.width ∧
        t.dram.queue = s.dram.queue) ∧
      (∀ r : DramReq, (s.bank p b).urgent = false → (s.bank p b).acts < s.get .drcRfmRfmTh → s.dram.queue = [r] → r.pc = p →
        r.bank = b → s.dram.waiting = [] →
        ∃ t, exec (.controllerArbitrate p b) s = .next t ∧ t.dram.queue = [] ∧
          (t.bank p b).openRow = none ∧
          (t.bank p b).acts = if (s.bank p b).openRow = some r.row then (s.bank p b).acts else (s.bank p b).acts + 1))

/-- R218, R219, R221: a refresh that is due at a bank with no queued request is issued at once, so its debt stands as before;
where requests wait it is postponed, the debt rises by one and PPMAX records it; a channel in self-refresh refreshes itself,
at the rate of its own temperature. The end of a refresh window clears
activate counts and trackers of the PC's banks and of no other.
R221, R222: an idle channel with SR_AUTO enters self-refresh (STATE 1), resides in it (STATE 2), starts to leave it when
the residency has ended and a request is held then or arrives later (STATE 3), and is ACTIVE again with every refresh debt
0. -/
def Obligations.Refresh : Prop :=
  (∀ (s : State) (p b : Nat), p < 64 → b < 32 → s.get .drcPcStateState p ≠ 0 → s.pcGone p = false →
     exec (.refreshDue p b) s = .next (s.applyRate p)) ∧
  (∀ (s : State) (p b : Nat), p < 64 → b < 32 → s.get .drcPcStateState p = 0 →
     (s.dram.queue.any (fun r => r.pc == p && r.bank == b) = false → s.laneHold p = false →
       ∃ t, exec (.refreshDue p b) s = .next t ∧ (t.bank p b).debt = (s.bank p b).debt ∧ (t.bank p b).openRow = none ∧
         t.get .drcPcRefsCount p = (s.get .drcPcRefsCount p + 1) % 2 ^ FN.drcPcRefsCount.width) ∧
     (s.dram.queue.any (fun r => r.pc == p && r.bank == b) = true → (s.bank p b).debt < 8 →
       ∃ t, exec (.refreshDue p b) s = .next t ∧ (t.bank p b).debt = (s.bank p b).debt + 1 ∧
         (t.bank p b).urgent = (s.bank p b).urgent ∧ t.get .drcPcRefsCount p = s.get .drcPcRefsCount p ∧
         t.get .drcPcPpmaxMax p =
           max (s.get .drcPcPpmaxMax p) (min (FN.max .drcPcPpmaxMax) ((s.bank p b).debt + 1).toNat)) ∧
     (∃ t, exec (.trefwEnd p) s = .next t ∧ (∀ c < 32, (t.bank p c).acts = 0 ∧ (t.bank p c).tracker = [] ∧
         (t.bank p c).debt = (s.bank p c).debt ∧ (t.bank p c).openRow = (s.bank p c).openRow) ∧
       (∀ q c, c < 32 → q ≠ p → t.bank q c = s.bank q c) ∧ t = { s with dram := { s.dram with banks := t.dram.banks } })) ∧
  (∀ (s : State) (c : Nat), c < 32 → s.channelPcs c = [2 * c, 2 * c + 1] →
     let both (u : State) (st : Nat) := u.get .drcPcStateState (2 * c) = st ∧ u.get .drcPcStateState (2 * c + 1) = st
     (both s 0 → s.flag .drcCtrlSrAuto = true → s.dram.queue.any (fun r => r.pc / 2 == c && !r.write) = false →
       ∃ t, exec (.srIdleExpire c) s = .next t ∧ both t 1 ∧
         t.get .drcPcSrCount (2 * c) = (s.get .drcPcSrCount (2 * c) + 1) % 2 ^ FN.drcPcSrCount.width) ∧
     (both s 1 → ∃ t, exec (.srEntryDone c) s = .next t ∧ both t 2) ∧
     (both s 2 → assoc s.dram.srCause c = some .idle → s.dram.held.any (fun r => r.pc / 2 == c) = true →
       ∃ t, exec (.srResidencyEnd c) s = .next t ∧ both t 3 ∧
         t = { s with regs := t.regs, dram := { s.dram with srOver := t.dram.srOver } } ∧
         State.regsExcept [.drcPcStateState] s t) ∧
     (both s 2 → assoc s.dram.srCause c = some .idle → s.dram.held.any (fun r => r.pc / 2 == c) = false →
       ∃ t, exec (.srResidencyEnd c) s = .next t ∧ both t 2 ∧
         t = { s with dram := { s.dram with srOver := t.dram.srOver } } ∧
         ∀ r : DramReq, r.pc / 2 = c → both (t.submit r) 3 ∧ (t.submit r).dram.held = s.dram.held ++ [r]) ∧
     (both s 3 → s.dram.held = [] → ∃ t, exec (.srExitDone c) s = .next t ∧ both t 0 ∧
       (∀ p ∈ [2 * c, 2 * c + 1], ∀ b < 32, (t.bank p b).debt = 0 ∧ (t.bank p b).urgent = false)))

/-- R229: a read that hits a VALID sector makes no line request and changes no data; a write that hits one merges its bytes
there and marks the sector VALID and DIRTY, for the BAR2 port with no request to the controller.
R17: a request for a PC of a quadrant that is off starts its wake and is held, and counts in PWR_HELD; when the wake
ends, the quadrant reads ON and nothing of it is held.
R101, R111: a read of an engine that is not online, or that has 64 line reads out, is not accepted.
R230: the acknowledgement of a durable write: the sector's data is in the array, and the sector stays VALID and clean. -/
def Obligations.LakeAccesses : Prop :=
  (∀ (s : State) (g p a : Nat) (l : LakeLine) (bytes : List Byte), g < 65 → p < 64 → a < pcBytes → s.lakeFind p a = some l →
     (l.sector (lakeSector a)).valid = true → s.quadReady p = true → 0 < bytes.length → a % 64 + bytes.length ≤ 64 →
     (∀ port < 59, ∃ t, exec (.lakeRequest port g p a .read) s = .next t ∧ t.lake.lines = s.lake.lines ∧
       t = { s.signals t with lake := { s.lake with plru := t.lake.plru, lastPort := t.lake.lastPort } } ∧
       State.regsExcept signalRegs s t) ∧
     (s.pcGone p = false → ∃ t, exec (.lakeRequest 54 g p a (.write bytes false)) s = .next t ∧
       (∃ l' ∈ t.lake.lines, l'.slice = l.slice ∧ l'.set = l.set ∧ l'.way = l.way ∧ l'.tag = l.tag ∧
         l'.sector (1 - lakeSector a) = l.sector (1 - lakeSector a) ∧
         l'.sector (lakeSector a) =
           { valid := true, dirty := true, poison := (l.sector (lakeSector a)).poison && bytes.length != 64,
             data := mergeBytes (l.sector (lakeSector a)).data (a % 64) bytes }) ∧
       t = { s.signals t with
         lake := { s.lake with lines := t.lake.lines, plru := t.lake.plru, lastPort := t.lake.lastPort } } ∧
       State.regsExcept signalRegs s t)) ∧
  (∀ (s : State) (g p a q : Nat), g < 65 → p < 64 → a < pcBytes → q < 4 →
     (s.quadReady p = false → ∀ port < 59, (port < 48 → s.engOnline port = true ∧ s.readsOut port < 64) →
       ∃ t, exec (.lakeRequest port g p a .read) s = .next t ∧ t.lake.held = s.lake.held ++
         [{ port, group := lakeGroup port g, rt := port == 54, units := 1, pc := p, a, op := .read }] ∧ t.lake.waking.contains (p / 16) = true ∧
       t.lake.lines = s.lake.lines ∧ t.dram = s.dram ∧
       t.get .pwrHeldCount (54 + p / 16) = min (FN.max .pwrHeldCount) (s.get .pwrHeldCount (54 + p / 16) + 1)) ∧
     (∀ port < 48, s.engOnline port = false ∨ 64 ≤ s.readsOut port → exec (.lakeRequest port g p a .read) s = .next s) ∧
     (s.lake.waking.contains q = true → s.lake.held = [] → s.lake.decodes = [] →
       ∃ t, exec (.lakeQuadWakeDone q) s = .next t ∧ bitAt (t.get .lakeStatusQuadOn) q = true ∧
         t.get .pwrDomState (54 + q) = 2 ∧ t.lake.waking.contains q = false ∧
         (∀ r < 4, r ≠ q → bitAt (t.get .lakeStatusQuadOn) r = bitAt (s.get .lakeStatusQuadOn) r) ∧
         t = { s with regs := t.regs, lake := { s.lake with waking := t.lake.waking } } ∧
         State.regsExcept [.lakeStatusQuadOn, .pwrDomState] s t)) ∧
  (∀ (s : State) (p a : Nat) (l : LakeLine), p < 64 → a < pcBytes → s.lake.lines = [l] → l.slice = p → l.set = lakeSet a →
     l.tag = lakeTag a → (l.sector (lakeSector a)).dirty = true → s.pcGone p = false →
     ∃ t l', exec (.durableWriteAck p a) s = .next t ∧ t.lake.lines = [l'] ∧
       l'.sector (lakeSector a) = { (l.sector (lakeSector a)) with dirty := false } ∧
       Mem.readN 0 t.dram.mem (memKey p (a / 64 * 64)) 64 = fitBytes 64 (l.sector (lakeSector a)).data ∧
       (∀ k, k < memKey p (a / 64 * 64) ∨ memKey p (a / 64 * 64) + 64 ≤ k →
         Mem.read 0 t.dram.mem k = Mem.read 0 s.dram.mem k) ∧
       t = { s.signals t with lake := { s.lake with lines := t.lake.lines, wbuf := t.lake.wbuf }
                              dram := { s.dram with mem := t.dram.mem, poison := t.dram.poison, uncorr := t.dram.uncorr } } ∧
       State.regsExcept signalRegs s t)

/-- R212, R213, R225: EN of a basin that meets the conditions takes the written value, effective at its boundary, which waits
while the owner uses the basin; a basin that does not is rejected with CFG_REJECT; enabled under another owner than the recorded one, it is zero-filled, and its lines read
0 when the fill is done. -/
def Obligations.Basins : Prop :=
  ∀ (s : State) (b : Nat), b < 64 → s.flag .drcBasinCfgJournal b = false →
    (s.hostReady 0 = true → s.flag .drcBasinCfgEn b = false →
      exec (.basinEnWrite b true) s = .next (
        if s.basinOk s.vfCount (fun c => s.flag .drcBasinCfgEn c) s.pcGone b then (s.received 4).setB .drcBasinCfgEn 1 b
        else ((s.received 4).set .drcStatusCfgReject 1).raise evDrcCfgReject 0xFF b)) ∧
    (s.hostReady 0 = true → s.flag .drcBasinCfgEn b = true →
      exec (.basinEnWrite b false) s = .next ((s.received 4).setB .drcBasinCfgEn 0 b)) ∧
    (s.basinBusy b = true → exec (.basinEnableEffect b) s = .next s) ∧
    (s.basinBusy b = false → s.flag .drcBasinCfgEn b = true → s.eff .drcBasinCfgEn b = 0 → s.basinOwner b ≠ none →
      s.basinOwner b ≠ some (s.get .drcBasinCfgOwner b) →
      ∃ t, exec (.basinEnableEffect b) s = .next t ∧ b ∈ t.dram.filling ∧ t.flag .drcStatusZeroing = true ∧
        t.eff .drcBasinCfgEn b = 1 ∧ t.dram.mem = s.dram.mem) ∧
    (s.dram.filling.contains b = true → ∃ t, exec (.basinFillDone b) s = .next t ∧ b ∉ t.dram.filling ∧
      t.basinOwner b = some (s.get .drcBasinCfgOwner b) ∧
      (∀ p a, p < 64 → a < pcBytes → bitAt (s.basinMask b) p = true → s.get .drcBasinLocLbase b * 65536 ≤ a →
        a < (s.get .drcBasinLocLbase b + s.get .drcBasinLocExt b) * 65536 → Mem.read 0 t.dram.mem (memKey p a) = 0) ∧
      (∀ p a, p < 64 → a < pcBytes → bitAt (s.basinMask b) p = false →
        Mem.read 0 t.dram.mem (memKey p a) = Mem.read 0 s.dram.mem (memKey p a)) ∧
      t = { s with regs := t.regs, dram := t.dram, lake := t.lake } ∧ State.regsExcept [.drcStatusZeroing] s t)

/-! ### Integrity (12_integrity.md) -/

/-- R277, R278: a demand read of a line fills the owning sector with the decode and marks nothing on a CLEAN one; a CORRECTED
one counts in CE, an UNCORRECTABLE one counts in UE and poisons the sector; the array itself is never rewritten; a RETIRED
or FAILED PC reads nothing.
R17: while the slice's quadrant is off, the read is held and the quadrant wakes. -/
def Obligations.LineDecode : Prop :=
  ∀ (s : State) (f p a : Nat) (e1 e2 : List Byte) (l : LakeLine), f < 64 → p < 64 → a < pcBytes → e1.length = 72 →
    e2.length = 72 → s.lakeFind p a = some l → (l.sector (lakeSector a)).dirty = false →
    s.buffered p a = false →
    let r := s.decodeLine p a e1 e2
    (s.quadReady p = false → ∃ t, exec (.lineDecode f p a e1 e2) s = .next t ∧
      t.lake.decodes = s.lake.decodes ++ [.lineDecode f p a e1 e2] ∧ t.lake.waking.contains (p / 16) = true ∧
      t.lake.lines = s.lake.lines ∧ t.dram = s.dram) ∧
    (s.quadReady p = true → s.pcGone p = true → exec (.lineDecode f p a e1 e2) s = .next s) ∧
    (s.quadReady p = true → s.pcGone p = false → ∃ t, exec (.lineDecode f p a e1 e2) s = .next t ∧ t.dram.mem = s.dram.mem ∧
      (∃ l' ∈ t.lake.lines, l'.slice = l.slice ∧ l'.set = l.set ∧ l'.way = l.way ∧ (l'.sector (lakeSector a)).data = r.data ∧
        (l'.sector (lakeSector a)).poison = (r.outcome == .poisoned || r.outcome == .uncorrectable)) ∧
      (r.outcome = .clean → t = { s with lake := { s.lake with lines := t.lake.lines } }) ∧
      (r.outcome = .corrected → t.get .integPcCeCount p = min (FN.max .integPcCeCount) (s.get .integPcCeCount p + 1) ∧
        lineKey p a ∈ t.dram.corrected) ∧
      (r.outcome = .uncorrectable → t.get .integPcUeCount p = min (FN.max .integPcUeCount) (s.get .integPcUeCount p + 1) ∧
        t.get .lakePoisonSetCount = if (l.sector (lakeSector a)).poison then s.get .lakePoisonSetCount
          else min (FN.max .lakePoisonSetCount) (s.get .lakePoisonSetCount + 1)))

/-- R280, R282: a waiting lane shift starts in the PC's maintenance slot; when the slot ends, the failed lane's TSV stands in
the bad list, one spare fewer is left, and SHIFTS counts it; VLK_SHIFT_REQ queues a shift while a spare is left that no
repair under way takes.
R284: a CA parity error below the thresholds only counts in the window of LANE_WIN.
R14, R23: a failed forwarded clock puts both PCs of its channel in STATE FAILED, RETIRED ones aside, and leaves every
other PC's STATE; its slices hold no line any more; its report is of class U. -/
def Obligations.LanesAndClocks : Prop :=
  (∀ (s : State) (p lane : Nat), p < 64 → lane < 72 →
     let r : LaneRepair := { ca := false, unit := p, lane, tsv := tsvOfLane 76 (s.badTsvs p) lane }
     (s.vlink.waiting = [r] → s.slotMayStart (p / 2) [p] = true → exec (.laneShift p) s =
       .next { s with vlink := { s.vlink with waiting := [], running := s.vlink.running ++ [r] } }) ∧
     (s.vlink.running = [r] → (s.badTsvs p).length < 4 → ∃ t, exec (.laneShiftDone p) s = .next t ∧ t.vlink.running = [] ∧
       tsvOfLane 76 (s.badTsvs p) lane ∈ t.badTsvs p ∧ (∀ x ∈ s.badTsvs p, x ∈ t.badTsvs p) ∧
       t.get .vlkPcSpares p = 4 - ((s.badTsvs p).length + 1) ∧
       t.get .vlkPcShifts p = min (FN.max .vlkPcShifts) (s.get .vlkPcShifts p + 1)) ∧
     (s.hostReady 0 = true → s.pcGone p = false → lane ∉ s.erased p → s.repairing false p lane = false →
       (s.repairs false p).length < s.get .vlkPcSpares p → s.shiftedLately p lane = false → exec (.vlkShiftReq (BitVec.ofNat 32 (2 ^ 31 + lane * 2 ^ 8 + p))) s =
         .next { s.received 4 with vlink := { s.vlink with waiting := s.vlink.waiting ++ [r] } })) ∧
  (∀ (s : State) (c lane row : Nat), c < 32 → lane < 24 → row < 49152 →
     let l := s.vlink.caErr.filter (fun x => s.timer < x.2.2.2 + s.laneWin) ++ [(c, lane, row, s.timer)]
     s.laneFaulty l c lane = false →
     exec (.caParityError c lane row) s = .next { s with vlink := { s.vlink with caErr := l } }) ∧
  (∀ (s : State) (c : Nat), c < 32 → ∃ t, exec (.forwardedClockFail c) s = .next t ∧
     (∀ p ∈ [2 * c, 2 * c + 1], s.get .drcPcStateState p < 4 → t.get .drcPcStateState p = 5) ∧
     (∀ p ∈ [2 * c, 2 * c + 1], s.get .drcPcStateState p = 4 → t.get .drcPcStateState p = 4) ∧
     (∀ p, p / 2 ≠ c → p < 64 → t.get .drcPcStateState p = s.get .drcPcStateState p) ∧
     (s.get .drcPcStateState (2 * c) < 4 → ∀ l ∈ t.lake.lines, l.slice / 2 ≠ c) ∧
     (s.get .drcPcStateState (2 * c) < 4 → s.railIgnored (evChErr c) = false →
       t.get .fltCntUCount = min (FN.max .fltCntUCount) (s.get .fltCntUCount + 1)))

/-- R289: a row retirement with a free spare row enters the repair record as a PENDING entry and is BUSY; its copy, made in
a maintenance slot, ends it with RESULT 0 and the remap in force. A second one meanwhile is refused with RESULT 6.
R290: a PC that no enabled basin names is RETIRED by the command, with its bit in the retired mask and RESULT 0; one
that an enabled basin names is refused with RESULT 2 and changes nothing else. -/
def Obligations.Retirement : Prop :=
  (∀ (s : State) (v : Word) (k : Nat), s.hostReady 0 = true → v.getLsbD 31 = true → v.toNat / 2 ^ 16 % 4 = 1 →
     let p := v.toNat % 64
     let bank := v.toNat / 2 ^ 6 % 4 * 8 + v.toNat / 2 ^ 8 % 8
     (s.flag .integRetStatusBusy = true → exec (.rowRetire v true) s =
       .next (((s.received 4).set .integRetStatusResult 6).set .integStatusRetReject 1)) ∧
     (s.flag .integRetStatusBusy = false → s.get .integRetRowRow < 49152 → s.pcGone p = false → s.sparesTaken p bank = [] →
       s.repairFree = some k → ∃ t, exec (.rowRetire v true) s = .next t ∧ t.flag .integRetStatusBusy = true ∧
         t.get .integRetStatusSpare = 0 ∧
         (∃ e : RepairEntry, t.retire.running = some e ∧ e.active = false ∧ e.unit = p ∧ e.bank = bank ∧
           e.row = s.get .integRetRowRow ∧ e.spare = 0 ∧ t.flashBytes (repairAddr k) 16 = e.bytes) ∧
         (∀ a, a < repairAddr k ∨ repairAddr k + 16 ≤ a → t.flashBytes a 1 = s.flashBytes a 1) ∧
         State.regsExcept [.integRetStatusBusy, .integRetStatusSpare] s t) ∧
     (∀ (u : State) (e : RepairEntry), u.retire.running = some e → u.slotMayStart (e.unit / 2) [e.unit] = true →
       ∃ t, exec .rowCopy u = .next t ∧ t.flag .integRetStatusBusy = false ∧ t.get .integRetStatusResult = 0 ∧
         t.retire.running = none ∧ t.retire.copied = u.retire.copied ++ [e.seq] ∧
         t.dram.remaps = u.dram.remaps ++ [(e.unit, e.bank, e.row, e.spare)] ∧
         (∀ a, Mem.read 0 t.dram.mem a = Mem.read 0 u.dram.mem a) ∧
         (∀ col < 16, let key := lineKey e.unit (addrOfRow (e.bank / 8) (e.bank % 8) e.row col)
           assoc u.retire.reads key = some true → key ∈ t.dram.poison))) ∧
  (∀ (s : State) (v : Word), s.hostReady 0 = true → v.getLsbD 31 = true → v.toNat / 2 ^ 16 % 4 = 2 →
     s.flag .integRetStatusBusy = false → s.get .drcPcStateState (v.toNat % 64) ≠ 4 →
     let p := v.toNat % 64
     ((∀ b < 64, s.flag .drcBasinCfgEn b = true → bitAt (s.basinMask b) p = false) → s.repairFree.isSome = true →
       ∃ t, exec (.pcRetire v true) s = .next t ∧ t.get .drcPcStateState p = 4 ∧
         bitAt (t.get64 .drcRetiredLoMask .drcRetiredHiMask) p = true ∧ t.get .integRetStatusResult = 0) ∧
     ((∃ b < 64, s.flag .drcBasinCfgEn b = true ∧ bitAt (s.basinMask b) p = true ∧ s.flag .drcBasinCfgJournal b = false) →
       exec (.pcRetire v true) s = .next (((s.received 4).set .integRetStatusResult 2).set .integStatusRetReject 1)))

/-- R285, R286: Dredge takes the next 1 MiB piece of a pass; a line that decodes CORRECTED, with no copy in its slice, is
written back to the array as decoded, and no other byte of the array changes.
R286, R287, R288: GO starts a register pass over a range within the stack and refuses any other with DR_OVERRUN; STOP
ends it; at its end DR_BUSY clears and the sixteen summary registers hold the summary; a round that has covered its range
leaves CURSOR where it stopped and counts in ROUNDS. -/
def Obligations.Dredge : Prop :=
  (∀ (s : State) (p : Pass) (e1 e2 : List Byte), s.dredge.passes = [p] → p.kind = .register → p.stopped = false →
     e1.length = 72 → e2.length = 72 →
     (s.dredge.current = none → s.working = true → p.done < p.length → exec .dredgePiece s = .next { s with
       dredge := { s.dredge with passes := [{ p with piece := min p.length (p.done + 1048576) }]
                                 current := some .register, last := some .register } }) ∧
     (s.dredge.current = some .register → p.done < p.piece → s.pcGone (s.passLine p).1 = false →
       s.lakeFind (s.passLine p).1 (s.passLine p).2 = none →
       (s.decodeLine (s.passLine p).1 (s.passLine p).2 e1 e2).outcome = .corrected →
       ∃ t, exec (.dredgeLine e1 e2) s = .next t ∧
         t.dredge.passes = [{ p with done := p.done + 64, lines := p.lines + 1, corrected := p.corrected + 1 }] ∧
         (let key := memKey (s.passLine p).1 ((s.passLine p).2 / 64 * 64)
          Mem.readN 0 t.dram.mem key 64 = fitBytes 64 (s.decodeLine (s.passLine p).1 (s.passLine p).2 e1 e2).data ∧
          ∀ k, k < key ∨ key + 64 ≤ k → Mem.read 0 t.dram.mem k = Mem.read 0 s.dram.mem k))) ∧
  (∀ (s : State) (p : Pass),
     let ofs := s.get .integDrOfsLoOfs * 64 + s.get .integDrOfsHiOfs * 2 ^ 32
     let len := s.get .integDrLenLoLen * 64 + s.get .integDrLenHiLen * 2 ^ 32
     (s.hostReady 0 = true → s.dredge.passes = [] → 0 < len → ofs + len ≤ stackBytes → ∃ t, exec .dredgeGo s = .next t ∧
       t.flag .integStatusDrBusy = true ∧ (∃ q, t.dredge.passes = [q] ∧ q.kind = .register ∧ q.offset = ofs ∧
         q.length = len ∧ q.done = 0) ∧ State.regsExcept [.integStatusDrBusy] s t) ∧
     (s.hostReady 0 = true → len = 0 ∨ stackBytes < ofs + len →
       exec .dredgeGo s = .next ((s.received 4).set .integStatusDrOverrun 1)) ∧
     (s.hostReady 0 = true → s.dredge.passes = [p] → p.kind = .register → ∃ t, exec .stop s = .next t ∧
       t.dredge.passes = [{ p with stopped := true }] ∧ t.dredge.current ≠ some .register ∧
       t = { s.received 4 with dredge := { s.dredge with passes := t.dredge.passes, current := t.dredge.current } }) ∧
     (s.dredge.passes = [p] → p.kind = .register → p.stopped = true ∨ p.length ≤ p.done →
       ∃ t, exec .integDredgeDone s = .next t ∧ t.dredge.passes = [] ∧ t.flag .integStatusDrBusy = false ∧
         (∀ w < 16, t.get .integDrSumData w = fieldAt (passSummary p s.timer) (4 * w) 4)) ∧
     (s.dredge.passes = [p] → p.kind = .round → p.length ≤ p.done → s.dredge.owedFor = none →
       ∃ t, exec .dredgeRoundDone s = .next t ∧ t.dredge.passes = [] ∧ t.drCursor = (p.offset + p.done) % stackBytes ∧
         t.get .integDrRoundsCount = (s.get .integDrRoundsCount + 1) % 2 ^ 32 ∧ t.flag .integStatusBehind = false))

/-! ### Heat, power and calibration (13_thermal_power.md) -/

/-- R295, R296: a sample in the sensor's range is what the sensor's register reads, and MEAS of its layer is the highest
reading of the layer's working sensors.
R305, R306: an update puts the model's value, of the layer's activity since the last one, in MODEL of every layer L1 to L17;
nothing measured changes in a layer with a working sensor. -/
def Obligations.Temperatures : Prop :=
  (∀ (s : State) (k v : Nat), s.boot.aux = true → s.boot.run = none → k < 88 → v < 2 ^ 16 → -320 ≤ sint16 v → sint16 v ≤ 1200 →
     s.flag .thmSensFailed k = false → s.flag .thmSensStale k = false →
     ∃ t, exec (.sensorSample (sensorLayer k) [{ sensor := k, value := some v }]) s = .next t ∧ t.get .thmSensTemp k = v ∧
       (∀ j, j ≠ k → j < 88 → t.get .thmSensTemp j = s.get .thmSensTemp j) ∧
       (∀ j ∈ t.workingSensors (sensorLayer k), t.sensor j ≤ t.meas (sensorLayer k)) ∧
       (∃ j ∈ t.workingSensors (sensorLayer k), t.sensor j = t.meas (sensorLayer k))) ∧
  (∀ (s : State) (us : Nat) (counts : List (List Nat)), s.boot.aux = true → s.boot.run = none → counts.length = 17 →
     ∃ t, exec (.modelUpdate us counts) s = .next t ∧ ∀ l, 1 ≤ l → l ≤ 17 →
       t.get .thmLayerTModel l = word16 (s.modelOf us l (s.layerActivity l (counts.getD (l - 1) []))) ∧
       (s.workingSensors l ≠ [] → t.get .thmLayerTMeas l = s.get .thmLayerTMeas l))

/-- R300, R301, R303: the end of the grace time makes REQUESTED ENFORCED; RESUME in SHUTDOWN returns to NORMAL once both
domains are below their throttle levels less the hysteresis, and sets RESUME_EARLY before.
R307: AVG reads the period's power; a period above the limit sets CAPPED, counts in PWR_CAPS and raises PWR_CAPPED; the
tenth period in a row below 95 % of it clears CAPPED and raises PWR_UNCAPPED. -/
def Obligations.ThrottleAndPowerCap : Prop :=
  (∀ s : State,
     let cool (dram : Bool) : Prop := ∀ l ∈ domainLayers dram, s.gov l < (s.levels l).2.1 - (s.levels l).2.2.2
     (s.tstate = 1 → ∃ t, exec .graceExpire s = .next t ∧ t.tstate = 2 ∧ t.flag .thmStatusThrReq = true ∧
       t.flag .fltStateThermPin = true ∧ t = s.signals t ∧
       State.regsExcept (.thmStatusTstate :: .thmStatusThrReq :: .fltStateThermPin :: signalRegs) s t) ∧
     (s.tstate ≠ 1 → exec .graceExpire s = .next s) ∧
     (s.hostReady 0 = true → s.tstate = 3 → cool false → cool true → ∃ t, exec .resume s = .next t ∧ t.tstate = 0 ∧
       t.flag .thmStatusThrReq = false ∧ t.flag .fltStateThermPin = false) ∧
     (s.hostReady 0 = true → s.tstate = 3 → ¬(cool false ∧ cool true) →
       exec .resume s = .next ((s.received 4).set .thmStatusResumeEarly 1))) ∧
  (∀ (s : State) (dw : Nat), ∃ t, exec (.powerPeriodEnd dw) s = .next t ∧ t.get .pwrStatusAvg = min 65535 dw ∧
     (10 * s.get .pwrCapLimit < dw → t.flag .pwrStatusCapped = true ∧ t.thermal.below = 0 ∧
       t.get .pwrCapsCount = if s.flag .pwrStatusCapped then s.get .pwrCapsCount else (s.get .pwrCapsCount + 1) % 2 ^ 32) ∧
     (s.flag .pwrStatusCapped = true → 2 * dw < 19 * s.get .pwrCapLimit →
       t.flag .pwrStatusCapped = decide (s.thermal.below + 1 < 10)) ∧
     t = { s.signals t with thermal := { s.thermal with below := t.thermal.below } } ∧
     State.regsExcept (.pwrStatusAvg :: .pwrStatusCapped :: .pwrCapsCount :: signalRegs) s t)

/-- R310, R311, R312: FORCE triggers every target of kinds 1 to 6; a triggered run that is not deferred starts, with the
layer's GOV as its last-run value (GOV at the start of the run: log entry 57, DEDUCED); at its end the trim is in force, the
AON oscillator's moved by at most one code, and CAL_RUNS counts it.
R314: a record write that succeeds puts the record of every target in the copy that was being written, which is then in
force under its SEQ; no other byte of flash changes.
R350: while a command of the flash port that was there first is in progress, the write has not begun and does not end. -/
def Obligations.Calibration : Prop :=
  (∀ (s : State) (kind index trim l : Nat) (x : CalTarget), 1 ≤ kind → kind ≤ 7 → index < 256 → trim < 65536 →
     calLayer kind index = some l → s.calTarget kind index = some x →
     (s.hostReady 0 = true → ∃ t, exec .force s = .next t ∧
       (∀ y ∈ s.cal.targets, y.kind ≤ 6 → (y.kind, y.index) ∈ t.cal.waiting ∨ (y.kind, y.index) ∈ t.cal.again) ∧
       t = { s.received 4 with cal := { s.cal with waiting := t.cal.waiting, again := t.cal.again } }) ∧
     ((kind, index) ∈ s.cal.waiting → s.calDeferred (kind, index) = false → s.calChannelBusy (kind, index) = false →
       ∃ t, exec (.calRunStart kind index) s = .next t ∧ t.cal.running = s.cal.running ++ [(kind, index)] ∧
         t.cal.waiting = s.cal.waiting.erase (kind, index) ∧ t.flag .calStatusRunning = true ∧
         t.calTarget kind index = some { x with temp := s.get .thmLayerGGov l }) ∧
     ((kind, index) ∈ s.cal.running → ∃ t, exec (.calRunEnd kind index trim) s = .next t ∧
       t.cal.running = s.cal.running.erase (kind, index) ∧
       t.calTarget kind index = some { x with trim := newTrim kind x.trim trim, dflt := false } ∧
       (kind = 4 → x.trim ≤ newTrim kind x.trim trim + 1 ∧ newTrim kind x.trim trim ≤ x.trim + 1) ∧
       t.get .calRunsCount = (s.get .calRunsCount + 1) % 2 ^ 32)) ∧
  (∀ (s : State) (ok : Bool), s.portFirst = true → exec (.calRecordWriteEnd ok) s = .next s) ∧
  (∀ (s : State) (copy seq : Nat), s.cal.writing = some (copy, seq) → s.portFirst = false →
     ∃ t, exec (.calRecordWriteEnd true) s = .next t ∧
       (let rec' := calRecord seq s.cal.targets
        t.flashBytes (calCopyAddr copy) rec'.length = rec' ∧
        ∀ a, a < calCopyAddr copy ∨ calCopyAddr copy + rec'.length ≤ a → t.flashBytes a 1 = s.flashBytes a 1) ∧
       t.cal.writing = none ∧ t.cal.copy = copy ∧ t.get .calRecSeqSeq = seq % 2 ^ 32 ∧
       t = { s with regs := t.regs, flash := t.flash, cal := t.cal } ∧ State.regsExcept [.calRecSeqSeq, .calRecWritesCount] s t)

/-! ### Faults, starts, the flash port, the sideband and self-test (14_faults.md, 15_start.md, 16_fuses_selftest.md) -/

/-- R318, R320 to R324: a report becomes the record in the slot after the newest one held; class C leaves the collector's
state, class U starts a containment in NORMAL, class F enters the F actions and sets LAST_F. (The sources here are those
whose block does nothing else of its own at the report.) -/
def Obligations.FaultReport : Prop :=
  ∀ (s : State) (r : Report) (k : FaultClass), s.boot.aux = true → r.invalid = false → r.source < 320 → r.func < 256 →
    r.arg < 2 ^ 32 → r.cause < 256 → r.source < 48 ∨ 118 ≤ r.source → r.source ≠ 257 → r.source ≠ evLcsTamper →
    reportClass r = some k → s.railIgnored r.source = false → s.get .fltQueueCount < 64 →
    ∃ t, exec (.faultReport [r]) s = .next t ∧
      (k = .c ∨ (k = .u ∧ s.get .fltStateState = 0) → t.get .fltQueueCount = s.get .fltQueueCount + 1 ∧
        (let slot := (s.get .fltQueueHead + s.get .fltQueueCount) % 64
         t.get .fltRecSrcW1 slot = r.source + 2 ^ 16 * r.func ∧ t.get .fltRecArgW2 slot = r.arg ∧
         t.get .fltRecTimeLoTime slot = s.timer % 2 ^ 32)) ∧
      (k = .c → t.get .fltStateState = s.get .fltStateState ∧
        t = { s.signals t with collector := { s.collector with nextSeq := t.collector.nextSeq } }) ∧
      (k = .u → s.get .fltStateState = 0 → t.get .fltStateState = 1 ∧ t.flag .fltStateFaultPin = true ∧
        (∃ c, t.collector.running = some c ∧ c.source = r.source)) ∧
      (k = .f → t.fatal = true ∧ t.get .fltLastFSource = r.source ∧ t.get .fltLastFCause = r.cause)

/-- R324, R325: a containment that ends starts the quiet timer when no other waits; one that exceeds its time becomes a
class F fault; the quiet timer's end recovers to NORMAL and counts it; the end of the F actions latches.
R323: FLT_RELEASE removes N records from HEAD, at most COUNT, and nothing else.
R329: FLT_INJECT with GO reports its source where the life cycle permits it, and does nothing in DEPLOYED. -/
def Obligations.FaultCollector : Prop :=
  (∀ (s : State) (c : Contain),
     (s.get .fltStateState = 1 → s.collector.running = some c → s.collector.waiting = [] →
       (∃ t, exec (.containmentEnd true) s = .next t ∧ t.get .fltStateState = 2 ∧ t.collector.running = none ∧
         t.collector.quiet = true ∧ t = { s with regs := t.regs, collector := t.collector } ∧
         State.regsExcept [.fltRecW0, .fltStateState, .fltStateFaultPin] s t) ∧
       (∃ t, exec .containmentTimeout s = .next t ∧ t.fatal = true ∧ t.get .fltLastFSource = c.source % 2 ^ 9 ∧
         t.get .fltLastFCause = causeContainmentFailed)) ∧
     (s.get .fltStateState = 2 → s.collector.quiet = true → s.collector.recoveries = [] →
       ∃ t, exec .quietTimerExpire s = .next t ∧ t.get .fltStateState = 0 ∧ t.collector.quiet = false ∧
         t.get .fltRecoveriesCount = min (FN.max .fltRecoveriesCount) (s.get .fltRecoveriesCount + 1)) ∧
     (s.get .fltStateState = 3 → ∃ t, exec .fActionsEnd s = .next t ∧ t.get .fltStateState = 4)) ∧
  (∀ (s : State) (v : Word), s.hostReady 0 = true →
     let n := min (v.toNat % 128) (s.get .fltQueueCount)
     ∃ t, exec (.fltRelease v) s = .next t ∧ t.get .fltQueueHead = (s.get .fltQueueHead + n) % 64 ∧
       t.get .fltQueueCount = s.get .fltQueueCount - n ∧
       t = { s.received 4 with regs := t.regs, collector := { s.collector with ovfRaised := t.collector.ovfRaised } } ∧
       State.regsExcept [.fltQueueHead, .fltQueueCount] s t) ∧
  (∀ (s : State) (source : Nat), s.hostReady 0 = true → source < 48 →
     (s.lc = lcMfg → s.railIgnored source = false → s.get .fltQueueCount < 64 →
       ∃ t, exec (.fltInject (BitVec.ofNat 32 (2 ^ 31 + source))) s = .next t ∧
         t.get .fltQueueCount = s.get .fltQueueCount + 1 ∧
         t.get .fltRecSrcW1 ((s.get .fltQueueHead + s.get .fltQueueCount) % 64) = source + 2 ^ 16 * 0xFF) ∧
     (s.lc = lcDeployed → exec (.fltInject (BitVec.ofNat 32 (2 ^ 31 + source))) s = .next (s.received 4)))

/-- R23: a failing crystal takes the link with it and is a class F fault; its return lets time run again; a PLL that loses
lock is a class F fault with the PLL as ARG.
R20, R21, R325: a low stack rail loses the stack's contents and says so; without VDD_AUX every register is at its cold
value and only flash and fuses keep theirs (the cold values and the stack's empty memory: log entries 17 and 19); a loss of
VDD_CORE is the last class F fault, and the next start is a cold one. -/
def Obligations.ClocksAndRails : Prop :=
  (∀ (s : State) (p : Pll), s.boot.aux = true → s.railIgnored evClkXtalFail = false → s.railIgnored evClkPllUnlock = false →
     (s.boot.crystal = true → ∃ t, exec .clkXtalFail s = .next t ∧ t.boot.crystal = false ∧ t.dlUp = false ∧ t.fatal = true ∧
       t.get .fltLastFSource = evClkXtalFail ∧ t.get .fltLastFCause = causeClockLoss) ∧
     exec .crystalReturn s = .next { s with boot := { s.boot with crystal := true } } ∧
     (∃ t, exec (.clkPllUnlock p) s = .next t ∧ t.fatal = true ∧ t.get .fltLastFSource = evClkPllUnlock ∧
       t.get .fltLastFCause = causePllUnlock ∧ (p = .stack → t.boot.stackPll = false))) ∧
  (∀ s : State, s.boot.aux = true →
     (∃ t, exec .stackRailLow s = .next t ∧ t.flag .bootStatusStackValid = false ∧ t.dram.lost = true ∧ t.boot.stackOk = false) ∧
     (s.boot.flashOp = none → s.trust.mbox = none → ∃ t, exec .vddAuxLoss s = .next t ∧ t.boot.aux = false ∧
       (∀ f i j, t.get f i j = f.cold i j % 2 ^ f.width) ∧ t.flash = s.flash ∧ t.fuses.cells = s.fuses.cells ∧
       t.dram.mem = []) ∧
     (∃ t, exec .vddCoreLoss s = .next t ∧ t.boot.coldNext = true ∧ t.get .fltLastFSource = evPwrCoreLoss ∧
       t.get .fltLastFCause = causePowerLoss ∧ t.collector.coreLoss = some s.timer))

/-- R340, R344, R392: a cold start, at a rise of VDD_AUX or where R325 asks for one, and a warm start, at the release of
PERST#, take in what the board supplies and end READY, in the failed hold or in recovery mode, or wait for something the board
supplies with STATE 0 (the waits: log entry 40; what the starts begin from: log entry 19); WARM tells the two apart, and a
PERST# held over the rise stays asserted until its release, which only lets the link train. A cold start without its core
rails waits in step 4, with HELD_VOLT while VDD_CORE is out of range (R369); one without a crystal fails in step 5, in SCRAPPED
into recovery mode (R347, R348). A warm start says whether the stack and the Tarn were kept (R343). -/
def Obligations.Starts : Prop :=
  ∀ (s : State) (env : StartEnv), env.govs.length = 18 →
    let outcome (t : State) (warm : Bool) : Prop := t.boot.aux = true ∧ t.boot.perst = (env.perst && !warm) ∧
      t.flag .bootStatusWarm = warm ∧ t.boot.stackOk = env.stackRails ∧ t.boot.crystal = env.crystalOk ∧
      ((t.get .bootStatusState = 0 ∧ ∃ r, t.boot.run = some r ∧ r.env = env ∧ r.warm = warm) ∨
       ((t.get .bootStatusState = 1 ∨ t.get .bootStatusState = 2 ∨ t.get .bootStatusState = 3) ∧ t.boot.run = none))
    (s.boot.aux = false ∨ s.boot.coldNext = true → ∃ t, exec (.coldStart env) s = .next t ∧ outcome t false ∧
      t.boot.coreOk = env.coreRails ∧ t.boot.coldNext = false ∧
      (env.coreRails = false → (∀ k, env.late = some k → 4 ≤ k) → t.get .bootStatusState = 0 ∧ t.get .bootStatusStep = 4 ∧
        t.flag .bistStatusHeldVolt = !env.coreVolt ∧ t.boot.run = some { wait := .coreRails, env, warm := false }) ∧
      (env.coreRails = true → env.crystalOk = false → env.late = none → env.bistFails = [] →
        (∀ l < 2, env.govs.getD l 0 ≤ 680) → t.get .bootStatusState = (if t.lc = lcScrapped then 3 else 2) ∧
        t.get .bootStatusStep = 5 ∧ t.get .bootStatusReason = 3)) ∧
    (s.boot.aux = true → s.boot.perst = true → s.boot.ramp = false → s.boot.coldNext = false → s.get .bootStatusState = 0 →
      ∃ t, exec (.warmStart env) s = .next t ∧ outcome t true ∧
        t.flag .bootStatusStackKept = s.stackKeeps env ∧ t.flag .bootStatusTarnKept = !s.trust.wiped) ∧
    (s.boot.aux = true → s.boot.perst = true → s.boot.ramp = true → s.boot.run = none →
      ∃ t, exec (.warmStart env) s = .next t ∧ t.boot.perst = false ∧ t.boot.ramp = false ∧
        t.get .bootStatusState = s.get .bootStatusState)

/-- R341, R343, R344: a warm start that keeps the stack, whose slot is in force, whose clocks and link come up and that finds
an engine and no PC FAILED, reaches READY with the stack valid, no start attempt counted and the image not loaded again, where
no step exceeds its time (log entry 40). -/
def Obligations.WarmStartReady : Prop :=
  ∀ (s : State) (env : StartEnv) (k : Nat), env.govs.length = 18 → s.boot.aux = true → s.boot.perst = true →
    s.boot.ramp = false → env.late = none → s.boot.coldNext = false → s.stackKeeps env = true → s.chooseSlot.2 = some k → s.mustReload (some k) = false →
    s.lcNow ≠ lcScrapped → s.pcie.identity ≠ [] → env.crystalOk = true → env.pllOk = true →
    trainWidth env.train.working (s.get .pcxLinkCfgMaxWidth) env.train.reversed ≠ 0 → env.train.rate ≠ 0 →
    s.anyEngine = true → (∀ p < 64, s.get .drcPcStateState p ≠ 5) → (∃ p < 64, s.get .drcPcStateState p ≠ 4) →
    ∃ t, exec (.warmStart env) s = .next t ∧ t.ready = true ∧ t.get .bootStatusStep = 10 ∧ t.get .bootStatusReason = 0 ∧
      t.flag .bootStatusStackValid = true ∧ t.get .bootStatusAttempts = 0 ∧ t.flag .bootStatusWarm = true ∧
      t.flag .bootStatusStackKept = true ∧ t.flag .bootStatusCfgReloaded = false ∧ t.dlUp = true ∧ t.boot.run = none

/-- R188, R342: PERST# ends the start state, the link and every outstanding read, and notes STACK_RETAIN; an unlocked PHY
PLL is counted in LINKDOWNS and handled the same way; a lost link is that and the warm start after it in one.
R340, R348, R391: with no start that waits for it, a rail in range is only noted; a start that waits for the link, or for the
stack rails, past its time ends in the failed hold, in SCRAPPED in recovery mode, with the step and the reason. (Which waits
the watchdog ends: log entry 40; the PHY PLL's reading: log entry 42.) -/
def Obligations.LinkLossAndWaits : Prop :=
  (∀ (s : State) (env : StartEnv), s.boot.aux = true → s.boot.perst = false → env.govs.length = 18 →
     (∃ t, exec .perstAssert s = .next t ∧ t.boot.perst = true ∧ t.get .bootStatusState = 0 ∧ t.dlUp = false ∧
       t.pcie.tags = [] ∧ t.boot.retain = s.flag .bootCtrlStackRetain ∧ t.trust.sessions = [] ∧ t.trust.streams = []) ∧
     (s.dlUp = true → s.boot.ramp = false → ∃ u t, exec .pciePhyPllUnlock s = .next u ∧
       u.boot.perst = true ∧ u.dlUp = false ∧
       u.get .pcxLinkdownsCount = min (FN.max .pcxLinkdownsCount) (s.get .pcxLinkdownsCount + 1) ∧
       exec (.warmStart env) u = .next t ∧ exec (.linkDown env) s = .next t)) ∧
  (∀ (s : State) (r : StartRun),
     let ended := if s.lc = lcScrapped then 3 else 2
     (s.boot.aux = true → s.boot.run = none →
       exec (.railInRange true) s = .next { s with boot := { s.boot with stackOk := true } } ∧
       exec (.railInRange false) s = .next { s with boot := { s.boot with coreVolt := true, coreOk := true } }) ∧
     (s.boot.run = some r → r.wait = .link → s.boot.perst = true → exec .startWatchdog s = .next s) ∧
     (s.boot.run = some r → r.wait = .image → ∃ t, exec .startWatchdog s = .next t ∧ t.boot.run = none ∧
       t.get .bootStatusState = ended ∧ t.get .bootStatusStep = 7 ∧ t.get .bootStatusReason = 0x0F) ∧
     (s.boot.run = some r → r.wait = .link → s.boot.perst = false → ∃ t, exec .startWatchdog s = .next t ∧ t.boot.run = none ∧
       t.get .bootStatusState = ended ∧ t.get .bootStatusStep = 6 ∧ t.get .bootStatusReason = 0x0F) ∧
     (s.boot.run = some r → r.wait = .stackRails → ∃ t, exec .stackRailWaitExpire s = .next t ∧ t.boot.run = none ∧
       t.get .bootStatusState = ended ∧ t.get .bootStatusStep = 8 ∧ t.get .bootStatusReason = 0x0C))

/-- R350: a permitted, aligned flash-port command is BUSY with its operation, behind a write of the calibration record that is
in progress; a second one meanwhile ends with BUSY; at its end, which that write keeps waiting, a READ has filled the buffer and
an ERASE left 0xFF, with RESULT OK and DONE; a page the life cycle or the regions do
not permit is PROTECTED. (The order of the checks BUSY, PROTECTED, alignment: log entry 45.)
R350: what the end of a flash-port operation leaves.
R352: CLEAR_BAD clears both bad marks and the start attempts. -/
def Obligations.Flash : Prop :=
  (∀ (s : State), s.hostReady 0 = true →
     let a := s.get .bootFlAddrAddr
     let idle := s.flag .bootFlStatusBusy = false
     let ends (res : Nat) : State := ((s.received 4).set .bootFlStatusResult res).set .bootFlStatusDone 1
     (idle → s.flashMay 1 a = true → ∃ t, exec .read s = .next t ∧ t.flag .bootFlStatusBusy = true ∧
       t.boot.flashOp = some { op := 1, addr := a, data := [], behind := s.cal.writing.isSome } ∧ t.flash = s.flash ∧
       State.regsExcept [.bootFlStatusBusy] s t) ∧
     (idle → s.flashMay 2 a = true → a % 256 = 0 → ∃ t x, exec .program s = .next t ∧ t.flag .bootFlStatusBusy = true ∧
       t.boot.flashOp = some x ∧ x.op = 2 ∧ x.addr = a ∧ x.data.length = 256 ∧ x.behind = s.cal.writing.isSome ∧ t.flash = s.flash ∧
       State.regsExcept [.bootFlStatusBusy] s t) ∧
     (idle → s.flashMay 3 a = true → a % 4096 = 0 → ∃ t, exec .erase s = .next t ∧ t.flag .bootFlStatusBusy = true ∧
       t.boot.flashOp = some { op := 3, addr := a, data := [], behind := s.cal.writing.isSome } ∧ t.flash = s.flash ∧
       State.regsExcept [.bootFlStatusBusy] s t) ∧
     (s.flag .bootFlStatusBusy = true → exec .read s = .next (ends 4) ∧ exec .program s = .next (ends 4) ∧
       exec .erase s = .next (ends 4)) ∧
     (idle → s.flashMay 2 a = false → exec .program s = .next (ends 1)) ∧
     (idle → s.flashMay 2 a = true → a % 256 ≠ 0 → exec .program s = .next (ends 2))) ∧
  (∀ (s : State) (x : FlashOp), s.boot.flashOp = some x →
     let waits := (x.behind && s.cal.writing.isSome) = true
     (waits → ∀ ok, exec (.flashOpDone ok) s = .next s) ∧
     (¬ waits → x.op = 1 → ∃ t, exec (.flashOpDone true) s = .next t ∧ t.boot.flashOp = none ∧ t.flag .bootFlStatusBusy = false ∧
       t.flag .bootFlStatusDone = true ∧ t.get .bootFlStatusResult = 0 ∧ t.flash = s.flash ∧
       (∀ w < 64, t.get .bootFlBufData w = fieldAt (s.flashBytes x.addr 256) (4 * w) 4)) ∧
     (¬ waits → x.op = 3 → ∃ t, exec (.flashOpDone true) s = .next t ∧ t.get .bootFlStatusResult = 0 ∧
       (∀ k, x.addr ≤ k → k < x.addr + 4096 → t.flashBytes k 1 = [0xFF]) ∧
       (∀ k, k < x.addr ∨ x.addr + 4096 ≤ k → t.flashBytes k 1 = s.flashBytes k 1)) ∧
     (¬ waits → x.op = 2 ∨ x.op = 3 → ∃ t, exec .flashOpTimeout s = .next t ∧ t.boot.flashOp = none ∧
       t.flag .bootFlStatusBusy = false ∧ t.flag .bootFlStatusDone = true ∧ t.get .bootFlStatusResult = 3 ∧
       (∀ k, k < x.addr ∨ x.addr + (if x.op = 3 then 4096 else 256) ≤ k → t.flashBytes k 1 = s.flashBytes k 1))) ∧
  (∀ s : State, s.hostReady 0 = true → ∃ t, exec .clearBad s = .next t ∧ t.get .bootBadASeq = 0 ∧ t.get .bootBadBSeq = 0 ∧
     t.get .bootStatusAttempts = 0 ∧ t.boot.marked = [] ∧
     t = { s.received 4 with regs := t.regs, boot := { s.boot with marked := [] } } ∧
     State.regsExcept [.bootBadASeq, .bootBadBSeq, .bootStatusAttempts] s t)

/-- R351, R397, R398: the sideband answers REG_READ of the blocks BOOT, LCS, PCX, THM, PWR and FLT with the register's value,
of any other with an error, and FLASH_READ with the bytes, with BUSY while the flash is busy, and with an error
outside the regions that R331 lists or for a length other than 1 to 256 (an unaligned REG_READ: log entry 34; a bad length's
code, before BUSY: log entry 45); it takes a dynamic address in I3C mode; a frame
error is a class C fault; none of these has an effect before step 5 has ended.
R371, R372, R373: a run reports each test that has finished PASS, or FAIL with its failures counted, and leaves the others'
results; with the last of them it ends, with its duration and whether any failed; ABORT marks its tests that have not finished
ABORTED; where none runs, neither does anything. (That finished tests are reported before the run ends: log entry 31.) -/
def Obligations.SidebandAndBist : Prop :=
  (∀ (s : State) (off a n adr : Nat), adr < 128 → a < 16777216 → n < 65536 →
     let word (o : Nat) : Nat := s.readWord (((s.regPlace 0 o).map fieldsAt).getD [])
     let lo := off - off % 4
     let answer (bytes : List Byte) : Host.Outcome State Fault Refusal := .next (s.emit (.sideband bytes))
     (s.boot.aux = true → s.boot.sideband.up = true →
       (off / 65536 ∈ [0x01, 0x03, 0x05, 0x12, 0x13, 0x15] → exec (.regRead off) s =
         answer (0x00 :: leBytes 4 ((word lo + word (lo + 4) * 2 ^ 32) / 2 ^ (8 * (off % 4)) % 2 ^ 32))) ∧
       (off / 65536 ∉ [0x01, 0x03, 0x05, 0x12, 0x13, 0x15] → exec (.regRead off) s = answer [0x01]) ∧
       (n < 1 ∨ 256 < n ∨ flashListed a n = false → exec (.flashRead a n) s = answer [0x01]) ∧
       (1 ≤ n → n ≤ 256 → flashListed a n = true → s.boot.flashOp.isSome = true ∨ s.cal.writing.isSome = true →
         exec (.flashRead a n) s = answer [0x02]) ∧
       (1 ≤ n → n ≤ 256 → flashListed a n = true → s.boot.flashOp = none → s.cal.writing = none →
         exec (.flashRead a n) s = answer (0x00 :: s.flashBytes a n)) ∧
       (s.boot.sideband.i3c = true → exec (.dynamicAddressAssign adr) s =
         .next { s with boot := { s.boot with sideband := { s.boot.sideband with dynamic := some adr } } }) ∧
       (s.boot.sideband.i3c = false → exec (.dynamicAddressAssign adr) s = .next s) ∧
       (s.railIgnored evSbErr = false → ∃ t, exec .sidebandFrameError s = .next t ∧
         t.get .fltCntCCount = min (FN.max .fltCntCCount) (s.get .fltCntCCount + 1) ∧
         t = { s.signals t with collector := t.collector } ∧ t.get .fltStateState = s.get .fltStateState)) ∧
     (s.boot.aux = false ∨ s.boot.sideband.up = false → exec (.regRead off) s = .next s ∧ exec (.flashRead a n) s = .next s ∧
       exec (.dynamicAddressAssign adr) s = .next s ∧ exec .sidebandFrameError s = .next s)) ∧
  (∀ (s : State) (x : BistRun) (rep : BistReport) (us : Nat), us < 2 ^ 32 →
     let now (n : Nat) : Bool := bitAt x.tests n && bitAt rep.tests n && !bitAt x.finished n
     let mine := rep.fails.filter (fun f => now f.test)
     let fails := x.fails + mine.length
     let left := (List.range 10).any (fun n => bitAt x.tests n && !bitAt x.finished n && !now n)
     (s.bist = some x → s.get .bistStatusState = bistRunning → ∃ t, exec (.bistDone rep us) s = .next t ∧
       (∀ n < 10, now n = true →
         t.get .bistTestResult n = (if mine.any (·.test == n) then 2 else 1) ∧
         t.get .bistTestFails n =
           min (2 ^ 24 - 1) (((mine.filter (·.test == n)).map (·.count)).foldl (· + ·) 0)) ∧
       (∀ n < 10, now n = false → t.get .bistTestResult n = s.get .bistTestResult n ∧
         t.get .bistTestFails n = s.get .bistTestFails n) ∧
       (left = false → t.bist = none ∧ t.get .bistStatusState = bistDoneState ∧
         t.get .bistStatusResult = b2n (fails ≠ 0) ∧ t.get .bistTimeUs = us) ∧
       (left = true → t.get .bistStatusState = bistRunning ∧ ∃ y, t.bist = some y ∧ y.tests = x.tests ∧ y.fails = fails ∧
         ∀ n < 10, bitAt y.finished n = (bitAt x.finished n || now n))) ∧
     (s.bist = none ∨ s.get .bistStatusState ≠ bistRunning → exec (.bistDone rep us) s = .next s) ∧
     (s.hostReady 0 = true → s.bist = some x → ∃ t, exec .abort s = .next t ∧ t.bist = none ∧
       t.get .bistStatusState = bistDoneState ∧ t.get .bistStatusResult = 2 ∧
       (∀ n < 10, bitAt x.tests n = true → bitAt x.finished n = false → t.get .bistTestResult n = 3) ∧
       (∀ n < 10, bitAt x.tests n = false ∨ bitAt x.finished n = true →
         t.get .bistTestResult n = s.get .bistTestResult n) ∧
       t = { s.received 4 with regs := t.regs, bist := none }) ∧
     (s.hostReady 0 = true → s.bist = none → exec .abort s = .next (s.received 4)))

/-! ### Ponds, engines and their power domains (05_engines.md, 13_thermal_power.md) -/

/-- R106, R108: the job unit appends a job's next token to its pond's deque; an engine that may run the first runnable entry
takes it off, and is BUSY with it; an entry whose CHECK fails (R107) empties the pond's deque.
R109: a pond with an empty deque and an engine free to work takes half of the next victim's entries, rounded up, at most
8, from the newest end; ENG_STEALS and ENG_STOLEN count them. -/
def Obligations.Deques : Prop :=
  (∀ (s : State) (p e : Nat) (j : Job) (k : Token), p < 6 → e < 48 →
     (s.working = true → s.pondOn p = true → (s.pond p).deque.length < 496 → s.jobUnit.jobs = [j] →
       s.nextToken j p = some k → s.entriesOf j.ring j.slot < s.get .engCfgJobTaskCap →
       ∃ t, exec (.taskPush p) s = .next t ∧ (t.pond p).deque = (s.pond p).deque ++ [k.marked] ∧
         (∀ q, q ≠ p → (t.pond q).deque = (s.pond q).deque) ∧ t.ponds.engines = s.ponds.engines) ∧
     (s.mayPop e = true → (s.pond (e / 8)).deque.find? (s.mayRun e) = some k →
       (k.good = true → ∃ t, exec (.taskPop e true) s = .next t ∧ (t.pond (e / 8)).deque = (s.pond (e / 8)).deque.erase k ∧
         (t.engine e).tasks = (s.engine e).tasks ++ [{ tok := k, pond := e / 8, digest := k.kind == kDigest }] ∧
         t.engState e = engBusy ∧ (∀ q, q ≠ e / 8 → (t.pond q).deque = (s.pond q).deque) ∧
         (∀ f, f ≠ e → t.engine f = s.engine f) ∧ t.jobUnit = s.jobUnit) ∧
       ∀ ok, ok = false ∨ k.good = false → ∃ t, exec (.taskPop e ok) s = .next t ∧ (t.pond (e / 8)).deque = [])) ∧
  (∀ (s : State) (p v : Nat), p < 6 → s.pondOn p = true → (s.pond p).deque = [] →
     (∃ k < 8, s.mayPop (8 * p + k) = true) → v = (p + (s.pond p).rot + 1) % 6 → v ≠ p → s.pondServes v = true →
     s.flag .engPondCtrlStealEn v = true → s.flag .engPondCtrlStealEn p = true →
     s.pondTemp p - 4 * s.get .engCfgStealTdelta ≤ s.pondTemp v → (s.pond v).deque ≠ [] →
     let c := (s.pond v).deque.length
     let n := min ((c + 1) / 2) 8
     ((s.pond v).deque.drop (c - n)).all Token.good = true →
     ∃ t, exec (.stealVisit p true) s = .next t ∧ (t.pond v).deque = (s.pond v).deque.take (c - n) ∧
       (t.pond p).deque = (s.pond v).deque.drop (c - n) ∧
       t.get .engPondStealsCount p = (s.get .engPondStealsCount p + n) % 2 ^ FN.engPondStealsCount.width ∧
       t.get .engPondStolenCount v = (s.get .engPondStolenCount v + n) % 2 ^ FN.engPondStolenCount.width ∧
       (∀ q, q ≠ p → q ≠ v → t.pond q = s.pond q) ∧ t.ponds.engines = s.ponds.engines)

/-- R110, R111, R120: an internal error, or a deadline that expires while no head of the engine's port waits for a token, fences an online engine, both its tasks with it, with the
cause in LAST_CAUSE; once its requests have drained, a task whose job goes on returns to the head of its pond's deque
with its attempt counted.
R113, R120: a fenced engine below REJOIN_LIMIT is tested, by itself or by SELFTEST, once the limits of R369 hold and no BIST
run names it (log entry 48), the test leaving its scratch at zero; one at the limit goes OFFLINE; a test that passes makes
it IDLE, one that fails makes it OFFLINE with LAST_CAUSE 7; OFFLINE_REQ of 1 takes an idle engine OFFLINE, of 0 has one that
no failure names tested, now or once the limits hold. -/
def Obligations.Engines : Prop :=
  (∀ (s : State) (e : Nat) (why : EngineError) (d : Bool) (r : Running) (j : Job), e < 48 →
     let fenced (t : State) (cause : Nat) : Prop := t.engState e = engFenced ∧ t.get .engStateLastCause e = cause ∧
       (t.engine e).tasks = [] ∧ (t.engine e).fenced = (s.engine e).fenced ++ (s.engine e).tasks ∧
       t.get .engFencesCount e = min (FN.max .engFencesCount) (s.get .engFencesCount e + 1) ∧
       (∀ f, f ≠ e → t.engine f = s.engine f) ∧ t.ponds.ponds = s.ponds.ponds ∧ t.jobUnit = s.jobUnit
     (s.engOnline e = true → ∃ t, exec (.engineInternalError e why) s = .next t ∧ fenced t (engineErrorCode why)) ∧
     (s.engOnline e = true →
       (s.engine e).tasks.any (fun x => x.digest == d && s.flag .cfgBme (s.ringFunc x.tok.ring)) = true → s.shutdown = false →
       ((s.portHead e).any s.heldForToken = false → ∃ t, exec (.taskDeadline e d) s = .next t ∧ fenced t 1) ∧
       ((s.portHead e).any s.heldForToken = true → exec (.taskDeadline e d) s = .next s)) ∧
     (s.engineQuiet e = false → exec (.fenceRequeue e) s = .next s) ∧
     (s.engineQuiet e = true → (s.engine e).fenced = [r] → s.findJob r.tok.ring r.tok.slot = some j → j.halted = false →
       r.tok.attempt < 2 → ∃ t, exec (.fenceRequeue e) s = .next t ∧ (t.engine e).fenced = [] ∧
         (∃ k, (t.pond r.pond).deque = k :: (s.pond r.pond).deque ∧ k.attempt = r.tok.attempt + 1 ∧ k.excl = e ∧
           k.unit = r.tok.unit ∧ k.kind = r.tok.kind ∧ k.good = true) ∧
         t.get .engRequeuesCount = (s.get .engRequeuesCount + 1) % 2 ^ FN.engRequeuesCount.width)) ∧
  (∀ (s : State) (e : Nat), e < 48 →
     let limits := s.boot.coreVolt = true ∧ s.govInLimits 0 = true
     let holds := limits ∧ s.bistTests e = false
     let begins (u t : State) : Prop := t.engState e = engTesting ∧ (t.engine e).testDue = false ∧
       (∀ a < 524288, Mem.read 0 t.scratch (e * 524288 + a) = 0) ∧
       (∀ k, k / 524288 ≠ e → Mem.read 0 t.scratch k = Mem.read 0 s.scratch k) ∧ (∀ f, f ≠ e → t.engine f = s.engine f) ∧
       t = { u with regs := t.regs, ponds := { s.ponds with engines := t.ponds.engines }, scratch := t.scratch }
     let starts (c : Instr) (u : State) : Prop :=
       (s.recentFences e < s.get .engCfgRejoinLimit → holds → ∃ t, exec c s = .next t ∧ begins u t) ∧
       (s.recentFences e < s.get .engCfgRejoinLimit → ¬ holds →
         exec c s = .next (u.setEngine e { s.engine e with testDue := true })) ∧
       (s.get .engCfgRejoinLimit ≤ s.recentFences e → ∃ t, exec c s = .next t ∧
         t.engState e = engOffline ∧ (t.engine e).failed = true ∧ t.dom e = domOff)
     (s.engState e = engFenced → s.engineQuiet e = false → exec (.engineSelftestStart e) s = .next s) ∧
     (s.engState e = engFenced → (s.engine e).fenced = [] → s.engineQuiet e = true → starts (.engineSelftestStart e) s ∧
       (s.hostReady 0 = true → (s.engine e).repairOff = false → starts (.selftest e) (s.received 4))) ∧
     (s.engState e = engTesting →
       (limits → s.dom e ≠ domWaking →
         ((∀ d < 54, s.flag .pwrDomOffReq d = false) → s.flag .engCtrlOfflineReq e = false →
           (s.engine e).repairOff = false → s.dom e = domOn → s.dom (48 + e / 8) ≠ domDraining →
           ∃ t, exec (.engineSelftestDone e true) s = .next t ∧ t.engState e = engIdle ∧ (t.engine e).failed = false) ∧
         ∃ t, exec (.engineSelftestDone e false) s = .next t ∧ t.engState e = engOffline ∧
           t.get .engStateLastCause e = 7 ∧ (t.engine e).failed = true) ∧
       (¬ limits ∨ s.dom e = domWaking → ∀ pass, exec (.engineSelftestDone e pass) s = .next s)) ∧
     (s.hostReady 0 = true → s.engOnline e = true → (s.engine e).tasks = [] → s.dom e = domOn →
       ∃ t, exec (.offlineReq e true) s = .next t ∧ t.engState e = engOffline ∧ t.flag .engCtrlOfflineReq e = true) ∧
     (s.hostReady 0 = true → s.engState e = engOffline → (s.engine e).failed = false → (s.engine e).repairOff = false →
       ∃ t, exec (.offlineReq e false) s = .next t ∧ t.flag .engCtrlOfflineReq e = false ∧
         (holds → t.engState e = engTesting) ∧
         (¬ holds → t.engState e = engOffline ∧ (t.engine e).testDue = true ∧ t.dom e = s.dom e)))

/-- R19, R308, R309: OFF_REQ of 1 switches the domain of an idle engine off with its scratch, where another engine stays;
OFF_REQ of 0 wakes it while its fabric is on, and the wake ends, once the fabric is powered, with the engine's self-test, now
or when the limits of R369 hold; a draining pond fabric goes off once its engines are off and its deque is empty; OFF_REQ of a domain above 53 is discarded. -/
def Obligations.PowerDomains : Prop :=
  ∀ (s : State) (d p : Nat), d < 48 → p < 6 →
    (s.hostReady 0 = true → s.dom d = domOn → s.spare d = true → s.engOnline d = true → (s.engine d).tasks = [] →
      ∃ t, exec (.offReq d true) s = .next t ∧ t.dom d = domOff ∧ t.engState d = engOff ∧
        (∀ a < 524288, Mem.read 0 t.scratch (d * 524288 + a) = 0) ∧ t.flag .pwrDomOffReq d = true) ∧
    (s.hostReady 0 = true → s.dom d = domOff → s.engState d = engOff → s.dom (48 + d / 8) = domOn →
      ∃ t, exec (.offReq d false) s = .next t ∧ t.dom d = domWaking ∧
        t.get .pwrWakeCount d = min (FN.max .pwrWakeCount) (s.get .pwrWakeCount d + 1) ∧
        t = { s.received 4 with regs := t.regs }) ∧
    (∀ k, 54 ≤ k → k < 64 → ∀ v, s.hostReady 0 = true → exec (.offReq k v) s = .next (s.received 4)) ∧
    (s.dom d = domWaking → s.dom (48 + d / 8) < domOn → exec (.domainWakeDone d) s = .next s) ∧
    (s.dom d = domWaking → s.dom (48 + d / 8) = domOn → s.engState d = engOff → (s.engine d).failed = false →
      (s.engine d).repairOff = false → s.flag .pwrDomOffReq d = false →
      ∃ t, exec (.domainWakeDone d) s = .next t ∧ t.dom d = domOn ∧
        (s.mayTest d = true → t.engState d = engTesting) ∧
        (s.mayTest d = false → t.engState d = engOff ∧ (t.engine d).testDue = true) ∧
        t = { s with regs := t.regs, ponds := { s.ponds with engines := t.ponds.engines }, scratch := t.scratch }) ∧
    (s.dom (48 + p) = domDraining → (s.pond p).deque = [] → (∀ k < 8, s.dom (8 * p + k) = domOff) →
      exec (.pondDomainOff p) s = .next (s.set .pwrDomState 0 (48 + p)))

/-! ### Jobs (04_jobs.md) and tasks (05_engines.md) -/

/-- R68, R195: a doorbell below the ring size is the ring's SQ_TAIL, or CQ_HEAD; a value at or above it changes neither, sets
DB_ERR and raises JOB_DB_ERROR; before READY it has no effect but DB_EARLY. -/
def Obligations.Doorbells : Prop :=
  ∀ (s : State) (func ring : Nat) (value : Word), func < 64 → ring < 256 → s.barOpen func = true →
    let v := value.toNat % 65536
    let u := s.received 4
    (s.ready = false → exec (.doorbellSqTail func ring value) s = .next (u.set .pcxStatusDbEarly 1) ∧
      exec (.doorbellCqHead func ring value) s = .next (u.set .pcxStatusDbEarly 1)) ∧
    (∀ q, s.ready = true → s.inHold = false → s.fatal = false → s.ringPair func ring = some q →
      (v < s.ringSize q →
        exec (.doorbellSqTail func ring value) s = .next ((u.set .jobRqDbSqTail v q).showRing q) ∧
        exec (.doorbellCqHead func ring value) s = .next ((u.set .jobRqDbCqHead v q).showRing q)) ∧
      (s.ringSize q ≤ v →
        let bad := ((u.set .jobRqStatusDbErr 1 q).raise evJobDbError (s.ringFunc q) q).showRing q
        exec (.doorbellSqTail func ring value) s = .next bad ∧ exec (.doorbellCqHead func ring value) s = .next bad))

/-- R69: while the ring holds descriptors and has room, the device reads 128 bytes at SQ_HEAD under a free tag, SQ_HEAD
advances, its wrap toggles SQ_LAP, and the descriptor is on its way with its slot and lap. A ring whose outstanding count is
its size less 1 fetches nothing. -/
def Obligations.DescriptorFetch : Prop :=
  ∀ (s : State) (q tag : Nat), q < 256 → s.fetchWanted q = true → s.nextTag = some tag →
    let slot := s.get .jobRqSqHead q
    let base := s.get .jobRqSqbaseLoAddr q * 4096 + s.get .jobRqSqbaseHiAddr q * 2 ^ 32
    (s.ringSize q - 1 ≤ s.outstanding q → exec (.descriptorFetch q) s = .next s) ∧
    (s.outstanding q < s.ringSize q - 1 → slot < s.ringSize q → s.ringSize q ≤ 65536 →
      ∃ t, exec (.descriptorFetch q) s = .next t ∧
        t.get .jobRqSqHead q = (if s.ringSize q ≤ slot + 1 then 0 else slot + 1) ∧
        t.get .jobRqSqLap q = (s.get .jobRqSqLap q + (if s.ringSize q ≤ slot + 1 then 1 else 0)) % 2 ^ FN.jobRqSqLap.width ∧
        (t.ring q).fetches = (s.ring q).fetches ++ [{ slot, gen := s.get .jobRqSqLap q, seq := s.jobUnit.nextSeq }] ∧
        s.sends t (.read tag (s.ringFunc q) (base + 128 * slot) 128 false) ∧ t.jobUnit.jobs = s.jobUnit.jobs)

/-- R75, R81, R91: a descriptor of each of the eleven types (COPY, HASH, ENCODE, DECODE, REPAIR, VERIFY, PLAN, SEAL, QUERY, FENCE,
SCRUB) that passes the checks becomes a job, started, or held behind an
incomplete FENCE of its ring; one that fails a check becomes a job that has ended with that check's status as its one
condition, as does a descriptor whose TYPE is none of the eleven (BAD_DESCRIPTOR), or whose fetch fails (HOST_DMA_ERROR). -/
def Obligations.DescriptorArrives : Prop :=
  ∀ (s : State) (q : Nat) (desc : List Byte) (ext : List Fetched) (f : Fetch) (rest : List Fetch), q < 256 →
    desc.length = 128 → (s.ring q).fetches = f :: rest →
    let type := (desc.headD 0).toNat
    let ended (t : State) (st : Status) : Prop := (t.ring q).fetches = rest ∧ ∃ j ∈ t.jobUnit.jobs, j.ring = q ∧
      j.slot = f.slot ∧ j.gen = f.gen ∧ j.stage = .closing ∧ j.stopped = true ∧
      j.status = some { unit := 0xFFFFFFFF, status := st.code, shard := 0xFF }
    (∀ r ∈ arrivals q desc ext, r.1 = type →
      (∀ st, (s.checks q f desc ext).fail = some st → ∃ t, exec r.2 s = .next t ∧ ended t st) ∧
      ((s.checks q f desc ext).fail = none → s.shutdown = false → s.fatal = false → s.d3hot = false →
        ∃ t, exec r.2 s = .next t ∧ (t.ring q).fetches = rest ∧ ∃ j ∈ t.jobUnit.jobs,
          (j.ring = q ∧ j.slot = f.slot ∧ j.gen = f.gen ∧ j.func = s.ringFunc q ∧ j.type = type ∧ j.desc = desc ∧
            j.fetchSeq = f.seq ∧ (type = 3 → j.snap.isSome = true)) ∧
          (s.fenceOpen q = true → j.stage = .held ∧ j.status = none) ∧
          (s.fenceOpen q = false → j.stage ≠ .held ∧
            (type ≠ 4 → type ≠ 5 → j.status = none ∧ j.stage = if type = 9 then .signing else .started) ∧
            (type = 9 → j.outRun.isSome = true) ∧
            (type = 11 → ∃ p ∈ t.dredge.passes, p.kind = .scrub ∧ p.ring = q ∧ p.slot = f.slot ∧
              p.offset = fieldAt desc 32 8 ∧ p.length = fieldAt desc 40 8)))) ∧
    (type = 0 ∨ 11 < type → ∃ t, exec (.descriptorTypeUndefined q desc) s = .next t ∧ ended t .badDescriptor) ∧
    (∀ why, ∃ t, exec (.descriptorFetchFail q why) s = .next t ∧ ended t .hostDmaError)

/-- R95, R107, R111: a result that answers no task running on the engine, by its unit, kind and TOKGEN, changes nothing but a count: that of a fenced engine, or of
another TOKGEN than the job's generation runs under, in ENG_STALE_TOK; that of a task its job ended, or of a generation gone
by, at the ring. One that answers a task frees the slot and counts in ENG_TASKS. R77, R84, on a COPY unit within a page, host
memory to host memory: the bytes read are written to the destination, and the unit waits for its flushing read.
R84, R85: a unit whose outputs are written, with no flushing read of it under way any more, reaches its durability point: it
is done and counts; while one is, nothing happens; a failed flushing read ends the unit as a condition with no done bit:
HOST_DMA_ERROR, or PEER_DMA_ERROR at a peer, FAIL_SHARD the shard its first read there was of, 0xFF where none was (R408). -/
def Obligations.TasksAndUnits : Prop :=
  (∀ (s : State) (e tokgen : Nat) (x : TaskId) (digest : Bool) (ext : List Fetched), e < 48 → x.q < 256 → x.slot < 65536 →
     (∀ r ∈ (s.engine e).tasks, r.answers digest x tokgen = false) →
     ((s.engine e).stale = [] → (s.findJob x.q x.slot).any (fun j => j.gen == x.jgen) = true →
       exec (.taskResult e digest x tokgen ext) s = .next (s.satInc .engStaleTokCount)) ∧
     ((s.engine e).stale = [] → (s.findJob x.q x.slot).any (fun j => j.gen == x.jgen) = false →
       exec (.taskResult e digest x tokgen ext) s = .next (s.staleJob x.q)) ∧
     (∀ y fenced, (s.engine e).stale = [(y, fenced)] → y.answers digest x tokgen = true →
       let u := s.setEngine e { s.engine e with stale := [] }
       exec (.taskResult e digest x tokgen ext) s =
         .next (if fenced then u.satInc .engStaleTokCount else u.staleJob x.q))) ∧
  (∀ (s : State) (e : Nat) (digest : Bool) (ext : List Fetched) (r : Running) (j : Job) (a b : BufEntry) (d : List Byte),
     e < 48 → r.tok.ring < 256 → r.tok.slot < 65536 → (s.engine e).tasks = [r] → r.digest = digest → s.pcie.lost = [] →
     r.tok.kind = 4 → r.tok.unit = 0 → s.findJob r.tok.ring r.tok.slot = some j → j.gen = r.tok.jgen →
     j.bufs = [(64, [a]), (80, [b])] → ext = [.data d] → a.space = 0 → b.space = 0 → 0 < dLen j.desc → dLen j.desc ≤ 128 →
     dLen j.desc ≤ a.len → dLen j.desc ≤ b.len → b.addr % 4096 + dLen j.desc ≤ 4096 → s.mayIssue j.func = true →
     ∃ t, exec (.taskResult e digest ⟨r.tok.ring, r.tok.slot, r.tok.jgen, 0, 4⟩ r.tok.tokgen ext) s = .next t ∧
       (t.engine e).tasks = [] ∧ t.get .engTasksCount e = (s.get .engTasksCount e + 1) % 2 ^ FN.engTasksCount.width ∧
       s.sends t (.write j.func b.addr (fitBytes (dLen j.desc) d) (b.rlx && s.flag .cfgEro j.func)
         (b.ns && s.flag .cfgEns j.func)) ∧
       ∃ j' x, t.findJob r.tok.ring r.tok.slot = some j' ∧ j'.run 0 = some x ∧ x.written = true ∧ x.durable = false) ∧
  (∀ (s : State) (q slot unit : Nat) (j : Job) (r : UnitRun), q < 256 → slot < 65536 → s.findJob q slot = some j →
     j.outRun = none → j.run unit = some r → r.unit = unit → r.written = true → r.durable = false → r.verify = 0 →
     (s.flushReads j unit ≠ [] → exec (.unitDurable q slot unit none) s = .next s) ∧
     (s.flushReads j unit = [] → j.progress ≤ unit → j.doneSet.contains unit = false →
       ∃ t j', exec (.unitDurable q slot unit none) s = .next t ∧
         t.findJob q slot = some j' ∧ j'.run unit = none ∧ j'.doneCnt = j.doneCnt + 1 ∧ j'.status = j.status ∧
         (unit = j.progress → j.doneSet = [] → j'.progress = unit + 1) ∧
         (j.progress < unit → j.doneSet.contains j.progress = false → j'.progress = j.progress)) ∧
     (∀ peer, ∃ t j', exec (.unitDurable q slot unit (some peer)) s = .next t ∧ t.findJob q slot = some j' ∧
       j'.run unit = none ∧ j'.doneCnt = j.doneCnt ∧ j'.progress = j.progress ∧ (j.status = none → j'.status =
         some { unit, status := (if peer then Status.peerDmaError else .hostDmaError).code, shard := s.flushShard j unit peer }) ∧
       (s.flushReads j unit = [] → s.flushShard j unit peer = 0xFF) ∧
       (∀ x shard, s.flushReads j unit = [x] → x.use = .flush q slot j.gen unit shard → x.peer = peer →
         s.flushShard j unit peer = shard)))

/-- R71, R82: the completion of a job that has ended is 32 bytes written at CQ_TAIL; TAIL advances and its wrap inverts PHASE;
the job is gone. One that has not ended completes nothing. R72: COAL_US after the first completion not yet signalled, the
ring's message is due: sent where MSI-X is enabled and the vector unmasked, when the count of completions starts again; pending
while it is masked. (That a message which is not sent leaves the count standing: log entry 65.) -/
def Obligations.JobCompletes : Prop :=
  ∀ (s : State) (q slot : Nat) (j : Job), q < 256 → slot < 65536 →
    (s.noCompletions = false → s.findJob q slot = some j → s.jobEnded j = false →
      exec (.jobComplete q slot) s = .next s) ∧
    (s.noCompletions = false → s.findJob q slot = some j → s.jobEnded j = true → j.owesReceipt = false →
      s.mayIssue (s.ringFunc q) = true → s.ringSize q ≤ 65536 → s.get .jobRqCqTail q < s.ringSize q →
      let base := s.get .jobRqCqbaseLoAddr q * 4096 + s.get .jobRqCqbaseHiAddr q * 2 ^ 32
      let tail := s.get .jobRqCqTail q
      let phase := s.get .jobRqCqPhase q
      let st := j.finalStatus
      let c := j.status.getD { unit := 0xFFFFFFFF, status := st, shard := 0xFF }
      ∃ t, exec (.jobComplete q slot) s = .next t ∧ t.findJob q slot = none ∧
        s.sends t (.write (s.ringFunc q) (base + 32 * tail) (completionBytes (fieldAt j.desc 8 8) j.progress j.doneCnt slot
          j.gen st c.unit c.shard (if st = 0x10 then j.cause else 0) j.type (s.recNcond q slot) phase) false false) ∧
        t.get .jobRqCqTail q = (if s.ringSize q ≤ tail + 1 then 0 else tail + 1) ∧
        t.get .jobRqCqPhase q = (if s.ringSize q ≤ tail + 1 then 1 - phase else phase)) ∧
    (s.get .jobRqIrqCoalUs q ≠ 0 → (s.ring q).unsig ≠ 0 →
      let f := s.ringFunc q
      let v := s.get .jobRqIrqVector q
      let masked := s.flag .msixMask f v || s.flag .cfgMsixFuncMask f
      (s.flag .cfgMsixEn f = false → exec (.coalTimerExpire q) s = .next s) ∧
      (s.flag .cfgMsixEn f = true → exec (.coalTimerExpire q) s = .next ((s.setRing q { s.ring q with
        unsig := if masked then (s.ring q).unsig else 0, pended := masked }).sendMsix f v))) ∧
    ((s.ring q).unsig = 0 → exec (.coalTimerExpire q) s = .next s)

/-- R93, R94: a cancel that names no fetched, incomplete job of the ring counts in CMISS; one that names a job takes its units
off deques and engines, its running tasks end without done bits, and its completion will carry CANCELLED, or the condition
that arose before it (R12).
R98, R100: EN of the function's own ring; its rise writes the completions of jobs held INTERRUPTED, PARTIAL with CAUSE 2
where no condition arose before (R12; that this first condition is the status after a warm start too is the model's reading,
log entry 63); RESET and DROP_INT act on a ring that is disabled and idle, and set CFG_REJECT and raise JOB_CFG_REJECT
otherwise. -/
def Obligations.CancelAndRings : Prop :=
  (∀ (s : State) (func q : Nat) (value : Word), func < 64 → q < 256 → s.hostReady func = true → s.ringOwn func q = true →
     value.getLsbD 31 = true →
     let slot := value.toNat % 65536
     let gen := value.toNat / 2 ^ 16 % 16
     (s.findJob q slot = none → exec (.cancel func q value) s = .next ((s.received 4).satInc .jobRqCmissCount q)) ∧
     (∀ j, s.findJob q slot = some j → j.gen ≠ gen →
       exec (.cancel func q value) s = .next ((s.received 4).satInc .jobRqCmissCount q)) ∧
     (∀ j, s.findJob q slot = some j → j.gen = gen → j.allDone = false → j.stage ≠ .signing →
       ∃ t j', exec (.cancel func q value) s = .next t ∧ t.findJob q slot = some j' ∧ j'.stopped = true ∧ (j.type ≠ 10 → j'.runs = []) ∧
         j'.status = some (j.status.getD { unit := 0xFFFFFFFF, status := Status.cancelled.code, shard := 0xFF }) ∧
         j'.progress = j.progress ∧ j'.doneCnt = j.doneCnt ∧ t.entriesOf q slot = 0 ∧ t.tasksOf q slot = [])) ∧
  (∀ (s : State) (func q : Nat), func < 64 → q < 256 → s.hostReady func = true → s.ringOwn func q = true →
     let u := s.received 4
     let rejected := (u.set .jobRqStatusCfgReject 1 q).raise evJobCfgReject (s.ringFunc q) q
     exec (.ringEn func q false) s = .next ((u.set .jobRqCtrlEn 0 q).showRing q) ∧
     (s.flag .jobRqCtrlEn q = true → exec (.ringEn func q true) s = .next ((u.set .jobRqCtrlEn 1 q).showRing q)) ∧
     (s.flag .jobRqCtrlEn q = false → s.mayIssue func = true → ∃ t, exec (.ringEn func q true) s = .next t ∧
       t.flag .jobRqCtrlEn q = true ∧ (t.ring q).interrupted = [] ∧ (∀ slot, (s.ring q).interrupted = [slot] →
         ∃ bytes, bytes.length = 32 ∧ (fieldAt (s.recRead q slot 0 1024) 6 1 = 0 → fieldAt bytes 19 1 = 0x10 ∧
             fieldAt bytes 25 1 = 2) ∧
           (0 < fieldAt (s.recRead q slot 0 1024) 6 1 → fieldAt bytes 19 1 = fieldAt (s.recRead q slot 0 1024) 580 1) ∧
           s.sends t (.write func (s.get .jobRqCqbaseLoAddr q * 4096 + s.get .jobRqCqbaseHiAddr q * 2 ^ 32 +
             32 * s.get .jobRqCqTail q) bytes false false))) ∧
     (s.ringIdle q = false → exec (.reset func q) s = .next rejected ∧ exec (.dropInt func q) s = .next rejected) ∧
     (s.ringIdle q = true →
       (∃ t, exec (.reset func q) s = .next t ∧ t.get .jobRqSqHead q = 0 ∧ t.get .jobRqSqLap q = 0 ∧
         t.get .jobRqCqTail q = 0 ∧ t.get .jobRqCqPhase q = 1 ∧ t.get .jobRqDbSqTail q = 0 ∧
         t.get .jobRqDbCqHead q = 0 ∧ t.ring q = {}) ∧
       exec (.dropInt func q) s = .next ((u.setRing q { u.ring q with interrupted := [], keys := [] }).showRing q)))

/-- R99, R196: a function-level reset ends every job of the function without a completion, disables its rings and gives
their contexts their cold values, disables its MSI-X; jobs of other functions stay; PF0's clears VF Enable. -/
def Obligations.FunctionReset : Prop :=
  ∀ (s : State) (f : Nat), f < 64 → s.funcExists f = true → ∃ t, exec (.flr f) s = .next t ∧
    (∀ q < 256, s.ringAlloc q = true → s.ringFunc q = f → t.jobsOf q = [] ∧ t.ring q = {} ∧
      t.flag .jobRqCtrlEn q = false ∧ t.get .jobRqSqHead q = 0 ∧ t.get .jobRqCqTail q = 0) ∧
    t.flag .cfgMsixEn f = false ∧ (f = 0 → t.flag .cfgVfEnable = false) ∧
    (f ≠ 0 → ∀ q < 256, s.ringFunc q ≠ f → t.jobsOf q = s.jobsOf q ∧ t.ring q = s.ring q) ∧
    t.pcie.held.all (fun o => outFunc o != some f) = true

/-! ### Sealing (06_sealing.md) -/

/-- R92, R139, R147: a SEAL starts once its function has no closing batch, no earlier-fetched SEAL that has not started, and no
ENCODE whose entry was added and whose completion is still to be written: an epoch below the host epoch ends it with
EPOCH_REGRESSION, otherwise it closes the open batch and raises the host epoch to its own; until then nothing happens.
R91: a FENCE passes once no earlier-fetched job of its scope is incomplete, on its way, or held INTERRUPTED. (That FETCH_SEQ
compares modulo 2^32 is the model's reading, log entry 63.) -/
def Obligations.SealAndFenceStart : Prop :=
  ∀ (s : State) (q slot : Nat) (j : Job), q < 256 → slot < 65536 → s.findJob q slot = some j → j.func < 64 →
    j.stage = .started →
    (j.type = 8 → j.stopped = false → s.sealWaits j = false → s.shutdown = false →
      let e := dLen j.desc
      ∃ t j', exec (.sealStart q slot) s = .next t ∧ t.findJob q slot = some j' ∧
        (e < s.epoch j.func → j'.stage = .closing ∧ (j.status = none → j'.status =
            some { unit := 0xFFFFFFFF, status := Status.epochRegression.code, shard := 0xFF }) ∧ t.seal j.func = s.seal j.func ∧
          t.get .sealEpochRejCount j.func = min (FN.max .sealEpochRejCount) (s.get .sealEpochRejCount j.func + 1)) ∧
        (s.epoch j.func ≤ e → j'.stage = .signing ∧ t.epoch j.func = e ∧ t.lastSeal j.func = e ∧
          t.get .sealOpenEntries j.func = 0 ∧ t.flag .sealStatusSealing j.func = true ∧
          ∃ b, (t.seal j.func).closing = [b] ∧ b.entries = s.get .sealOpenEntries j.func ∧ b.epoch = e ∧
            b.auto = false ∧ b.job = some (q, slot, j.gen) ∧ b.root = frontierRoot (s.seal j.func).frontier)) ∧
    (j.type = 8 → s.sealWaits j = true → exec (.sealStart q slot) s = .next s) ∧
    (j.type = 10 → (∀ x ∈ s.jobUnit.jobs, s.fenceScope j x.ring = true → seqBefore x.fetchSeq j.fetchSeq = false) →
      (∀ x ∈ s.jobUnit.rings, s.fenceScope j x.1 = true → x.2.interrupted = [] ∧
        ∀ f ∈ x.2.fetches, seqBefore f.seq j.fetchSeq = false) →
      ∃ t j', exec (.fencePass q slot) s = .next t ∧ t.findJob q slot = some j' ∧ j'.stage = .closing ∧
        j'.status = j.status) ∧
    (j.type = 10 → (∃ x ∈ s.jobUnit.jobs, s.fenceScope j x.ring = true ∧ seqBefore x.fetchSeq j.fetchSeq = true) →
      exec (.fencePass q slot) s = .next s) ∧
    (j.type = 10 → (∃ x ∈ s.jobUnit.rings, s.fenceScope j x.1 = true ∧ x.2.interrupted ≠ []) →
      exec (.fencePass q slot) s = .next s)

/-- R135, R136, R137: the receipt entry of an ENCODE that has ended OK is written at LOG_TAIL, TAIL and its wrap bit advance,
and it joins the open batch; without a free slot it waits and LOG_FULL shows it.
R136, R138, R150: LOG_HEAD releases slots; a value at or above the log's size does nothing; a batch record that was held is
written to a slot it released, and where that write ends in an error TAIL stays and the SEAL gets HOST_DMA_ERROR; LOG_EN takes
effect with no ENCODE or SEAL of the function incomplete. -/
def Obligations.ReceiptLog : Prop :=
  (∀ (s : State) (q slot : Nat) (j : Job), q < 256 → slot < 65536 → s.findJob q slot = some j → j.func < 64 →
     s.jobEnded j = true → j.owesReceipt = true → (s.seal j.func).records = [] →
     let f := j.func
     let tail := s.get .sealLogPtrTail f
     (s.logFree f = false → ∀ ok, exec (.receiptEntryAdd q slot ok) s = .next (s.logFull f)) ∧
     (∀ p snap, s.logFree f = true → s.jobProfile j = some p → j.snap = some snap → s.mayIssue f = true →
       s.get .sealOpenEntries f + 1 < 16777216 → tail < s.logSize f → s.logSize f ≤ 65536 →
       let u := s.startChain f
       let body := u.entryOf j p snap
       ∃ t j', exec (.receiptEntryAdd q slot true) s = .next t ∧ t.findJob q slot = some j' ∧ j'.receipt = true ∧
         t.get .sealLogPtrTail f = (if s.logSize f ≤ tail + 1 then 0 else tail + 1) ∧
         t.get .sealOpenEntries f = s.get .sealOpenEntries f + 1 ∧ (t.seal f).used = (s.seal f).used + 1 ∧
         (t.seal f).frontier = frontierAdd (s.seal f).frontier body ∧
         ∀ w ∈ writePieces (s.mps f) 256 (s.get .sealLogBaseLoAddr f * 4096 + s.get .sealLogBaseHiAddr f * 2 ^ 32 + 256 * tail)
             (logSlot 1 (s.get .sealLogPtrPhase f) body),
           s.sends t (.write f w.1 w.2 false false))) ∧
  (∀ (s : State) (f : Nat) (value : Word) (ok : Bool), f < 64 →
     let v := value.toNat % 65536
     let freed := (v + s.logSize f - s.get .sealLogHeadHead f) % s.logSize f
     (s.hostReady f = true → s.get .sealLogCfgLog2size f < 6 ∨ s.logSize f ≤ v →
       exec (.logHeadWrite ⟨f, ok⟩ value) s = .next (s.received 4)) ∧
     (s.hostReady f = true → 6 ≤ s.get .sealLogCfgLog2size f → v < s.logSize f → (s.seal f).records = [] →
       ∃ t, exec (.logHeadWrite ⟨f, ok⟩ value) s = .next t ∧ t.get .sealLogHeadHead f = v ∧
         (t.seal f).used = (s.seal f).used - freed ∧ (0 < freed → t.flag .sealStatusLogFull f = false) ∧
         State.regsExcept [.sealLogHeadHead, .sealStatusLogFull] s t) ∧
     (∀ rec q slot j, s.hostReady f = true → 6 ≤ s.get .sealLogCfgLog2size f → v < s.logSize f → 0 < freed →
       freed ≤ (s.seal f).used → (s.seal f).used ≤ s.logSize f → s.logOn f = true → s.mayIssue f = true →
       (s.seal f).records = [(rec, some (q, slot, j.gen))] → s.findJob q slot = some j → j.status = none →
       s.get .sealLogPtrTail f < s.logSize f → s.get .sealLogCfgLog2size f ≤ 16 →
       ∃ t j', exec (.logHeadWrite ⟨f, ok⟩ value) s = .next t ∧ (t.seal f).records = [] ∧ t.findJob q slot = some j' ∧
         j'.receipt = true ∧
         (∀ w ∈ writePieces (s.mps f) 256 (s.get .sealLogBaseLoAddr f * 4096 + s.get .sealLogBaseHiAddr f * 2 ^ 32
             + 256 * s.get .sealLogPtrTail f) (logSlot 2 (s.get .sealLogPtrPhase f) rec),
           s.sends t (.write f w.1 w.2 false false)) ∧
         (ok = true → j'.status = none ∧ t.get .sealLogPtrTail f =
           if s.logSize f ≤ s.get .sealLogPtrTail f + 1 then 0 else s.get .sealLogPtrTail f + 1) ∧
         (ok = false → t.get .sealLogPtrTail f = s.get .sealLogPtrTail f ∧
           j'.status = some { unit := 0xFFFFFFFF, status := Status.hostDmaError.code, shard := 0xFF })) ∧
     (s.logBusy f = true → exec (.logEnEffect ⟨f, ok⟩) s = .next s) ∧
     (s.logBusy f = false → ∃ t, exec (.logEnEffect ⟨f, ok⟩) s = .next t ∧ t.eff .sealLogCfgLogEn f = s.get .sealLogCfgLogEn f))

/-- R144, R145: a write of SEAL_EPOCH_LO stages the low word; a commit below the host epoch is rejected, one equal to it
changes nothing, one above it raises the epoch, and no data key stays PENDING whose activation epoch it reaches; a read of
SEAL_EPOCH_LO latches the high word.
R131: the unload of a data key completes once no job holds the version: the slot is EMPTY; while one holds it nothing
happens. -/
def Obligations.EpochAndKeys : Prop :=
  (∀ (s : State) (f : Nat) (value : Word), f < 64 → s.hostReady f = true →
     let u := s.received 4
     let v := (s.seal f).staged + 2 ^ 32 * value.toNat
     exec (.sealEpochLoWrite f value) s = .next (u.setSeal f { s.seal f with staged := value.toNat }) ∧
     exec (.sealEpochLoRead f) s = .next ((s.reply32 f (s.epoch f % 2 ^ 32)).setSeal f
       { s.seal f with latched := some (s.epoch f / 2 ^ 32) }) ∧
     (v < s.epoch f → exec (.epochCommit f value) s = .next (((u.set .sealStatusEpochReg 1 f).satInc .sealEpochRejCount
       f).raise evSealEpochRegression f)) ∧
     (v = s.epoch f → exec (.epochCommit f value) s = .next u) ∧
     (s.epoch f < v → (s.seal f).staged < 2 ^ 32 → ∃ t, exec (.epochCommit f value) s = .next t ∧ t.epoch f = v ∧
       ∀ k < 8, s.keyState f k = keyPending → s.keyAct f k ≤ v → t.keyState f k ≠ keyPending)) ∧
  (∀ (s : State) (f v : Nat), f < 64 → v < 8 → s.keyState f v = keyUnloading →
     (s.keyHeld f v = true → exec (.keyUnloadComplete f v) s = .next s) ∧
     (s.keyHeld f v = false → ∃ t, exec (.keyUnloadComplete f v) s = .next t ∧ t.keyState f v = keyEmpty ∧
       t.get .sealKeyVer f v = 0 ∧ t.keyBytes f v = [] ∧
       (∀ w, w ≠ v → w < 8 → t.keyState f w = s.keyState f w ∧ t.keyBytes f w = s.keyBytes f w) ∧
       t = { s with regs := t.regs, seals := t.seals } ∧
       State.regsExcept [.sealKeyVer, .sealKeyState, .sealKactLoEpoch, .sealKactHiEpoch, .sealKuseCount] s t))

/-- R138, R139, R140, R142, R156: a batch signature takes the function's oldest closed batch; its record is the batch head with
its signature under the receipt alias key (48 free bytes its nonce) and, with a free slot, is written at LOG_TAIL, and at OUT of
its SEAL; an SPDM signature sends the oldest response that waits, its content with the signature under the attestation alias
key, and then what arrived after it runs, up to the next request that is to be signed; every batch that waits has then waited
behind one, and no batch waits behind a second. (The nonce's bytes are free, log entry 10.) -/
def Obligations.Signatures : Prop :=
  ∀ (s : State) (f : Nat) (b : Batch) (rest : List Batch) (r : SignReq) (more : List SignReq) (ok : Bool), f < 64 →
    ((s.seal f).closing = b :: rest → (s.seal f).records = [] → s.logFree f = true → s.mayIssue f = true →
      ∃ t rnd, exec (.signatureDone (.batch f) true) s = .next t ∧ rnd.length = 48 ∧ (t.seal f).closing = rest ∧
        t.flag .sealStatusSealing f = !rest.isEmpty ∧
        (let head := batchHead f b.start b.auto b.seq b.epoch b.entries b.chainId (s.seal f).prev b.root
         let record := head ++ signature (receiptSeed (s.cdi.getD [])) head rnd
         (∀ q slot j, b.job = some (q, slot, j.gen) → s.findJob q slot = some j →
           ∃ j', t.findJob q slot = some j' ∧ j'.receipt = true ∧ j'.outRun.isSome = true) ∧
         (t.seal f).prev = sha384 record ∧
         ∀ w ∈ writePieces (s.mps f) 256 (s.get .sealLogBaseLoAddr f * 4096 + s.get .sealLogBaseHiAddr f * 2 ^ 32
             + 256 * s.get .sealLogPtrTail f) (logSlot 2 (s.get .sealLogPtrPhase f) record),
           s.sends t (.write f w.1 w.2 false false))) ∧
    (∀ c, s.trust.signer = r :: more → s.batchWaited = false → s.cdi = some c →
      ∃ t rnd, exec (.signatureDone .spdm ok) s = .next t ∧ rnd.length = 48 ∧
        s.sends t (.spdm r.transport (Config.spdmBody r.code (r.content ++ signature (attestSeed c) r.content rnd))) ∧
        (more ≠ [] → t.trust.signer = more ∧ t.trust.requests = s.trust.requests ∧
          ∀ g, (t.seal g).closing = (s.seal g).closing.map (fun x => { x with waited := true })) ∧
        (more = [] → s.trust.requests = [] → t.trust.signer = [] ∧ t.trust.requests = [])) ∧
    (s.trust.signer = r :: more → s.batchWaited = true →
      exec (.signatureDone .spdm ok) s = .next s)

/-! ### The mailbox, tamper, SPDM and IDE (07_trust.md, 16_fuses_selftest.md) -/

/-- R165, R129, R131, R166, R361: the commands without a signature: each starts, BUSY and with its result waiting for
MBOX_DONE: GET_NONCE gives 32 fresh bytes, GET_WRAP_KEY the wrap public key the Tarn holds, signed by the attestation alias, KEY_LOAD fills an EMPTY slot and
opens the key path, KEY_UNLOAD empties or marks a slot, BIST_RUN starts a run, an unknown code ends BAD_COMMAND. A command
while one runs has no effect but OVERRUN. (That KEY_LOAD opens the key path, and that KEY_UNLOAD runs in every life-cycle
state, are the model's readings, log entry 46.) -/
def Obligations.MailboxCommands : Prop :=
  ∀ (s : State) (input : List Byte) (env : OtpEnv), s.hostReady 0 = true → input.length ≤ 1020 →
    let starts (t : State) (cmd result : Nat) (output : List Byte) : Prop :=
      t.flag .lcsMboxStatusBusy = true ∧ t.trust.mbox = some { cmd, result, output, otp := none }
    (s.flag .lcsMboxStatusBusy = true →
      ∀ c ∈ [Instr.getNonce input, .getWrapKey input, .keyLoad input, .keyUnload input, .bistRun input, .lcAdvance input env,
        .ownerChange input env, .arbAdvance input env, .udsGenerate input env, .otpProgram input env, .otpLock input env],
        exec c s = .next ((s.received 4).set .lcsMboxStatusOverrun 1)) ∧
    (s.flag .lcsMboxStatusBusy = false →
      (input = [] → ∃ t n, exec (.getNonce input) s = .next t ∧ n.length = 32 ∧ starts t 0x01 0 n ∧
        t.trust.nonce = some n) ∧
      (∀ h, input = [] → s.keysAllowed = true → s.trust.held = some h →
        ∃ t rnd, exec (.getWrapKey input) s = .next t ∧ rnd.length = 48 ∧
          starts t 0x02 0 (publicKey97 h.wrap ++ signature (attestSeed h.cdi) (publicKey97 h.wrap) rnd)) ∧
      (∀ h, let func := fieldAt input 0 1;
        let slot := fieldAt input 1 1;
        input.length = 188 → zeroIn input 2 4 = true → s.keysAllowed = true → func ≤ s.vfCount → func < 64 → slot < 8 →
        s.keyState func slot = keyEmpty → s.trust.held = some h → s.keySlotOf func (fieldAt input 18 2) = none →
        ∃ t, exec (.keyLoad input) s = .next t ∧ match unwrapKey h.wrap (input.drop 12) func with
          | none => starts t 0x10 5 [] ∧ t.seals = s.seals
          | some key => starts t 0x10 0 [] ∧ t.keyState func slot ≠ keyEmpty ∧ t.keyBytes func slot = key ∧
            t.flag .tarnStatusKeypathOpen = true ∧ t.flag .tarnStatusWiped = false ∧
            t.get .sealKeyVer func slot = fieldAt input 18 2) ∧
      (let func := fieldAt input 0 1;
        let slot := fieldAt input 1 1;
        input.length = 2 → func ≤ s.vfCount → func < 64 → slot < 8 → ∃ t, exec (.keyUnload input) s = .next t ∧
          starts t 0x11 0 [] ∧ (s.keyHeld func slot = true → s.keyState func slot ≠ keyEmpty →
            t.keyState func slot = keyUnloading) ∧
          (s.keyHeld func slot = false → s.keyState func slot ≠ keyUnloading → t.keyState func slot = keyEmpty)) ∧
      (let tests := fieldAt input 0 2;
        input.length = 12 → zeroIn input 3 4 = true → tests % 2 = 0 → tests < 1024 → fieldAt input 2 1 ≤ 1 →
        s.bistAccepted tests = true → s.bist = none → s.ringsQuiet = true → ∃ t, exec (.bistRun input) s = .next t ∧
          starts t 0x40 0 [] ∧ t.bist = some { tests, full := fieldAt input 2 1 == 1, inst := fieldAt input 4 8 }) ∧
      (∀ cmd < 256, cmd ∉ knownCmds → ∃ t, exec (.mboxUnknownCmd cmd input) s = .next t ∧ starts t cmd 1 []))

/-- R161, R162, R164, R166, R360, R361, R362, R364: a signed command whose input is well formed and permitted consumes the
nonce; where the signature over its label, its input and the nonce does not verify it ends AUTH_FAIL and no fuse changes
(which key it is verified under: log entry 10); where it does, LC_ADVANCE, OWNER_CHANGE, ARB_ADVANCE, UDS_GENERATE, OTP_PROGRAM and OTP_LOCK program their bits until
MBOX_DONE.
R165, R362: at MBOX_DONE the output stands at the buffer's start, RESULT and OUT_LEN hold the command's, DONE is set and
BUSY cleared; bits that were to be programmed read blown in the array; PENDING_CHANGE, the wipe and the hold of R162 follow an
LC_ADVANCE and an OWNER_CHANGE. A result that is due with PERST# asserted waits for the end of the start. -/
def Obligations.SignedAndDone : Prop :=
  (∀ (s : State) (input nonce key : List Byte) (env : OtpEnv), s.hostReady 0 = true → s.flag .lcsMboxStatusBusy = false →
     s.trust.nonce = some nonce → input.length ≤ 1020 → env.auxOk = true → env.failBit = none → s.govInLimits 0 = true →
     let signed (label : String) (n : Nat) : Bool :=
       verifiesHash key (asciiBytes label ++ input.take n ++ nonce) (sliceBytes input n 96)
     let answers (c : Instr) (cmd : Nat) (ok : Bool) (f : State → Prop) : Prop := ∃ t, exec c s = .next t ∧
       t.trust.nonce = none ∧ (ok = true → f t) ∧
       (ok = false → t.trust.mbox = some { cmd, result := 4, output := [], otp := none } ∧ t.fuses = s.fuses)
     let runs (cmd : Nat) (output : List Byte) (todo : List Nat) (t : State) : Prop :=
       t.flag .lcsMboxStatusBusy = true ∧ t.flag .otpStatusProgBusy = true ∧
       t.trust.mbox = some { cmd, result := 0, output, otp := some { todo, failAt := none } }
     (s.ownerKey = some key → input.length = 100 → zeroIn input 1 4 = true →
       s.lc = lcMfg ∨ s.lc = lcProvisioned ∨ s.lc = lcDeployed → s.arbShadow < fieldAt input 0 1 →
       fieldAt input 0 1 ≤ s.get .lcsArbFwSvn → answers (.arbAdvance input env) 0x22 (signed "BXARBADV" 4)
         (runs 0x22 [] (s.bitsToBlow 0x090 (leBytes 16 (2 ^ fieldAt input 0 1 - 1))))) ∧
     (s.signerKey = some key → input.length = 100 → zeroIn input 0 4 = true → s.lc = lcMfg →
       s.flag .otpRegionLocked 0 = false → (∀ k < 32, s.arrayByte k = 0) →
       answers (.udsGenerate input env) 0x30 (signed "BXUDSGN1" 4) (fun t => ∃ uds, uds.length = 32 ∧
         runs 0x30 (publicKey97 (deviceSeed uds)) (s.bitsToBlow 0 uds) t)) ∧
     (let o := fieldAt input 0 2;
       let n := fieldAt input 2 2;
       s.signerKey = some key → 1 ≤ n → n ≤ 256 → input.length = 4 + n + 96 → s.otpRange o n = true →
       answers (.otpProgram input env) 0x31 (signed "BXOTPPG1" (4 + n))
         (runs 0x31 [0xFF, 0x7F, 0, 0] (s.bitsToBlow o (sliceBytes input 4 n)))) ∧
     (let r := fieldAt input 0 1;
       s.signerKey = some key → input.length = 100 → fieldAt input 1 1 = 0 → zeroIn input 2 4 = true → s.otpOpen r = true →
       answers (.otpLock input env) 0x32 (signed "BXOTPLK1" 4) (fun t =>
         (s.lockGuard r env.margins = true → runs 0x32 [] (s.bitsToBlow (lockByte r) [1]) t) ∧
         (s.lockGuard r env.margins = false →
           t.trust.mbox = some { cmd := 0x32, result := 3, output := [], otp := none } ∧ t.fuses = s.fuses))) ∧
     (let target := fieldAt input 0 1;
       s.signerKey = some key → input.length = 148 → zeroIn input 1 4 = true →
       target = lcProvisioned ∨ zeroIn input 4 52 = true → s.lcTarget target = true →
       answers (.lcAdvance input env) 0x20 (signed "BXLCADV1" 52) (runs 0x20 []
         ((if target = lcProvisioned then s.ownerBits 0 (sliceBytes input 4 48) else []) ++ s.lcBits target ++
           if target = lcMfg then s.mfgBits else []))) ∧
     (s.ownerKey = some key → input.length = 144 → s.lc = lcProvisioned → s.ownerNow ≠ some 3 →
       answers (.ownerChange input env) 0x21 (signed "BXOWNER1" 48)
         (runs 0x21 [] (s.ownerBits (s.ownerNow.elim 0 (· + 1)) (input.take 48))))) ∧
  (∀ (s : State) (r : MboxRun), s.trust.mbox = some r → r.output.length ≤ 1020 → r.result ≠ 7 → r.result < 256 →
     let ended (t : State) : Prop := t.trust.mbox = none ∧ t.flag .lcsMboxStatusDone = true ∧
       t.flag .lcsMboxStatusBusy = false ∧ t.get .lcsMboxStatusResult = r.result ∧
       t.get .lcsMboxStatusOutLen = r.output.length ∧ t.mboxBytes.take r.output.length = r.output
     let up := s.boot.perst = false ∧ s.boot.coldNext = false
     (r.otp = none → r.late = false → ∃ t, exec .mboxDone s = .next t ∧ ended t ∧
       t = { s with regs := t.regs, trust := t.trust }) ∧
     (r.otp = none → r.late = true → exec .mboxDone s = .next s) ∧
     (∀ todo, r.otp = some { todo, failAt := none } → (∀ b ∈ todo, b < 32768) → ∃ t, exec .mboxDone s = .next t ∧
       t.flag .otpStatusProgBusy = false ∧ (∀ b ∈ todo, t.arrayBit b = true) ∧
       (∀ b, b / 8 < 4096 → b ∉ todo → t.arrayBit b = s.arrayBit b) ∧
       t.get .otpProgOpsCount = min (FN.max .otpProgOpsCount) (s.get .otpProgOpsCount + 1) ∧
       (r.cmd ≠ 0x20 → r.cmd ≠ 0x21 → (up → ended t) ∧
         (¬ up → t.trust.mbox = some { cmd := r.cmd, result := r.result, output := r.output, otp := none, late := true })) ∧
       (r.cmd = 0x20 ∨ r.cmd = 0x21 → up → t.trust.mbox = none ∧ t.flag .lcsMboxStatusDone = true ∧
         t.flag .lcsMboxStatusBusy = false ∧ t.get .lcsMboxStatusResult = r.result ∧ t.inHold = true ∧ t.seals = [] ∧
         t.jobUnit.jobs = [] ∧ t.flag .lcsStatePendingChange = true ∧ t.flag .tarnStatusKeypathOpen = false)))

/-- R171, R172, R391: a detector's firing, outside BLANK and, of the voltage detectors, with VDD_CORE in range, latches its
cause, wipes the Tarn, ends every job without a completion, invalidates the Lake, closes the key path and enters the hold;
elsewhere nothing happens. When the zeroing of the stack is done, every byte of it reads zero and no line is poisoned.
R156, R169, R170, R244: two ports at one Tarn word: A first, B after it, the collision counted by its kind, equal writes
by none, none while the key path is closed; a key-request queue's reset counts and its requests go out again (how many
it held is a free value, log entry 1); a
mailbox queue's reset ends the command in progress BAD_COMMAND; a fault-record queue's reset counts its records as
lost; a sideband reset ends the sessions held on MCTP and no other. -/
def Obligations.TamperAndQueues : Prop :=
  (∀ (s : State) (d : Detector),
     (s.lc = lcBlank → exec (.lcsTamper d) s = .next s) ∧
     (d = .volt → s.boot.coreVolt = false → exec (.lcsTamper d) s = .next s) ∧
     (s.lc ≠ lcBlank → s.boot.aux = true → (d = .volt → s.boot.coreVolt = true) → ∃ t, exec (.lcsTamper d) s = .next t ∧ t.flag (tamperField d) = true ∧
       t.jobUnit.jobs = [] ∧ t.inHold = true ∧ t.flag .tarnStatusWiped = true ∧ t.flag .tarnStatusKeypathOpen = false ∧
       t.seals = [] ∧ t.trust.held = none ∧ t.trust.sessions = [] ∧ t.trust.streams = [] ∧ t.trust.requests = [] ∧
       t.lake.lines = [] ∧
       (s.railIgnored evLcsTamper = false → t.fatal = true)) ∧
     (s.dram.zeroing = true → ∃ t, exec .stackZeroingDone s = .next t ∧ (∀ k, Mem.read 0 t.dram.mem k = 0) ∧
       t.dram.poison = [] ∧ t.dram.zeroing = false ∧ t = { s with dram := t.dram }) ∧
     (s.dram.zeroing = false → exec .stackZeroingDone s = .next s)) ∧
  (∀ (s : State) (addr : Nat) (x y : BitVec 64), addr < 524288 →
     (s.flag .tarnStatusKeypathOpen = true → portBMay addr true = true → x ≠ y →
       ∃ t, exec (.tarnCollision addr (some x) (some y)) s = .next t ∧ t.tarnWord addr = y.toNat ∧
         t.get .tarnCollWwCount = min (FN.max .tarnCollWwCount) (s.get .tarnCollWwCount + 1) ∧
         t = { s with regs := t.regs, trust := t.trust } ∧ State.regsExcept [.tarnCollWwCount] s t) ∧
     (s.flag .tarnStatusKeypathOpen = true → portBMay addr false = true →
       ∃ t, exec (.tarnCollision addr (some x) none) s = .next t ∧ t.tarnWord addr = x.toNat ∧
         t.get .tarnCollRwCount = min (FN.max .tarnCollRwCount) (s.get .tarnCollRwCount + 1) ∧
         State.regsExcept [.tarnCollRwCount] s t) ∧
     (s.flag .tarnStatusKeypathOpen = false → exec (.tarnCollision addr (some x) (some y)) s =
       .next (s.setTarnWord addr x.toNat)) ∧
     exec .keyRequestReissue s = .next { s with trust := { s.trust with reissue := false } } ∧
     (s.boot.aux = false → ∀ q, exec (.pairedQueueMismatch q) s = .next s) ∧
     (s.boot.aux = true →
       let u := ({ s.satInc .tarnKqResetsCount with trust := { s.trust with reissue := true } } : State).draw 1
       exec (.pairedQueueMismatch .keyRequests) s = .next (u.1.report
         { cls := .u, source := evTarnKqReset, cause := causeQueueReset, detail := leNat u.2 })) ∧
     (∀ r, s.boot.aux = true → s.trust.mbox = some r → r.otp = none → exec (.pairedQueueMismatch .mailbox) s =
       .next ((s.mboxEnd 1 []).report { cls := .u, source := evLcsMboxReset, cause := causeQueueReset, detail := 1 })) ∧
     (s.boot.aux = true → ∃ t, exec (.pairedQueueMismatch .faultRecords) s = .next t ∧
       t.get .fltOvfCount = min (FN.max .fltOvfCount) (s.get .fltOvfCount + s.get .fltQueueCount)) ∧
     exec .sidebandReset s = .next { s with trust := { s.trust with
       sessions := s.trust.sessions.filter (fun z => !decide (z.transport = .mctp)) } })

/-- R151, R154, R156: a request that finds none before it is served: GET_VERSION offers 1.2 and 1.3 and starts the transport's
negotiation again; GET_CAPABILITIES takes an offered 1.2 or 1.3; NEGOTIATE_ALGORITHMS takes the one suite after it; large
messages go in chunks, the last of which runs the request they make up; an unlisted request is Unsupported. (The codes and
layouts of the base specification are the model's, log entry 26.)
R153, R155, R156: after negotiation: digests of both chains; a certificate chain in parts while CERT_OK is 1; CHALLENGE and
signed measurements wait for the signer, unsigned measurements are answered at once. While a response waits for the signer, a
request of either transport waits behind it. -/
def Obligations.SpdmRequests : Prop :=
  (∀ (s : State) (t : Transport) (bytes : List Byte) (seq : Nat), s.spdmOpen t = true → s.trust.uds.isSome = true →
     s.trust.signer = [] → s.trust.requests = [] →
     exec (.getVersion t) s = .next ((s.setConn t {}).spdmSend t 0x04 [0x12, 0x13]) ∧
     (∀ v, v = 0x12 ∨ v = 0x13 → exec (.getCapabilities t v) s =
       .next ((s.setConn t { s.conn t with version := some v, caps := true, algs := false }).spdmSend t 0x61
         (leBytes 1 v ++ [16] ++ asciiBytes (String.intercalate " " spdmCaps)))) ∧
     (∀ v, v ≠ 0x12 → v ≠ 0x13 → exec (.getCapabilities t v) s = .next (s.spdmError t spdmErrVersion)) ∧
     ((s.conn t).caps = true → ∃ u, exec (.negotiateAlgorithms t true) s = .next u ∧ (u.conn t).algs = true ∧
       exec (.negotiateAlgorithms t false) s = .next (s.spdmError t spdmErrInvalid)) ∧
     ((s.conn t).caps = false → exec (.negotiateAlgorithms t true) s = .next (s.spdmError t spdmErrUnexpected)) ∧
     ((s.conn t).algs = true →
       (∃ u, exec (.chunkSend t none bytes) s = .next u ∧ (u.conn t).chunkIn = (s.conn t).chunkIn ++ bytes ∧
         u.trust.signer = [] ∧ u.trust.requests = [] ∧
         ∀ r, exec (.chunkSend t (some r) bytes) s =
           .next ((u.spdmRequest t r).setConn t { (u.spdmRequest t r).conn t with chunkIn := [] })) ∧
       ((s.conn t).large ≠ [] → exec (.chunkGet t seq) s =
         .next (s.spdmOut t (Config.spdmBody 0x06 (leBytes 2 seq ++ (s.conn t).large))))) ∧
     exec (.vendorDefinedRequest t none false) s = .next (s.spdmError t spdmErrUnsupported)) ∧
  (∀ (s : State) (t : Transport) (nonce : List Byte), s.spdmOpen t = true → s.trust.uds.isSome = true →
     s.trust.signer = [] → s.trust.requests = [] → s.trust.held.isSome = true →
     (s.conn t).algs = true → nonce.length = 32 →
     exec (.getDigests t) s = .next (s.spdmSend t 0x01 (sha384 (s.certChain 0) ++ sha384 (s.certChain 1))) ∧
     (∀ slot offset length, slot < 2 →
       (s.flag .lcsStateCertOk = false →
         exec (.getCertificate t slot offset length) s = .next (s.spdmError t spdmErrUnspecified)) ∧
       (s.flag .lcsStateCertOk = true →
         let chain := s.certChain slot
         let part := (chain.drop offset).take length
         exec (.getCertificate t slot offset length) s = .next (if chain.length ≤ offset then s.spdmError t spdmErrInvalid
           else s.spdmSend t 0x02 (leBytes 1 slot ++ leBytes 2 part.length ++
             leBytes 2 (chain.length - offset - part.length) ++ part)))) ∧
     (∀ slot < 2, exec (.challenge t slot nonce) s = .next { s with trust := { s.trust with signer :=
       [{ transport := t, code := 0x03,
          content := leBytes 1 slot ++ sha384 (s.certChain slot) ++ nonce ++ sha384 s.measurementAll }] } }) ∧
     (∀ k, 1 ≤ k → k ≤ 6 → let body := leBytes 1 k ++ s.measurement k
       exec (.getMeasurements t k false nonce) s = .next (s.spdmSend t 0x60 body) ∧
       exec (.getMeasurements t k true nonce) s = .next { s with trust := { s.trust with signer :=
         [{ transport := t, code := 0x60, content := body ++ nonce }] } })) ∧
  (∀ (s : State) (t : Transport) (nonce : List Byte) (k : Nat), s.spdmOpen t = true → s.trust.signer ≠ [] →
     let waits (r : SpdmReq) : State := { s with trust := { s.trust with requests := s.trust.requests ++ [(t, r)] } }
     exec (.getVersion t) s = .next (waits .getVersion) ∧ exec (.getDigests t) s = .next (waits .getDigests) ∧
     exec (.challenge t k nonce) s = .next (waits (.challenge k nonce)) ∧
     exec (.getMeasurements t k false nonce) s = .next (waits (.getMeasurements k false nonce)))

/-- R154: KEY_EXCHANGE starts a session while fewer than four exist; the right verify data establishes it; KEY_UPDATE and
END_SESSION act in an established session of their transport.
R157: IDE_KM only in an established secure session over DOE: KEY_PROG stores a key, K_SET_GO makes the stream Secure with a
key set that has keys, K_SET_STOP of the set in use makes it Insecure, QUERY changes nothing of the streams; for a stream or key
set that does not exist, or a key of another length, KEY_PROG is refused; outside such a session the request is answered with
an error and nothing else changes.
R207: the object that answers a request of a secure session is of type 2. -/
def Obligations.SessionsAndIde : Prop :=
  (∀ (s : State) (t : Transport) (x : SpdmSession), s.spdmOpen t = true → s.trust.uds.isSome = true →
     s.trust.signer = [] → s.trust.requests = [] →
     ((s.conn t).algs = true → s.trust.held.isSome = true → s.trust.sessions.length < 4 → ∀ slot req data, slot < 2 →
       ∃ u eph, exec (.keyExchange t slot req data) s = .next u ∧ eph.length = 48 ∧
         match sharedX eph (0x04 :: data) with
         | none => u.trust.sessions = s.trust.sessions
         | some z => ∃ y, u.trust.sessions = s.trust.sessions ++ [y] ∧ y.transport = t ∧ y.established = false ∧
           y.secret = z ∧ u.trust.signer.length = 1) ∧
     (s.session x.id = some x → x.transport = t →
       (x.established = false → ∀ d, ∃ u, exec (.finish t x.id d) s = .next u ∧
         u.session x.id = if d = finishData x.secret then some { x with established := true } else none) ∧
       (x.established = true → (∃ u, exec (.keyUpdate t x.id) s = .next u ∧
           u.session x.id = some { x with updates := x.updates + 1 }) ∧
         (∃ u, exec (.endSession t x.id) s = .next u ∧ u.session x.id = none)))) ∧
  (∀ (s : State) (x : SpdmSession) (n set sub : Nat) (key : List Byte), s.spdmOpen .doe = true → s.trust.uds.isSome = true →
     s.trust.signer = [] → s.trust.requests = [] →
     (s.session x.id = some x → x.transport = .doe → x.established = true →
       let q := some x.id
       (n < 8 → set < 2 → key.length = 32 → ∃ u, exec (.keyProg .doe q n set sub key) s = .next u ∧
         assoc (u.stream n).keys (set * 16 + sub % 16) = some key ∧ (u.stream n).secure = (s.stream n).secure) ∧
       (s.spdmError .doe spdmErrInvalid).pcie.doeOut ≠ [] ∧
       ((s.spdmError .doe spdmErrInvalid).asSecured .doe q).pcie.doeOut.headD 0 = 1 + 65536 * 2 ∧
       (8 ≤ n ∨ 2 ≤ set ∨ key.length ≠ 32 →
         exec (.keyProg .doe q n set sub key) s = .next ((s.spdmError .doe spdmErrInvalid).asSecured .doe q)) ∧
       (n < 8 → set < 2 → (s.stream n).keys.any (fun k => k.1 / 16 == set) = true →
         ∃ u, exec (.kSetGo .doe q n set) s = .next u ∧
           u.stream n = { s.stream n with active := some set, secure := true }) ∧
       (n < 8 → set < 2 → (s.stream n).active = some set → ∃ u, exec (.kSetStop .doe q n set) s = .next u ∧
         u.stream n = { s.stream n with active := none, secure := false }) ∧
       (∃ u, exec (.ideKmQuery .doe q) s = .next u ∧ u.trust.streams = s.trust.streams ∧ s.sends u (.spdm .doe
         (Config.spdmBody 0x7E ([0x01, 8] ++ (List.range 8).map (fun k => BitVec.ofNat 8 (b2n (s.stream k).secure)))))) ∧
       (∃ u, exec (.vendorDefinedRequest .doe q true) s = .next u ∧ s.sends u (.spdm .doe (Config.spdmBody 0x7E [])))) ∧
     (let refused := s.spdmError .doe spdmErrUnspecified;
       exec (.keyProg .doe none n set sub key) s = .next refused ∧ exec (.kSetGo .doe none n set) s = .next refused ∧
       exec (.kSetStop .doe none n set) s = .next refused ∧ exec (.ideKmQuery .doe none) s = .next refused ∧
       exec (.vendorDefinedRequest .doe none true) s = .next refused))

/-! ### PCI Express (08_pcie.md) -/

/-- R179, R180, R182: a link that is down trains, once an identity stands, at the widest width up to MAX_WIDTH whose lanes all
work, in the order the partner's lane 0 gives, and at the rate trained, at most MAX_RATE and 32.0 GT/s without Flit mode.
R182, R184, R185, R186, R189, R177: Recovery keeps DL_Up, counts unless Retrain Link entered it before, lets the class-B fields
take effect, and drops the lanes that fail in it; L0p asks for MIN_WIDTH and for the full width and uses a width accepted, and
accepts the partner's; ASPM L1 is entered with nothing owed, outstanding or queued, and left through Recovery; the device
follows into Loopback; margining is answered from 16.0 GT/s on, with the parameters of R184 (its command layout is the
model's, log entry 62). -/
def Obligations.LinkTraining : Prop :=
  (∀ (s : State) (tr : TrainResult), s.boot.aux = true → s.boot.perst = false → s.boot.plls = true → s.dlUp = false → s.pcie.identity ≠ [] →
     s.boot.run = none → tr.rate ≠ 0 → tr.rate ≤ 6 → 1 ≤ s.get .pcxLinkCfgMaxWidth →
     bitAt tr.working (if tr.reversed then 15 else 0) = true →
     ∃ t, exec (.linkUp tr) s = .next t ∧ t.dlUp = true ∧
       (let w := t.get .pcxLinkStatusWidth
        let fits (v : Nat) : Prop := v ≤ s.get .pcxLinkCfgMaxWidth ∧
          ∀ i < v, bitAt tr.working (if tr.reversed then 15 - i else i) = true
        w ∈ [1, 2, 4, 8, 16] ∧ fits w ∧ (∀ v ∈ [1, 2, 4, 8, 16], w < v → ¬fits v) ∧ t.pcie.width = w ∧
        (s.image.isEmpty = false → (t.flag .pcxStatusWidthDegraded = true ↔ w < s.get .pcxLinkCfgMaxWidth))) ∧
       t.get .pcxLinkStatusRate = max 1 (min (min tr.rate (s.get .pcxLinkCfgMaxRate)) (if tr.flit then 6 else 5)) ∧
       t.flag .pcxLinkStatusFlit = tr.flit ∧ t.flag .pcxLinkStatusReversed = tr.reversed ∧
       t.get .pcxPolarityInv = tr.inverted % 65536) ∧
  (∀ (s : State) (tr : TrainResult) (lane head k w : Nat), s.dlUp = true → lane < 16 →
     let used (u : State) (w : Nat) : State :=
       ({ u with pcie := { u.pcie with width := w } }).set .pcxLinkStatusL0pReduced (b2n (w < u.get .pcxLinkStatusWidth))
     let min := s.get .pcxL0pMinWidth
     let full := s.get .pcxLinkStatusWidth
     (∃ t, exec (.linkRecovery tr) s = .next t ∧ t.dlUp = true ∧ t.get .pcxLinkStatusLtssm = 3 ∧
       (s.get .pcxLinkStatusLtssm ≠ 4 →
         t.get .pcxRecoveriesCount = (s.get .pcxRecoveriesCount + 1) % 2 ^ FN.pcxRecoveriesCount.width ∧
         t.eff .pcxLinkCfgMaxRate = s.get .pcxLinkCfgMaxRate ∧ t.eff .pcxLinkCfgMaxWidth = s.get .pcxLinkCfgMaxWidth) ∧
       (tr.rate = 0 → t.get .pcxLinkStatusRate = s.get .pcxLinkStatusRate ∧
         t.get .pcxLinkStatusWidth = s.get .pcxLinkStatusWidth) ∧
       (1 ≤ s.get .pcxLinkCfgMaxWidth → 1 ≤ tr.rate → tr.rate ≤ 6 → bitAt tr.working (if tr.reversed then 15 else 0) = true →
         t.get .pcxLinkStatusRate = max 1 (Nat.min (Nat.min tr.rate (s.get .pcxLinkCfgMaxRate))
           (if s.flag .pcxLinkStatusFlit then 6 else 5)) ∧
         t.get .pcxLinkStatusWidth = trainWidth tr.working (s.get .pcxLinkCfgMaxWidth) tr.reversed)) ∧
     (s.l0pOn = true → s.flag .pcxLinkCfgL0pInit = true → min < s.pcie.width →
       exec (.l0pIdleExpire true) s = .next (used (s.emit (.l0p min)) min) ∧
       exec (.l0pIdleExpire false) s = .next (s.emit (.l0p min))) ∧
     (s.l0pOn = true → w ∈ [1, 2, 4, 8, 16] → w ≤ full → exec (.l0pWidthRequest w) s = .next (used s w)) ∧
     (s.l0pOn = true → s.pcie.width < full →
       exec (.l0pFullWidthRequest true) s = .next (used (s.emit (.l0p full)) full) ∧
       exec (.l0pFullWidthRequest false) s = .next (s.emit (.l0p full))) ∧
     (bitAt (s.get .cfgAspm) 1 = true → s.pcie.tags = [] → s.pcie.waiting = [] → s.owesCompletion = false →
       s.requestQueued = false → s.get .pcxLinkStatusLtssm = 3 → exec .l1Entry s = .next (s.set .pcxLinkStatusLtssm 5)) ∧
     (s.pcie.tags ≠ [] ∨ s.owesCompletion = true ∨ s.requestQueued = true → exec .l1Entry s = .next s) ∧
     (s.get .pcxLinkStatusLtssm = 5 → ∃ t, exec .l1Exit s = .next t ∧ t.get .pcxLinkStatusLtssm = 3 ∧
       t.get .pcxRecoveriesCount = (s.get .pcxRecoveriesCount + 1) % 2 ^ FN.pcxRecoveriesCount.width) ∧
     exec .loopbackEntry s =
       .next (({ s with pcie := { s.pcie with loopback := true } }).set .pcxLinkStatusLtssm 7) ∧
     (4 ≤ s.get .pcxLinkStatusRate → head < 256 →
       (bits head 5 3 = 1 → ∀ v, (k, v) ∈ [(0x88, 0x1F), (0x89, 32), (0x8A, 16), (0x8B, 40),
           (0x8C, if s.get .pcxLinkStatusRate = 6 then 12 else 25), (0x90, 15)] →
         exec (.marginCommand lane (head + 256 * k)) s = .next (s.emit (.margin lane (head + 256 * v)))) ∧
       (bits head 5 3 = 3 ∨ bits head 5 3 = 4 → ∃ v < 256, ∃ t, exec (.marginCommand lane (head + 256 * k)) s = .next t ∧
         t = { s with freeCtr := t.freeCtr, out := s.out ++ [.margin lane (head + 256 * v)] }) ∧
       (k < 256 → bits head 5 3 = 0 ∨ bits head 5 3 = 2 ∨ 5 ≤ bits head 5 3 →
         exec (.marginCommand lane (head + 256 * k)) s = .next (s.emit (.margin lane (head + 256 * k))))) ∧
     (s.get .pcxLinkStatusRate < 4 → exec (.marginCommand lane head) s = .next s))

/-- R187, R192, R194, R196: entering D3hot ends the jobs in flight (but SEALs being signed) with their completions and turns
the engine domains off; D0 returns, and requests held leave; VF Enable; Bus Master Enable, whose rise releases what was held;
Memory Space Enable. -/
def Obligations.PowerStatesAndEnables : Prop :=
  ∀ (s : State) (f : Nat), s.cfgOpen = true → f < 64 →
    (s.d3hot = false → ∃ t, exec .d3hotEntry s = .next t ∧ t.d3hot = true ∧ (∀ e < 48, t.dom e = 0) ∧ t.scratch = [] ∧
      (s.noCompletions = false → (∀ j ∈ s.jobUnit.jobs, j.stage ≠ .signing) → t.jobUnit.jobs = [])) ∧
    (s.d3hot = true → exec .d3hotEntry s = .next s ∧ ∃ t, exec .d0Return s = .next t ∧ t.d3hot = false ∧
      ∀ o, s.pcie.held = [o] → outFunc o = some f → s.flag .cfgBme f = true → s.linkHeld = false → s.sends t o) ∧
    exec (.vfEnable true) s = .next (s.set .cfgVfEnable 1) ∧
    (s.flag .cfgVfEnable = true → ∃ t, exec (.vfEnable false) s = .next t ∧ t.flag .cfgVfEnable = false ∧
      ∀ q < 256, s.ringAlloc q = true → s.ringFunc q = f → 1 ≤ f → f ≤ s.get .cfgNumVfs → t.jobsOf q = []) ∧
    (s.funcExists f = true → (∀ en, ∃ t, exec (.busMasterEnable f en) s = .next t ∧ t.flag .cfgBme f = en ∧
        State.regsExcept [.cfgBme, .jobRqStatusIdle, .jobRqStatusIntPending, .jobRqStatusOutstanding, .jobRqStatusFetchHeld] s t ∧
        ∀ o, en = true → s.d3hot = false → s.linkHeld = false → s.pcie.held = [o] → outFunc o = some f → t.pcie.held = [] ∧ s.sends t o) ∧
      ∀ en, exec (.memorySpaceEnable f en) s = .next (s.set .cfgMse (b2n en) f)) ∧
    (s.funcExists f = false → ∀ en, exec (.busMasterEnable f en) s = .next s ∧ exec (.memorySpaceEnable f en) s = .next s)

/-- R158, R197, R198, R200, R201: the tag width follows its enables once no read is outstanding; a tag that leaves quarantine is free
again; a completion ends its tag's read, one for no outstanding read only counts; a read that times out ends, its tag in
quarantine, and its descriptor's job fails. A completion that fails its IDE check makes the stream Insecure and leaves its tag
outstanding.
R203, R204, R207: unmasking a vector sends its pending message, with its table entry's address and data, which covers the log
entries that await one (R150; log entry 60) and starts the count of completions of its rings again (R72; log entry 65); a DOE
object of a type it serves is taken or answered, any other, or one beyond 1,024 dwords, sets the error; abort clears the mailbox
and what waits in it. -/
def Obligations.TagsMsixDoe : Prop :=
  (∀ (s : State) (tag : Nat) (bytes : List Byte), tag < 16384 →
     (s.pcie.tags = [] → s.pcie.waiting = [] →
       exec .tagEnableEffect s = .next { s with pcie := { s.pcie with tagBits := s.tagWidth } }) ∧
     (s.pcie.tags ≠ [] → exec .tagEnableEffect s = .next s) ∧
     (s.pcie.quarantine.contains tag = true → s.pcie.waiting = [] → exec (.tagQuarantineEnd tag) s = .next { s with pcie :=
       { s.pcie with quarantine := s.pcie.quarantine.filter (· ≠ tag), freed := s.pcie.freed ++ [tag] } }) ∧
     (∀ r, s.pcie.tags.find? (·.tag == tag) = some r →
       exec (.completionReceived tag (.data bytes) .good) s = .next ((s.retireTag tag).received bytes.length) ∧
       (∀ why, why ≠ .poisoned →
         (∀ q slot, r.held = false → r.use = .descriptor q slot →
           exec (.completionReceived tag (.failed why) .good) s = .next ((s.retireTag tag).fetchFail q (· == slot))) ∧
         (r.held = true → exec (.completionReceived tag (.failed why) .good) s = .next (s.retireTag tag))) ∧
       (s.flag .cfgCtoDisable = false → ∃ t, exec (.cplTimeout tag) s = .next t ∧
         t.get .pcxCplTimeoutsCount = Nat.min (FN.max .pcxCplTimeoutsCount) (s.get .pcxCplTimeoutsCount + 1) ∧
         tag ∈ t.pcie.quarantine ∧ (∀ x ∈ t.pcie.tags, x.tag ≠ tag)) ∧
       (s.flag .cfgCtoDisable = true → exec (.cplTimeout tag) s = .next s)) ∧
     (s.pcie.tags.find? (·.tag == tag) = none → ∀ c, exec (.completionReceived tag c .good) s =
       .next ((s.satInc .pcxUnexpCplCount).aerAdvisoryNonFatal 0 aerUnexpected)) ∧
     (∀ n c, n < 8 → ∃ t, exec (.completionReceived tag c (.ideCheck n)) s = .next t ∧
       (t.stream n).secure = false ∧ (t.stream n).active = none ∧
       ((∃ r ∈ s.pcie.tags, r.tag = tag) → ∃ r ∈ t.pcie.tags, r.tag = tag))) ∧
  (∀ (s : State) (f v dwords : Nat) (bytes : List Byte), f < 64 → v < (if f = 0 then 128 else 8) →
     let u := s.received 4
     let w := s.get .msixPba f (v / 32)
     (s.hostReady f = true → bitAt w (v % 32) = false →
       exec (.msixUnmask f v) s = .next (u.set .msixMask 0 f v)) ∧
     (s.hostReady f = true → bitAt w (v % 32) = true → s.flag .cfgMsixEn f = true → s.flag .cfgMsixFuncMask f = false →
       let x := State.ringsSent (((u.set .msixMask 0 f v).set .msixPba (w - 2 ^ (v % 32)) f (v / 32)).issue f
         (.msix f v (s.get .msixAddrLo f v + 2 ^ 32 * s.get .msixAddrHi f v) (s.get .msixData f v))) f v
       exec (.msixUnmask f v) s = .next (if x.mayIssue f then x.logSent f v else x)) ∧
     (s.cfgOpen = true → s.flag .cfgDoeBusy = false →
       (1024 < dwords → exec (.doeObject .discovery dwords bytes) s = .next (s.set .cfgDoeError 1)) ∧
       (dwords ≤ 1024 → exec (.doeObject .other dwords bytes) s = .next (s.set .cfgDoeError 1) ∧
         (let d := doeDiscovery (fieldAt bytes 0 1)
          ∃ t, exec (.doeObject .discovery dwords bytes) s = .next t ∧ s.sends t (.doe d) ∧ t.flag .cfgDoeReady = true ∧
            t.pcie.doeOut = [1, 3, leNat d]) ∧
         (bytes.length < 2 ∨ spdmCodes.contains (fieldAt bytes 1 1) = true →
           exec (.doeObject .cmaSpdm dwords bytes) s = .next ((s.set .cfgDoeBusy 1).set .cfgDoeReady 0)) ∧
         (2 ≤ bytes.length → spdmCodes.contains (fieldAt bytes 1 1) = false → s.trust.uds.isSome = true →
           s.trust.signer = [] → s.trust.requests = [] → ∃ t, exec (.doeObject .cmaSpdm dwords bytes) s = .next t ∧
             s.sends t (.spdm .doe (Config.spdmBody 0x7F (leBytes 2 spdmErrUnsupported)))) ∧
         exec (.doeObject .securedCmaSpdm dwords bytes) s = .next ((s.set .cfgDoeBusy 1).set .cfgDoeReady 0))) ∧
     (s.cfgOpen = true → s.trust.requests = [] → ∃ t, exec .doeAbort s = .next t ∧ t.flag .cfgDoeBusy = false ∧
       t.flag .cfgDoeError = false ∧ t.flag .cfgDoeReady = false ∧ t.pcie.doeIn = [] ∧ t.pcie.doeOut = [] ∧
       (t.conn .doe).chunkIn = [] ∧ t.trust.signer = s.trust.signer.filter (fun r => decide (r.transport ≠ .doe)) ∧
       t.trust.sessions = s.trust.sessions ∧ State.regsExcept [.cfgDoeBusy, .cfgDoeError, .cfgDoeReady] s t))

/-- R158, R195, R213, R223, R253: BAR2 requests: one that fails its IDE check, or comes without IDE from a requester ID bound to
a Secure stream, is dropped; one that meets a hole is refused and counted; before READY, and in thermal shutdown, Completer
Abort; a read within one line goes through port 54 in RT class, is presented to DRC_BAR2_MAXLAT, and is answered with the
bytes that its slice holds as it serves it, poisoned where the sector is; a write within one line goes through port 54, and a
read after it sees its bytes (R16). (When a read takes its bytes: log entry 15.) -/
def Obligations.Bar2Requests : Prop :=
  ∀ (s : State) (f off len lat : Nat) (bytes : List Byte) (poisoned : Bool), f < 64 → s.barOpen f = true → 0 < len →
    bytes.length = len → off % 64 + len ≤ 64 → s.bar2Inside f off len = true →
    let r := Instr.bar2Read f off len ⟨lat, .good⟩
    let w := Instr.bar2Write f off bytes poisoned .good
    let u := s.received len
    (∀ n, n < 8 → ∀ c ∈ [Instr.bar2Read f off len ⟨lat, .ideCheck n⟩, .bar2Write f off bytes poisoned (.ideCheck n)],
      ∃ t, exec c s = .next t ∧ (t.stream n).secure = false ∧ (t.stream n).active = none ∧ t.weirs = s.weirs) ∧
    (∀ n rid, n < 8 → (s.stream n).secure = true → s.flag .cfgIdeRidValid 0 n = true → s.get .cfgIdeRidBase 0 n ≤ rid →
      rid ≤ s.get .cfgIdeRidLimit 0 n → exec (.bar2Read f off len ⟨lat, .plain rid⟩) s = .next (s.respondUr f true) ∧
        exec (.bar2Write f off bytes poisoned (.plain rid)) s = .next (s.respondUr f false)) ∧
    (s.ready = false → exec r s = .next ((s.set .pcxStatusBar2Early 1).respondCa f true) ∧
      exec w s = .next ((u.set .pcxStatusBar2Early 1).respondCa f false)) ∧
    (s.ready = true → s.shutdown = true → exec r s = .next ((s.set .drcStatusBar2Therm 1).respondCa f true) ∧
      exec w s = .next ((u.set .drcStatusBar2Therm 1).respondCa f false)) ∧
    (s.working = true → s.bar2Basin f off = none → exec r s = .next (s.bar2Hole f true) ∧
      exec w s = .next (u.bar2Hole f false)) ∧
    (∀ b, s.working = true → s.bar2Basin f off = some b → 8 ≤ s.get .drcBasinCfgGrain b →
      let p := (s.locate b (off - s.basinBase b)).1
      let a := (s.locate b (off - s.basinBase b)).2
      let x := s.sectorNow p a
      let q (n : Nat) : PortReq := { port := 54, group := f, rt := true, units := 1, pc := p, a, op := .reply n len }
      (∃ t, exec r s = .next t ∧ t.out = s.out ∧ t.dram = s.dram ∧ t.lake = s.lake ∧
        t.weirs.queue = s.weirs.queue ++ [q s.pcie.nextRead] ∧ t.pcie.nextRead = s.pcie.nextRead + 1 ∧
        t.pcie.replies = s.pcie.replies ++ [{ read := s.pcie.nextRead, func := f }] ∧
        t.get .drcBar2MaxlatMaxlat = max (s.get .drcBar2MaxlatMaxlat) (min lat (FN.max .drcBar2MaxlatMaxlat))) ∧
      (∀ (v : State) (n : Nat), v.portHead 54 = some (q n) → v.quadReady p = true → v.linkHeld = false →
        v.pcie.replies = [{ read := n, func := f }] → ∃ t, exec (.weirRelease 54) v = .next t ∧ t.pcie.replies = [] ∧
          (let d := v.sliceRead p a len
           v.sends t (if d.2 then .poisoned f d.1 else .data f d.1))) ∧
      (∃ t, exec w s = .next t ∧ t.dram.mem = s.dram.mem ∧ t.lake = s.lake ∧ t.weirs.queue = s.weirs.queue ++
          [{ port := 54, group := f, rt := false, units := 1, pc := p, a, op := .write bytes poisoned false }] ∧
        (s.packs = [] → s.pcGone p = false → t.sectorNow p a =
          (mergeBytes x.1 (a % 64) bytes, poisoned || (x.2 && len != 64)))) ∧
      (∀ l, s.inFlight = [] → s.pcGone p = false → s.lakeFind p a = some l → (l.sector (lakeSector a)).valid = true →
        x = ((l.sector (lakeSector a)).data, (l.sector (lakeSector a)).poison)))
end

