-- ==== Sys2Proof/Laws/Memory.lean ====
section
/-! SUPPORT. The cell lists of the memories (stack memory, engine scratch, flash, fuses): reads over writes, and that every
operation on them keeps the canonical form. The same for the sparse map of the register file. -/

namespace Sys2Proof.Machine

set_option Elab.async false

/-! ### Cell lists -/

theorem Mem.wfFrom_mono {d : Byte} {m : List Host.Cell} {lo lo' : Nat} (h : Mem.wfFrom d lo m = true) (hl : lo' ≤ lo) :
    Mem.wfFrom d lo' m = true := by
  cases m with
  | nil => rfl
  | cons c rest =>
    obtain ⟨a, b⟩ := c
    simp only [Mem.wfFrom, Bool.and_eq_true, decide_eq_true_eq] at h ⊢
    exact ⟨⟨by omega, h.1.2⟩, h.2⟩

theorem Mem.wfFrom_filter {d : Byte} (p : Host.Cell → Bool) {m : List Host.Cell} {lo : Nat} (h : Mem.wfFrom d lo m = true) :
    Mem.wfFrom d lo (m.filter p) = true := by
  induction m generalizing lo with
  | nil => rfl
  | cons c rest ih =>
    obtain ⟨a, b⟩ := c
    simp only [Mem.wfFrom, Bool.and_eq_true, decide_eq_true_eq] at h
    rw [List.filter_cons]
    split
    · simp only [Mem.wfFrom, Bool.and_eq_true, decide_eq_true_eq]
      exact ⟨h.1, ih h.2⟩
    · exact Mem.wfFrom_mono (ih h.2) (by omega)

theorem Mem.wfFrom_put {d : Byte} {m : List Host.Cell} {lo a : Nat} {b : Byte} (h : Mem.wfFrom d lo m = true) (hb : b ≠ d)
    (ha : lo ≤ a) : Mem.wfFrom d lo (Mem.put m a b) = true := by
  induction m generalizing lo with
  | nil => simp [Mem.put, Mem.wfFrom, hb, ha]
  | cons c rest ih =>
    obtain ⟨k, x⟩ := c
    simp only [Mem.wfFrom, Bool.and_eq_true, decide_eq_true_eq] at h
    unfold Mem.put
    split
    · subst k
      simp only [Mem.wfFrom, Bool.and_eq_true, decide_eq_true_eq, bne_iff_ne]
      exact ⟨⟨ha, hb⟩, h.2⟩
    · split
      · simp only [Mem.wfFrom, Bool.and_eq_true, decide_eq_true_eq, bne_iff_ne]
        exact ⟨⟨ha, hb⟩, ⟨by omega, by simpa using h.1.2⟩, h.2⟩
      · simp only [Mem.wfFrom, Bool.and_eq_true, decide_eq_true_eq, bne_iff_ne]
        exact ⟨⟨h.1.1, by simpa using h.1.2⟩, ih h.2 (by omega)⟩

/-- Taking cells out keeps the canonical form (an erase of flash, a window or an array cleared). -/
theorem Mem.wf_filter {d : Byte} (p : Host.Cell → Bool) {m : List Host.Cell} (h : Mem.wf d m = true) :
    Mem.wf d (m.filter p) = true := Mem.wfFrom_filter p h

/-- A write keeps the canonical form. -/
theorem Mem.wf_write {d : Byte} {m : List Host.Cell} (a : Nat) (b : Byte) (h : Mem.wf d m = true) :
    Mem.wf d (Mem.write d m a b) = true := by
  unfold Mem.write
  split
  · exact Mem.wf_filter _ h
  · exact Mem.wfFrom_put h ‹_› (Nat.zero_le a)

theorem Mem.wf_writeN {d : Byte} {m : List Host.Cell} (a : Nat) (bs : List Byte) (h : Mem.wf d m = true) :
    Mem.wf d (Mem.writeN d m a bs) = true := by
  induction bs generalizing m a with
  | nil => exact h
  | cons b bs ih => exact ih _ (Mem.wf_write a b h)

/-- A flash program keeps the canonical form. -/
theorem flashProgramGo_wf {m : List Host.Cell} (a : Nat) (bs : List Byte) (h : Mem.wf flashBlank m = true) :
    Mem.wf flashBlank (flashProgramGo m a bs) = true := by
  induction bs generalizing m a with
  | nil => exact h
  | cons b bs ih => exact ih _ (Mem.wf_write a _ h)

theorem Mem.read_put_self (d : Byte) (m : List Host.Cell) (a : Nat) (b : Byte) : Mem.read d (Mem.put m a b) a = b := by
  induction m with
  | nil => simp [Mem.put, Mem.read]
  | cons c rest ih =>
    obtain ⟨k, x⟩ := c
    unfold Mem.put
    split
    · simp [Mem.read]
    · split
      · simp [Mem.read]
      · rw [Mem.read, if_neg ‹_›, ih]

theorem Mem.read_put_other (d : Byte) (m : List Host.Cell) {a x : Nat} (b : Byte) (h : x ≠ a) :
    Mem.read d (Mem.put m a b) x = Mem.read d m x := by
  induction m with
  | nil => simp [Mem.put, Mem.read, Ne.symm h]
  | cons c rest ih =>
    obtain ⟨k, y⟩ := c
    unfold Mem.put
    split
    · subst k; simp [Mem.read, Ne.symm h]
    · split
      · simp [Mem.read, Ne.symm h]
      · simp only [Mem.read, ih]

/-! ### The state's memories -/

/-- The reset state's memories have the canonical form. -/
theorem reset_memWf : State.reset.memWf = true := by decide

theorem State.memWf_iff (s : State) : s.memWf = true ↔
    Mem.wf 0 s.dram.mem = true ∧ Mem.wf 0 s.scratch = true ∧ Mem.wf 0 s.fuses.cells = true ∧ Mem.wf flashBlank s.flash = true := by
  simp [State.memWf, flashBlank, and_assoc]

theorem State.memWf_flashPut {s : State} (a : Nat) (bytes : List Byte) (h : s.memWf = true) : (s.flashPut a bytes).memWf = true := by
  rw [State.memWf_iff] at h ⊢
  exact ⟨h.1, h.2.1, h.2.2.1, Mem.wf_writeN a bytes h.2.2.2⟩

theorem State.memWf_flashProgram {s : State} (a : Nat) (bytes : List Byte) (h : s.memWf = true) :
    (s.flashProgram a bytes).memWf = true := by
  rw [State.memWf_iff] at h ⊢
  exact ⟨h.1, h.2.1, h.2.2.1, flashProgramGo_wf a bytes h.2.2.2⟩

theorem State.memWf_flashErase {s : State} (a n : Nat) (h : s.memWf = true) : (s.flashErase a n).memWf = true := by
  rw [State.memWf_iff] at h ⊢
  exact ⟨h.1, h.2.1, h.2.2.1, Mem.wf_filter _ h.2.2.2⟩

/-- A line written to the array of a PC. -/
theorem State.memWf_arrayWrite {s : State} (pc a : Nat) (data : List Byte) (poison : Bool) (h : s.memWf = true) :
    (s.arrayWrite pc a data poison).memWf = true := by
  unfold State.arrayWrite
  dsimp only
  split
  · exact h
  rw [State.memWf_iff] at h ⊢
  exact ⟨Mem.wf_writeN _ _ h.1, h.2.1, h.2.2.1, h.2.2.2⟩

theorem State.memWf_zeroStack {s : State} (h : s.memWf = true) : s.zeroStack.memWf = true := by
  rw [State.memWf_iff] at h ⊢
  exact ⟨rfl, h.2.1, h.2.2.1, h.2.2.2⟩

/-- Bytes written through an Eddy window. -/
theorem State.memWf_scratchWriteGo {s : State} (e : Nat) (x : Eddy) (p : Nat) (bytes : List Byte) (h : s.memWf = true) :
    (s.scratchWriteGo e x p bytes).memWf = true := by
  induction bytes generalizing s p with
  | nil => exact h
  | cons b bs ih =>
    refine ih _ ?_
    rw [State.memWf_iff] at h ⊢
    exact ⟨h.1, Mem.wf_write _ _ h.2.1, h.2.2.1, h.2.2.2⟩

/-- A fuse cell blown. -/
theorem State.memWf_blowCell {s : State} (bit : Nat) (h : s.memWf = true) : (s.blowCell bit).memWf = true := by
  rw [State.memWf_iff] at h ⊢
  exact ⟨h.1, h.2.1, Mem.wf_write _ _ h.2.2.1, h.2.2.2⟩

/-- Keeping every blown bit (R353) goes from step to step. -/
theorem State.fusesKept_refl (s : State) : s.fusesKept s := fun _ _ h => h

theorem State.fusesKept_trans {s t u : State} (h : s.fusesKept t) (k : t.fusesKept u) : s.fusesKept u :=
  fun a b x => k a b (h a b x)

theorem State.fusesKept_of_eq {s t : State} (h : t.fuses.cells = s.fuses.cells) : s.fusesKept t := fun a b x => by rw [h]; exact x

end Sys2Proof.Machine
end

