-- ==== Sys2Proof/Laws/Registers.lean ====
section
/-! SUPPORT. The sparse map and the register file: reads over writes, one key for each field instance, and that setting a field
keeps the keys rising. -/

namespace Sys2Proof.Machine

/-! ### Sparse maps -/

theorem sparseGet_put_self (m : List (Nat × Nat)) (k v : Nat) : sparseGet (sparsePut m k v) k = some v := by
  induction m with
  | nil => simp [sparsePut, sparseGet]
  | cons e rest ih =>
    obtain ⟨k', v'⟩ := e
    unfold sparsePut
    split
    · simp [sparseGet]
    · split
      · simp [sparseGet]
      · rw [sparseGet, if_neg ‹_›, ih]

theorem sparseGet_put_other (m : List (Nat × Nat)) {k x : Nat} (v : Nat) (h : x ≠ k) :
    sparseGet (sparsePut m k v) x = sparseGet m x := by
  induction m with
  | nil => simp [sparsePut, sparseGet, Ne.symm h]
  | cons e rest ih =>
    obtain ⟨k', v'⟩ := e
    unfold sparsePut
    split
    · subst k'; simp [sparseGet, Ne.symm h]
    · split
      · simp [sparseGet, Ne.symm h]
      · simp only [sparseGet, ih]

theorem sparseGet_del_other (m : List (Nat × Nat)) {k x : Nat} (h : x ≠ k) : sparseGet (sparseDel m k) x = sparseGet m x := by
  induction m with
  | nil => rfl
  | cons e rest ih =>
    obtain ⟨k', v'⟩ := e
    unfold sparseDel at ih ⊢
    rw [List.filter_cons]
    split
    · simp only [sparseGet, ih]
    · rename_i hk
      have : k' = k := by simpa using hk
      rw [sparseGet, if_neg (by omega), ih]

theorem sparseGet_del_self (m : List (Nat × Nat)) (k : Nat) : sparseGet (sparseDel m k) k = none := by
  induction m with
  | nil => rfl
  | cons e rest ih =>
    obtain ⟨k', v'⟩ := e
    unfold sparseDel at ih ⊢
    rw [List.filter_cons]
    split
    · rename_i hk
      have : k' ≠ k := by simpa using hk
      rw [sparseGet, if_neg this, ih]
    · exact ih

theorem sparseWfFrom_mono {m : List (Nat × Nat)} {lo lo' : Nat} (h : sparseWfFrom lo m = true) (hl : lo' ≤ lo) :
    sparseWfFrom lo' m = true := by
  cases m with
  | nil => rfl
  | cons e rest =>
    obtain ⟨k, v⟩ := e
    simp only [sparseWfFrom, Bool.and_eq_true, decide_eq_true_eq] at h ⊢
    exact ⟨by omega, h.2⟩

theorem sparseWfFrom_put {m : List (Nat × Nat)} {lo k : Nat} (v : Nat) (h : sparseWfFrom lo m = true) (hk : lo ≤ k) :
    sparseWfFrom lo (sparsePut m k v) = true := by
  induction m generalizing lo with
  | nil => simp [sparsePut, sparseWfFrom, hk]
  | cons e rest ih =>
    obtain ⟨k', v'⟩ := e
    simp only [sparseWfFrom, Bool.and_eq_true, decide_eq_true_eq] at h
    unfold sparsePut
    split
    · subst k'
      simp only [sparseWfFrom, Bool.and_eq_true, decide_eq_true_eq]; exact ⟨hk, h.2⟩
    · split
      · simp only [sparseWfFrom, Bool.and_eq_true, decide_eq_true_eq]; exact ⟨hk, by omega, h.2⟩
      · simp only [sparseWfFrom, Bool.and_eq_true, decide_eq_true_eq]; exact ⟨h.1, ih h.2 (by omega)⟩

theorem sparseWfFrom_del {m : List (Nat × Nat)} {lo : Nat} (k : Nat) (h : sparseWfFrom lo m = true) :
    sparseWfFrom lo (sparseDel m k) = true := by
  induction m generalizing lo with
  | nil => rfl
  | cons e rest ih =>
    obtain ⟨k', v'⟩ := e
    simp only [sparseWfFrom, Bool.and_eq_true, decide_eq_true_eq] at h
    unfold sparseDel at ih ⊢
    rw [List.filter_cons]
    split
    · simp only [sparseWfFrom, Bool.and_eq_true, decide_eq_true_eq]; exact ⟨h.1, ih h.2⟩
    · exact sparseWfFrom_mono (ih h.2) (by omega)

/-! ### The register file -/

theorem FN.num_inj {f g : FN} (h : f.num = g.num) : f = g := by
  have := congrArg FN.ofNat h
  simpa [FN.num, FN.ofNat_ctorIdx] using this

/-- One key for each field instance. -/
theorem FN.key_inj {f g : FN} {i j k l : Nat} (hi : i < 4096) (hj : j < 4096) (hk : k < 4096) (hl : l < 4096)
    (h : f.key i j = g.key k l) : f = g ∧ i = k ∧ j = l := by
  simp only [FN.key] at h
  have hn : f.num = g.num := by omega
  have hik : i = k := by omega
  exact ⟨FN.num_inj hn, hik, by omega⟩

/-- Setting a field keeps the keys rising. -/
theorem RegMap.set_wf {m : RegMap} (f : FN) (i j v : Nat) (h : sparseWfFrom 0 m = true) :
    sparseWfFrom 0 (RegMap.set m f i j v) = true := by
  unfold RegMap.set
  dsimp only
  split
  · exact h
  · split
    · exact sparseWfFrom_del _ h
    · exact sparseWfFrom_put _ h (Nat.zero_le _)

theorem State.set_regsWf {s : State} (f : FN) (v i j : Nat) (h : s.regsWf = true) : (s.set f v i j).regsWf = true := by
  simp only [State.regsWf, Bool.and_eq_true] at h ⊢
  exact ⟨RegMap.set_wf f i j v h.1, h.2⟩

theorem State.applyB_regsWf {s : State} (f : FN) (i j : Nat) (h : s.regsWf = true) : (s.applyB f i j).regsWf = true := by
  simp only [State.regsWf, Bool.and_eq_true] at h ⊢
  exact ⟨h.1, sparseWfFrom_del _ h.2⟩

end Sys2Proof.Machine
end

