-- ==== Sys2Proof/Laws/Ops.lean ====
section
/-! SUPPORT. What each shared operation can do, said once: a meaning's answer, host accesses, requests that leave, events,
counts, errors of the link. `t = s.signals t` says that `t` differs from `s` in what signalling changes alone
(Safety.lean). -/

namespace Sys2Proof.Machine

/-! ### A meaning's answer, and host accesses -/

theorem whenWf_next {m : String} {wf : Bool} {s t : State} : whenWf m wf s = .next t ↔ wf = true ∧ t = s := by
  unfold whenWf
  cases wf <;> simp [eq_comm]

theorem whenWf_refused {m : String} {wf : Bool} {s : State} {r : Refusal} :
    whenWf m wf s = .refused r ↔ wf = false ∧ r = .illFormed m := by
  unfold whenWf
  cases wf <;> simp [eq_comm]

/-- A write to a BAR: the payload counts where the link is up; then the write acts, or is an Unsupported Request (R194). -/
theorem State.barWrite_cases (s : State) (func : Nat) (f : State → State) (n : Nat) :
    let u := if s.dlUp then s.received n else s
    (u.barOpen func = true ∧ s.barWrite func f n = f u) ∨
    (u.barOpen func = false ∧ s.barWrite func f n = u.respondUr func false) := by
  intro u
  unfold State.barWrite
  dsimp only
  rw [show (if s.dlUp = true then s.received n else s) = u from rfl]
  cases h : u.barOpen func <;> simp

theorem State.barRead_cases (s : State) (func : Nat) (f : State → State) :
    (s.barOpen func = true ∧ s.barRead func f = f s) ∨ (s.barOpen func = false ∧ s.barRead func f = s.respondUr func true) := by
  unfold State.barRead
  cases h : s.barOpen func <;> simp

theorem State.barOpen_received (s : State) (n func : Nat) : (s.received n).barOpen func = s.barOpen func := rfl

/-- At READY a write reaches the register's block. -/
theorem State.blockWrite_ready {s : State} {func : Nat} (block : Nat) (f : State → State) (h : s.hostReady func = true) :
    s.blockWrite block func f = f (s.received 4) := by
  simp only [State.hostReady, Bool.and_eq_true, State.ready, beq_iff_eq] at h
  have hd : s.dlUp = true := by
    have := h.1; simp only [State.barOpen, Bool.and_eq_true] at this; exact this.1.1.1.1
  have ho : (s.received 4).barOpen func = true := h.1
  have hb : (s.received 4).blockOpen block = true := by
    unfold State.blockOpen
    have : (s.received 4).get .bootStatusState = 1 := h.2
    simp [this]
  simp only [State.blockWrite, State.barWrite, hd, if_true, ho, hb]

theorem State.blockRead_ready {s : State} {func : Nat} (block : Nat) (f : State → State) (h : s.hostReady func = true) :
    s.blockRead block func f = f s := by
  simp only [State.hostReady, Bool.and_eq_true, State.ready, beq_iff_eq] at h
  have hb : s.blockOpen block = true := by
    unfold State.blockOpen
    have : s.get .bootStatusState = 1 := h.2
    simp [this]
  simp only [State.blockRead, State.barRead, h.1, if_true, hb]

/-! ### Requests that leave -/

theorem State.issue_cases (s : State) (func : Nat) (o : Out) :
    (s.mayIssue func = true ∧ s.issue func o = s.tlp o) ∨
    (s.mayIssue func = false ∧
      s.issue func o = ({ s with pcie := { s.pcie with held := s.pcie.held ++ [o] } } : State).leaveL1 func) := by
  unfold State.issue
  cases h : s.mayIssue func <;> simp

/-- What an MSI-X message can do (R203, R204): nothing, a pending bit, or the message issued. -/
theorem State.sendMsix_cases (s : State) (func v : Nat) :
    s.sendMsix func v = s ∨ s.sendMsix func v = s.issue func (s.msixMsg func v) ∨
    s.sendMsix func v = s.set .msixPba (s.get .msixPba func (v / 32) + 2 ^ (v % 32)) func (v / 32) := by
  unfold State.sendMsix
  dsimp only
  (repeat' split) <;> simp

/-! ### Signals -/

theorem State.signals_refl (s : State) : s = s.signals s := rfl

theorem State.signals_trans {s t u : State} (h : t = s.signals t) (k : u = t.signals u) : u = s.signals u :=
  k.trans ((congrArg (fun x : State => x.signals u) h).trans rfl)

theorem State.signals_set (s : State) (f : FN) (v i j : Nat) : s.set f v i j = s.signals (s.set f v i j) := rfl

theorem State.signals_emit (s : State) (o : Out) : s.emit o = s.signals (s.emit o) := rfl

theorem State.signals_applyB (s : State) (f : FN) (i j : Nat) : s.applyB f i j = s.signals (s.applyB f i j) := rfl

theorem State.signals_recovery (s : State) : s.recovery = s.signals s.recovery := rfl

theorem State.signals_leaveL1 (s : State) (func : Nat) : s.leaveL1 func = s.signals (s.leaveL1 func) := by
  unfold State.leaveL1
  split <;> rfl

theorem State.signals_tlp (s : State) (o : Out) : s.tlp o = s.signals (s.tlp o) := by
  unfold State.tlp
  split <;> rfl

theorem State.signals_issue (s : State) (func : Nat) (o : Out) : s.issue func o = s.signals (s.issue func o) := by
  obtain ⟨_, h⟩ | ⟨_, h⟩ := s.issue_cases func o <;> rw [h]
  · exact s.signals_tlp o
  · exact State.signals_trans rfl (State.signals_leaveL1 _ _)

/-- A completion or a message of the device: it leaves, or waits while the link is in Recovery, where in L1 the exit starts
(R186, R189). -/
theorem State.signals_reply (s : State) (o : Out) : s.reply o = s.signals (s.reply o) := by
  unfold State.reply
  split
  · exact s.signals_tlp o
  · dsimp only
    split <;> rfl

theorem State.signals_sendMsix (s : State) (func v : Nat) : s.sendMsix func v = s.signals (s.sendMsix func v) := by
  obtain h | h | h := s.sendMsix_cases func v <;> rw [h]
  · rfl
  · exact s.signals_issue _ _
  · rfl

/-- A fold whose every step only signals, only signals. -/
theorem State.signals_foldl {α : Type} (f : State → α → State) (h : ∀ s x, f s x = s.signals (f s x)) (l : List α) (s : State) :
    l.foldl f s = s.signals (l.foldl f s) := by
  induction l generalizing s with
  | nil => rfl
  | cons x xs ih => exact State.signals_trans (h s x) (ih (f s x))

theorem State.signals_pushEntry (s : State) (e : EventEntry) : (s.pushEntry e).1 = s.signals (s.pushEntry e).1 := by
  unfold State.pushEntry
  dsimp only
  split <;> rfl

theorem State.signals_sendRing (s : State) (ring : Nat) : s.sendRing ring = s.signals (s.sendRing ring) :=
  State.signals_trans rfl (State.signals_sendMsix _ _ _)

theorem State.signals_ringMessageDue (s : State) (ring : Nat) : s.ringMessageDue ring = s.signals (s.ringMessageDue ring) := by
  unfold State.ringMessageDue
  split
  · split
    · rfl
    · exact s.signals_sendRing ring
  · exact s.signals_sendRing ring

theorem State.signals_appendRouted (s : State) (event func arg time : Nat) :
    (s.appendRouted event func arg time).1 = s.signals (s.appendRouted event func arg time).1 := by
  unfold State.appendRouted
  dsimp only
  split
  · rfl
  · exact State.signals_trans (s.signals_pushEntry _) (State.signals_ringMessageDue _ _)

theorem State.signals_noteLost (s : State) (ring : Nat) : (s.noteLost ring).1 = s.signals (s.noteLost ring).1 := by
  unfold State.noteLost
  dsimp only
  split
  · rfl
  · have h := State.signals_trans (s := s) (t := { s with events := { s.events with lostMark := ring :: s.events.lostMark } })
      rfl (State.signals_appendRouted _ 305 0xFF ring s.timer)
    split <;> rename_i k <;> rw [k] at h <;> exact h

theorem State.signals_appendEvent (s : State) (event func arg time : Nat) :
    s.appendEvent event func arg time = s.signals (s.appendEvent event func arg time) := by
  unfold State.appendEvent
  have h := s.signals_appendRouted event func arg time
  split
  · rename_i k; rw [k] at h; exact h
  · rename_i s1 ring k; rw [k] at h
    have h := State.signals_trans h (s1.signals_noteLost ring)
    split
    · rename_i k; rw [k] at h; exact h
    · rename_i s2 next k; rw [k] at h
      exact State.signals_trans h (s2.signals_noteLost next)

/-- Raising an event changes nothing else (R246, R249, R320). -/
theorem State.signals_raise (s : State) (event func arg : Nat) : s.raise event func arg = s.signals (s.raise event func arg) := by
  unfold State.raise
  split
  · rfl
  · split
    · rfl
    · exact s.signals_appendEvent _ _ _ _

theorem State.signals_setMaskBit (s : State) (lo hi : FN) (b : Nat) (v : Bool) :
    s.setMaskBit lo hi b v = s.signals (s.setMaskBit lo hi b v) := by
  unfold State.setMaskBit
  dsimp only
  generalize (if b < 32 then lo else hi) = f
  split <;> rfl

theorem State.signals_addCount (s : State) (n add : Nat) : s.addCount n add = s.signals (s.addCount n add) := by
  unfold State.addCount
  dsimp only
  split
  · rfl
  · exact State.signals_trans (State.signals_trans rfl (State.signals_setMaskBit _ _ _ _ _)) (State.signals_raise _ _ _ _)

theorem State.signals_addVfCount (s : State) (v j add : Nat) : s.addVfCount v j add = s.signals (s.addVfCount v j add) := by
  unfold State.addVfCount
  dsimp only
  split
  · rfl
  · refine State.signals_trans ?_ (State.signals_raise _ _ _ _)
    split <;> rfl

/-- Counting an occurrence changes nothing else (R376 to R378). -/
theorem State.signals_count (s : State) (block kind inst add : Nat) :
    s.count block kind inst add = s.signals (s.count block kind inst add) := by
  unfold State.count
  exact State.signals_trans (State.signals_foldl _ (fun s n => s.signals_addCount n add) _ _)
    (State.signals_foldl _ (fun s j => s.signals_addVfCount inst j add) _ _)

theorem State.signals_orBit (s : State) (f : FN) (b i : Nat) : s.orBit f b i = s.signals (s.orBit f b i) := by
  unfold State.orBit
  dsimp only
  split <;> rfl

theorem State.signals_aerCorrectable (s : State) (func bit : Nat) :
    s.aerCorrectable func bit = s.signals (s.aerCorrectable func bit) := by
  unfold State.aerCorrectable
  dsimp only
  split
  · exact s.signals_orBit _ _ _
  · exact State.signals_trans (s.signals_orBit _ _ _) (State.signals_reply _ _)

/-- The first error of a function and its header: registers, the free value's counter, and where a header log overflows the
message of R205. -/
theorem State.signals_aerFirst (s : State) (func bit : Nat) (tlp : Bool) :
    s.aerFirst func bit tlp = s.signals (s.aerFirst func bit tlp) := by
  unfold State.aerFirst
  split
  · split
    · exact s.signals_aerCorrectable _ _
    · rfl
  · cases tlp
    · exact State.signals_trans rfl (State.signals_foldl _ (fun _ _ => rfl) _ _)
    · exact State.signals_trans rfl (State.signals_foldl _ (fun _ _ => rfl) _ _)

theorem State.signals_aerUncorrectable (s : State) (func bit : Nat) (fatal tlp : Bool) :
    s.aerUncorrectable func bit fatal tlp = s.signals (s.aerUncorrectable func bit fatal tlp) := by
  have h := State.signals_trans (s.signals_aerFirst func bit tlp) (State.signals_orBit _ .cfgAerUncStatus bit func)
  unfold State.aerUncorrectable
  dsimp only
  split
  · exact h
  · split
    · exact h
    · exact State.signals_trans h (State.signals_reply _ _)

theorem State.signals_aerAdvisoryNonFatal (s : State) (func bit : Nat) :
    s.aerAdvisoryNonFatal func bit = s.signals (s.aerAdvisoryNonFatal func bit) := by
  unfold State.aerAdvisoryNonFatal
  split
  · exact s.signals_aerUncorrectable _ _ _ _
  · exact State.signals_trans (State.signals_trans (s.signals_aerFirst _ _ _) (State.signals_orBit _ _ _ _))
      (State.signals_aerCorrectable _ _ _)

/-- An Unsupported Request: its answer and its error (R205), nothing else. -/
theorem State.signals_respondUr (s : State) (func : Nat) (np : Bool) : s.respondUr func np = s.signals (s.respondUr func np) := by
  unfold State.respondUr
  dsimp only
  cases np
  · split
    · rfl
    · exact s.signals_aerUncorrectable _ _ _ _
  · split
    · rfl
    · exact State.signals_trans (s.signals_reply _) (State.signals_aerAdvisoryNonFatal _ _ _)

/-- A Completer Abort: its answer and its error (R205), nothing else. -/
theorem State.signals_respondCa (s : State) (func : Nat) (np : Bool) : s.respondCa func np = s.signals (s.respondCa func np) := by
  unfold State.respondCa
  dsimp only
  split
  · rfl
  · cases np
    · exact s.signals_aerAdvisoryNonFatal _ _
    · exact State.signals_trans (s.signals_reply _) (State.signals_aerAdvisoryNonFatal _ _ _)

end Sys2Proof.Machine
end

