-- ==== Sys2Proof/Laws/Queue.lean ====
section
/-! SUPPORT. The queue of waiting commands: what a command does leaves it alone. One lemma `<operation>_pending` per operation
on the state, in the order of the definitions, each citing the lemmas of the operations it calls. -/

namespace Sys2Proof.Machine

set_option Elab.async false

set_option linter.unusedSimpArgs false
set_option linter.unusedTactic false
set_option linter.unreachableTactic false
set_option linter.unnecessarySeqFocus false

/-- A fold whose every step keeps `g` keeps `g`. -/
theorem foldl_same {α β γ : Type} (g : β → γ) (f : β → α → β) (h : ∀ b x, g (f b x) = g b) (l : List α) (b : β) :
    g (l.foldl f b) = g b := by
  induction l generalizing b with
  | nil => rfl
  | cons x xs ih => simp [ih, h]

@[simp] theorem foldl_pending {α : Type} (f : State → α → State) (h : ∀ s x, (f s x).pending = s.pending) (l : List α)
    (s : State) : (l.foldl f s).pending = s.pending := foldl_same (·.pending) f h l s

@[simp] theorem foldl_fst_pending {α β : Type} (f : State × β → α → State × β) (h : ∀ b x, (f b x).1.pending = b.1.pending)
    (l : List α) (b : State × β) : (l.foldl f b).1.pending = b.1.pending :=
  foldl_same (fun b : State × β => b.1.pending) f h l b

@[simp] theorem foldl_io_pending {α β : Type} (f : TaskIo × β → α → TaskIo × β)
    (h : ∀ b x, (f b x).1.st.pending = b.1.st.pending) (l : List α) (b : TaskIo × β) :
    (l.foldl f b).1.st.pending = b.1.st.pending := foldl_same (fun b : TaskIo × β => b.1.st.pending) f h l b

@[simp] theorem foldl_walk_pending {α β : Type} (f : Walk × β → α → Walk × β)
    (h : ∀ b x, (f b x).1.st.pending = b.1.st.pending) (l : List α) (b : Walk × β) :
    (l.foldl f b).1.st.pending = b.1.st.pending := foldl_same (fun b : Walk × β => b.1.st.pending) f h l b

@[simp] theorem State.set_pending (x0 : State) (x1 : FN) (x2 x3 x4 : Nat) :
    (State.set x0 x1 x2 x3 x4).pending = x0.pending := by
  unfold State.set; simp

@[simp] theorem State.setB_pending (x0 : State) (x1 : FN) (x2 x3 x4 : Nat) :
    (State.setB x0 x1 x2 x3 x4).pending = x0.pending := by
  unfold State.setB; simp

@[simp] theorem State.applyB_pending (x0 : State) (x1 : FN) (x2 x3 : Nat) :
    (State.applyB x0 x1 x2 x3).pending = x0.pending := by
  unfold State.applyB; simp

@[simp] theorem State.satInc_pending (x0 : State) (x1 : FN) (x2 x3 x4 : Nat) :
    (State.satInc x0 x1 x2 x3 x4).pending = x0.pending := by
  unfold State.satInc; simp

@[simp] theorem State.wrapInc_pending (x0 : State) (x1 : FN) (x2 x3 x4 : Nat) :
    (State.wrapInc x0 x1 x2 x3 x4).pending = x0.pending := by
  unfold State.wrapInc; simp

@[simp] theorem State.raiseMax_pending (x0 : State) (x1 : FN) (x2 x3 x4 : Nat) :
    (State.raiseMax x0 x1 x2 x3 x4).pending = x0.pending := by
  unfold State.raiseMax; simp

@[simp] theorem State.setAll_pending (x0 : State) (x1 : FN) (x2 x3 : Nat) :
    (State.setAll x0 x1 x2 x3).pending = x0.pending := by
  unfold State.setAll; simp

@[simp] theorem State.setMaskBit_pending (x0 : State) (x1 x2 : FN) (x3 : Nat) (x4 : Bool) :
    (State.setMaskBit x0 x1 x2 x3 x4).pending = x0.pending := by
  unfold State.setMaskBit; simp [apply_ite State.pending]

@[simp] theorem State.set64_pending (x0 : State) (x1 x2 : FN) (x3 x4 : Nat) :
    (State.set64 x0 x1 x2 x3 x4).pending = x0.pending := by
  unfold State.set64; simp

@[simp] theorem State.emit_pending (x0 : State) (x1 : Out) : (State.emit x0 x1).pending = x0.pending := by
  unfold State.emit; simp

@[simp] theorem State.tlp_pending (x0 : State) (x1 : Out) : (State.tlp x0 x1).pending = x0.pending := by
  unfold State.tlp
  (repeat' first | rfl | assumption | split | intro _ _
                 | rw [foldl_pending] | rw [foldl_fst_pending] | rw [foldl_io_pending] | rw [foldl_walk_pending] | simp)

@[simp] theorem State.received_pending (x0 : State) (x1 : Nat) : (State.received x0 x1).pending = x0.pending := by
  unfold State.received; simp

@[simp] theorem State.pcxBoundary_pending (x0 : State) : (State.pcxBoundary x0).pending = x0.pending := by
  unfold State.pcxBoundary; simp

@[simp] theorem State.recovery_pending (x0 : State) : (State.recovery x0).pending = x0.pending := by
  unfold State.recovery; simp

@[simp] theorem State.leaveL1_pending (x0 : State) (x1 : Nat) : (State.leaveL1 x0 x1).pending = x0.pending := by
  unfold State.leaveL1; simp [apply_ite State.pending]

@[simp] theorem State.issue_pending (x0 : State) (x1 : Nat) (x2 : Out) :
    (State.issue x0 x1 x2).pending = x0.pending := by
  unfold State.issue; simp [apply_ite State.pending]

@[simp] theorem State.reply_pending (x0 : State) (x1 : Out) : (State.reply x0 x1).pending = x0.pending := by
  unfold State.reply
  (repeat' first | rfl | assumption | split | intro _ _
                 | rw [foldl_pending] | rw [foldl_fst_pending] | rw [foldl_io_pending] | rw [foldl_walk_pending] | simp)

@[simp] theorem State.hostWrite_pending (x0 : State) (x1 x2 : Nat) (x3 : List Byte) :
    (State.hostWrite x0 x1 x2 x3).pending = x0.pending := by
  unfold State.hostWrite; simp

@[simp] theorem State.sendMsix_pending (x0 : State) (x1 x2 : Nat) : (State.sendMsix x0 x1 x2).pending = x0.pending := by
  unfold State.sendMsix; simp [apply_ite State.pending]

@[simp] theorem State.draw_pending (x0 : State) (x1 : Nat) : (State.draw x0 x1).1.pending = x0.pending := by
  unfold State.draw; simp

@[simp] theorem State.pushEntry_pending (x0 : State) (x1 : EventEntry) :
    (State.pushEntry x0 x1).1.pending = x0.pending := by
  unfold State.pushEntry; (repeat' split) <;> simp

@[simp] theorem State.sendRing_pending (x0 : State) (x1 : Nat) : (State.sendRing x0 x1).pending = x0.pending := by
  unfold State.sendRing; simp

@[simp] theorem State.ringMessageDue_pending (x0 : State) (x1 : Nat) :
    (State.ringMessageDue x0 x1).pending = x0.pending := by
  unfold State.ringMessageDue
  (repeat' first | rfl | assumption | split | intro _ _
                 | rw [foldl_pending] | rw [foldl_fst_pending] | rw [foldl_io_pending] | rw [foldl_walk_pending] | simp)

@[simp] theorem State.appendRouted_pending (x0 : State) (x1 x2 x3 x4 : Nat) :
    (State.appendRouted x0 x1 x2 x3 x4).1.pending = x0.pending := by
  grind [State.appendRouted, State.pushEntry_pending, State.ringMessageDue_pending]

@[simp] theorem State.noteLost_pending (x0 : State) (x1 : Nat) : (State.noteLost x0 x1).1.pending = x0.pending := by
  unfold State.noteLost; simp [apply_ite State.pending]; grind [State.noteLost, State.appendRouted_pending]

@[simp] theorem State.appendEvent_pending (x0 : State) (x1 x2 x3 x4 : Nat) :
    (State.appendEvent x0 x1 x2 x3 x4).pending = x0.pending := by
  grind [State.appendEvent, State.appendRouted_pending, State.noteLost_pending]

@[simp] theorem State.raise_pending (x0 : State) (x1 x2 x3 : Nat) : (State.raise x0 x1 x2 x3).pending = x0.pending := by
  grind [State.raise, State.appendEvent_pending]

@[simp] theorem State.releaseHeldEvents_pending (x0 : State) : (State.releaseHeldEvents x0).pending = x0.pending := by
  unfold State.releaseHeldEvents; simp

@[simp] theorem State.clearEvents_pending (x0 : State) : (State.clearEvents x0).pending = x0.pending := by
  unfold State.clearEvents; simp

@[simp] theorem State.setCount48_pending (x0 : State) (x1 x2 : Nat) :
    (State.setCount48 x0 x1 x2).pending = x0.pending := by
  unfold State.setCount48; simp

@[simp] theorem State.setVfCount48_pending (x0 : State) (x1 x2 x3 : Nat) :
    (State.setVfCount48 x0 x1 x2 x3).pending = x0.pending := by
  unfold State.setVfCount48; simp

@[simp] theorem State.addCount_pending (x0 : State) (x1 x2 : Nat) : (State.addCount x0 x1 x2).pending = x0.pending := by
  grind [State.addCount, State.raise_pending, State.setCount48_pending, State.setMaskBit_pending]

@[simp] theorem State.addVfCount_pending (x0 : State) (x1 x2 x3 : Nat) :
    (State.addVfCount x0 x1 x2 x3).pending = x0.pending := by
  grind [State.addVfCount, State.raise_pending, State.set_pending, State.setVfCount48_pending]

@[simp] theorem State.count_pending (x0 : State) (x1 x2 x3 x4 : Nat) :
    (State.count x0 x1 x2 x3 x4).pending = x0.pending := by
  unfold State.count; simp

@[simp] theorem State.activity_pending (x0 : State) (x1 x2 x3 : Nat) :
    (State.activity x0 x1 x2 x3).pending = x0.pending := by
  unfold State.activity; simp

@[simp] theorem State.orBit_pending (x0 : State) (x1 : FN) (x2 x3 : Nat) :
    (State.orBit x0 x1 x2 x3).pending = x0.pending := by
  unfold State.orBit; simp [apply_ite State.pending]

@[simp] theorem State.aerCorrectable_pending (x0 : State) (x1 x2 : Nat) :
    (State.aerCorrectable x0 x1 x2).pending = x0.pending := by
  unfold State.aerCorrectable; simp [apply_ite State.pending]

@[simp] theorem State.aerFirst_pending (x0 : State) (x1 x2 : Nat) (x3 : Bool) :
    (State.aerFirst x0 x1 x2 x3).pending = x0.pending := by
  unfold State.aerFirst; (repeat' split) <;> simp_all <;> grind [State.aerFirst, State.aerCorrectable_pending,
      State.draw_pending, State.set_pending]

@[simp] theorem State.aerUncorrectable_pending (x0 : State) (x1 x2 : Nat) (x3 x4 : Bool) :
    (State.aerUncorrectable x0 x1 x2 x3 x4).pending = x0.pending := by
  grind [State.aerUncorrectable, State.aerFirst_pending, State.orBit_pending, State.reply_pending]

@[simp] theorem State.aerAdvisoryNonFatal_pending (x0 : State) (x1 x2 : Nat) :
    (State.aerAdvisoryNonFatal x0 x1 x2).pending = x0.pending := by
  grind [State.aerAdvisoryNonFatal, State.aerCorrectable_pending, State.aerFirst_pending,
      State.aerUncorrectable_pending, State.orBit_pending]

@[simp] theorem State.linkError_pending (x0 : State) (x1 : LinkError) :
    (State.linkError x0 x1).pending = x0.pending := by
  unfold State.linkError
  (repeat' first | rfl | assumption | split | intro _ _
                 | rw [foldl_pending] | rw [foldl_fst_pending] | rw [foldl_io_pending] | rw [foldl_walk_pending] | simp)

@[simp] theorem State.respondUr_pending (x0 : State) (x1 : Nat) (x2 : Bool) :
    (State.respondUr x0 x1 x2).pending = x0.pending := by
  grind [State.respondUr, State.aerAdvisoryNonFatal_pending, State.aerUncorrectable_pending, State.reply_pending]

@[simp] theorem State.respondCa_pending (x0 : State) (x1 : Nat) (x2 : Bool) :
    (State.respondCa x0 x1 x2).pending = x0.pending := by
  unfold State.respondCa; simp [apply_ite State.pending]

@[simp] theorem State.setCollector_pending (x0 : State) (x1 : Nat) :
    (State.setCollector x0 x1).pending = x0.pending := by
  unfold State.setCollector; simp

@[simp] theorem State.record_pending (x0 : State) (x1 : FaultIn) (x2 : Nat) :
    (State.record x0 x1 x2).1.pending = x0.pending := by
  unfold State.record; simp only []
  (repeat' first | rfl | assumption | split | intro _ _
                 | rw [foldl_pending] | rw [foldl_fst_pending] | simp_all)

@[simp] theorem State.markRecord_pending (x0 : State) (x1 : Contain) (x2 : Nat) :
    (State.markRecord x0 x1 x2).pending = x0.pending := by
  grind [State.markRecord, State.set_pending]

@[simp] theorem State.showPending_pending (x0 : State) : (State.showPending x0).pending = x0.pending := by
  unfold State.showPending; simp

@[simp] theorem State.announce_pending (x0 : State) (x1 : FaultIn) : (State.announce x0 x1).pending = x0.pending := by
  grind [State.announce, State.raise_pending]

@[simp] theorem State.reportF_pending (x0 : State) (x1 : FaultIn) : (State.reportF x0 x1).pending = x0.pending := by
  grind [State.reportF, State.aerUncorrectable_pending, State.announce_pending, State.markRecord_pending,
      State.record_pending, State.set_pending, State.setCollector_pending, State.showPending_pending]

@[simp] theorem State.escalate_pending (x0 : State) (x1 : Contain) : (State.escalate x0 x1).pending = x0.pending := by
  unfold State.escalate; simp

@[simp] theorem State.reportU_pending (x0 : State) (x1 : FaultIn) : (State.reportU x0 x1).pending = x0.pending := by
  grind [State.reportU, State.aerUncorrectable_pending, State.announce_pending, State.escalate_pending,
      State.record_pending, State.setCollector_pending, State.showPending_pending]

@[simp] theorem State.reportC_pending (x0 : State) (x1 : FaultIn) : (State.reportC x0 x1).pending = x0.pending := by
  unfold State.reportC; simp

@[simp] theorem State.report_pending (x0 : State) (x1 : FaultIn) : (State.report x0 x1).pending = x0.pending := by
  unfold State.report; (repeat' split) <;> simp

@[simp] theorem State.reportInvalid_pending (x0 : State) (x1 : Nat) (x2 : FaultIn) :
    (State.reportInvalid x0 x1 x2).pending = x0.pending := by
  unfold State.reportInvalid; simp [apply_ite State.pending]

@[simp] theorem State.containmentEnd_pending (x0 : State) (x1 : Bool) :
    (State.containmentEnd x0 x1).pending = x0.pending := by
  grind [State.containmentEnd, State.escalate_pending, State.markRecord_pending, State.setCollector_pending,
      State.showPending_pending]

@[simp] theorem State.quietExpire_pending (x0 : State) : (State.quietExpire x0).pending = x0.pending := by
  grind [State.quietExpire, State.raise_pending, State.reportF_pending, State.satInc_pending,
      State.setCollector_pending]

@[simp] theorem State.barWrite_pending (x0 : State) (x1 : Nat) (x2 : State → State) (x3 : Nat) (h_x2 : ∀ a0, (x2
    a0).pending = a0.pending) :
    (State.barWrite x0 x1 x2 x3).pending = x0.pending := by
  grind [State.barWrite, State.received_pending, State.respondUr_pending]

@[simp] theorem State.unlessPoisoned_pending (x0 : State) (x1 : Nat) (x2 : Bool) (x3 : State → State) (h_x3 : ∀ a0,
    (x3 a0).pending = a0.pending) :
    (State.unlessPoisoned x0 x1 x2 x3).pending = x0.pending := by
  unfold State.unlessPoisoned; (repeat' split) <;> simp_all

@[simp] theorem State.barRead_pending (x0 : State) (x1 : Nat) (x2 : State → State) (h_x2 : ∀ a0, (x2 a0).pending =
    a0.pending) :
    (State.barRead x0 x1 x2).pending = x0.pending := by
  unfold State.barRead; (repeat' split) <;> simp_all

@[simp] theorem State.blockWrite_pending (x0 : State) (x1 x2 : Nat) (x3 : State → State) (h_x3 : ∀ a0, (x3 a0).pending
    = a0.pending) :
    (State.blockWrite x0 x1 x2 x3).pending = x0.pending := by
  grind [State.blockWrite, State.barWrite_pending]

@[simp] theorem State.reply32_pending (x0 : State) (x1 x2 : Nat) : (State.reply32 x0 x1 x2).pending = x0.pending := by
  unfold State.reply32; simp

@[simp] theorem State.blockRead_pending (x0 : State) (x1 x2 : Nat) (x3 : State → State) (h_x3 : ∀ a0, (x3 a0).pending
    = a0.pending) :
    (State.blockRead x0 x1 x2 x3).pending = x0.pending := by
  grind [State.blockRead, State.barRead_pending, State.reply32_pending]

@[simp] theorem State.pmcAdd_pending (x0 : State) (x1 x2 x3 : Nat) :
    (State.pmcAdd x0 x1 x2 x3).pending = x0.pending := by
  unfold State.pmcAdd
  (repeat' first | rfl | assumption | split | intro _ _
                 | rw [foldl_pending] | rw [foldl_fst_pending] | rw [foldl_io_pending] | rw [foldl_walk_pending] | simp)

@[simp] theorem State.pmcClearOne_pending (x0 : State) (x1 x2 x3 : Nat) :
    (State.pmcClearOne x0 x1 x2 x3).pending = x0.pending := by
  unfold State.pmcClearOne; simp [apply_ite State.pending]

@[simp] theorem State.pmcClearAll_pending (x0 : State) (x1 : List (Nat × Nat)) :
    (State.pmcClearAll x0 x1).pending = x0.pending := by
  unfold State.pmcClearAll; simp

@[simp] theorem State.pmcReadLo_pending (x0 : State) (x1 x2 x3 : Nat) :
    (State.pmcReadLo x0 x1 x2 x3).pending = x0.pending := by
  unfold State.pmcReadLo; simp [apply_ite State.pending]

@[simp] theorem State.bwWindowEnd_pending (x0 : State) : (State.bwWindowEnd x0).pending = x0.pending := by
  unfold State.bwWindowEnd; simp

@[simp] theorem State.readTimerLo_pending (x0 : State) : (State.readTimerLo x0).pending = x0.pending := by
  unfold State.readTimerLo; simp

@[simp] theorem State.showTags_pending (x0 : State) : (State.showTags x0).pending = x0.pending := by
  unfold State.showTags; simp

@[simp] theorem State.sendRead_pending (x0 : State) (x1 : TagUse) (x2 : Nat) :
    (State.sendRead x0 x1 x2).pending = x0.pending := by
  unfold State.sendRead; (repeat' split) <;> simp

@[simp] theorem State.issueRead_pending (x0 : State) (x1 x2 x3 : Nat) (x4 : Bool) (x5 : TagFor) (x6 : Bool) :
    (State.issueRead x0 x1 x2 x3 x4 x5 x6).pending = x0.pending := by
  unfold State.issueRead; (repeat' split) <;> simp

@[simp] theorem State.serveTags_pending (x0 : State) : (State.serveTags x0).pending = x0.pending := by
  unfold State.serveTags; (repeat' split) <;> simp

@[simp] theorem State.retireTag_pending (x0 : State) (x1 : Nat) : (State.retireTag x0 x1).pending = x0.pending := by
  unfold State.retireTag; simp

@[simp] theorem State.orphanReads_pending (x0 : State) (x1 : TagFor → Bool) :
    (State.orphanReads x0 x1).pending = x0.pending := by
  unfold State.orphanReads; simp

@[simp] theorem State.timedOut_pending (x0 : State) : (State.timedOut x0).pending = x0.pending := by
  unfold State.timedOut; simp [apply_ite State.pending]

@[simp] theorem State.readEnd_pending (x0 : State) (x1 : Nat) (x2 : Option Fetched) :
    (State.readEnd x0 x1 x2).pending = x0.pending := by
  unfold State.readEnd; (repeat' split) <;> simp

@[simp] theorem State.readPiece_pending (x0 : State) (x1 : TagUse) : (State.readPiece x0 x1).pending = x0.pending := by
  unfold State.readPiece; (repeat' split) <;> simp

@[simp] theorem State.readNow_pending (x0 : State) (x1 x2 x3 : Nat) (x4 x5 : Bool) (x6 : Option Fetched) :
    (State.readNow x0 x1 x2 x3 x4 x5 x6).pending = x0.pending := by
  unfold State.readNow; simp [apply_ite State.pending]

@[simp] theorem State.readStart_pending (x0 : State) (x1 x2 x3 : Nat) (x4 x5 : Bool) (x6 : Nat) (x7 : Bool) (x8 : Nat)
    :
    (State.readStart x0 x1 x2 x3 x4 x5 x6 x7 x8).pending = x0.pending := by
  unfold State.readStart; simp [apply_ite State.pending]

@[simp] theorem State.readDone_pending (x0 : State) (x1 : Nat) (x2 : Bool) (x3 x4 : Nat) (x5 : Option Fetched) :
    (State.readDone x0 x1 x2 x3 x4 x5).pending = x0.pending := by
  unfold State.readDone; simp [apply_ite State.pending]

@[simp] theorem State.postWrite_pending (x0 : State) (x1 x2 : Nat) (x3 : List Byte) (x4 x5 : Bool) :
    (State.postWrite x0 x1 x2 x3 x4 x5).pending = x0.pending := by
  unfold State.postWrite; simp

@[simp] theorem State.arrayWrite_pending (x0 : State) (x1 x2 : Nat) (x3 : List Byte) (x4 : Bool) :
    (State.arrayWrite x0 x1 x2 x3 x4).pending = x0.pending := by
  unfold State.arrayWrite; (repeat' split) <;> simp

@[simp] theorem State.zeroStack_pending (x0 : State) : (State.zeroStack x0).pending = x0.pending := by
  unfold State.zeroStack; simp

@[simp] theorem State.updateDrain_pending (x0 : State) (x1 : Nat) : (State.updateDrain x0 x1).pending = x0.pending := by
  unfold State.updateDrain; simp

@[simp] theorem State.enqueue_pending (x0 : State) (x1 : DramReq) : (State.enqueue x0 x1).pending = x0.pending := by
  unfold State.enqueue; simp

@[simp] theorem State.wakeChannel_pending (x0 : State) (x1 : Nat) : (State.wakeChannel x0 x1).pending = x0.pending := by
  unfold State.wakeChannel; simp [apply_ite State.pending]

@[simp] theorem State.submit_pending (x0 : State) (x1 : DramReq) : (State.submit x0 x1).pending = x0.pending := by
  unfold State.submit; simp [apply_ite State.pending]

@[simp] theorem State.admitWaiting_pending (x0 : State) : (State.admitWaiting x0).pending = x0.pending := by
  unfold State.admitWaiting
  (repeat' first | rfl | assumption | split | intro _ _
                 | rw [foldl_pending] | rw [foldl_fst_pending] | rw [foldl_io_pending] | rw [foldl_walk_pending] | simp)

@[simp] theorem State.releaseHeld_pending (x0 : State) (x1 : Nat → Bool) :
    (State.releaseHeld x0 x1).pending = x0.pending := by
  unfold State.releaseHeld; simp

@[simp] theorem State.lakePut_pending (x0 : State) (x1 : LakeLine) : (State.lakePut x0 x1).pending = x0.pending := by
  unfold State.lakePut; simp

@[simp] theorem State.plruUse_pending (x0 : State) (x1 x2 x3 : Nat) :
    (State.plruUse x0 x1 x2 x3).pending = x0.pending := by
  unfold State.plruUse; simp

@[simp] theorem State.wbTidy_pending (x0 : State) (x1 x2 : Nat) : (State.wbTidy x0 x1 x2).pending = x0.pending := by
  unfold State.wbTidy
  (repeat' first | rfl | assumption | split | intro _ _
                 | rw [foldl_pending] | rw [foldl_fst_pending] | rw [foldl_io_pending] | rw [foldl_walk_pending] | simp)

@[simp] theorem State.wbDone_pending (x0 : State) (x1 x2 : Nat) : (State.wbDone x0 x1 x2).pending = x0.pending := by
  unfold State.wbDone
  (repeat' first | rfl | assumption | split | intro _ _
                 | rw [foldl_pending] | rw [foldl_fst_pending] | rw [foldl_io_pending] | rw [foldl_walk_pending] | simp)

@[simp] theorem State.wbDrop_pending (x0 : State) (x1 x2 : Nat) : (State.wbDrop x0 x1 x2).pending = x0.pending := by
  unfold State.wbDrop; simp [apply_ite State.pending]

@[simp] theorem State.writeBack_pending (x0 : State) (x1 : LakeLine) (x2 x3 : Nat) :
    (State.writeBack x0 x1 x2 x3).1.pending = x0.pending := by
  grind [State.writeBack, State.count_pending, State.lakePut_pending]

@[simp] theorem State.keepClean_pending (x0 : State) (x1 : LakeLine) (x2 : Nat) :
    (State.keepClean x0 x1 x2).pending = x0.pending := by
  unfold State.keepClean
  (repeat' first | rfl | assumption | split | intro _ _
                 | rw [foldl_pending] | rw [foldl_fst_pending] | rw [foldl_io_pending] | rw [foldl_walk_pending] | simp)

@[simp] theorem State.writeBackLine_pending (x0 : State) (x1 x2 x3 : Nat) :
    (State.writeBackLine x0 x1 x2 x3).1.pending = x0.pending := by
  grind [State.writeBackLine, State.writeBack_pending]

@[simp] theorem State.sectorToArray_pending (x0 : State) (x1 x2 : Nat) :
    (State.sectorToArray x0 x1 x2).pending = x0.pending := by
  grind [State.sectorToArray, State.arrayWrite_pending, State.count_pending, State.lakePut_pending,
      State.wbDrop_pending]

@[simp] theorem State.lakeAllocate_pending (x0 : State) (x1 x2 x3 : Nat) :
    (State.lakeAllocate x0 x1 x2 x3).1.pending = x0.pending := by
  unfold State.lakeAllocate
  (repeat' first | rfl | assumption | split | intro _ _
                 | rw [foldl_pending] | rw [foldl_fst_pending] | rw [foldl_io_pending] | rw [foldl_walk_pending] | simp)

@[simp] theorem State.readSector_pending (x0 : State) (x1 x2 x3 : Nat) :
    (State.readSector x0 x1 x2 x3).1.pending = x0.pending := by
  grind [State.readSector, State.activity_pending, State.lakePut_pending, State.plruUse_pending]

@[simp] theorem State.lakeRead_pending (x0 : State) (x1 x2 x3 x4 : Nat) :
    (State.lakeRead x0 x1 x2 x3 x4).1.pending = x0.pending := by
  grind [State.lakeRead, State.activity_pending, State.count_pending, State.lakeAllocate_pending,
      State.lakePut_pending, State.plruUse_pending, State.readSector_pending]

@[simp] theorem State.writeSector_pending (x0 : State) (x1 x2 x3 : Nat) (x4 : List Byte) (x5 x6 : Bool) :
    (State.writeSector x0 x1 x2 x3 x4 x5 x6).1.pending = x0.pending := by
  grind [State.writeSector, State.activity_pending, State.arrayWrite_pending, State.lakePut_pending,
      State.plruUse_pending, State.satInc_pending, State.wbDrop_pending]

@[simp] theorem State.lakeWrite_pending (x0 : State) (x1 x2 x3 : Nat) (x4 : List (Nat × List Byte × Bool)) (x5 : Bool)
    :
    (State.lakeWrite x0 x1 x2 x3 x4 x5).1.pending = x0.pending := by
  unfold State.lakeWrite; (repeat' split) <;> simp_all <;> grind [State.lakeWrite, State.count_pending,
      State.lakeAllocate_pending, State.writeSector_pending]

@[simp] theorem State.lakeFlush_pending (x0 : State) (x1 : Nat → Bool) :
    (State.lakeFlush x0 x1).pending = x0.pending := by
  unfold State.lakeFlush; simp only []
  (repeat' first | rfl | assumption | split | intro _ _
                 | rw [foldl_pending] | rw [foldl_fst_pending] | simp_all)

@[simp] theorem State.lakeEmpty_pending (x0 : State) (x1 : Nat → Bool) :
    (State.lakeEmpty x0 x1).pending = x0.pending := by
  unfold State.lakeEmpty; simp [apply_ite State.pending]

@[simp] theorem State.lakeInvalidate_pending (x0 : State) : (State.lakeInvalidate x0).pending = x0.pending := by
  unfold State.lakeInvalidate; simp

@[simp] theorem State.dropTraffic_pending (x0 : State) : (State.dropTraffic x0).pending = x0.pending := by
  unfold State.dropTraffic; simp [apply_ite State.pending]

@[simp] theorem State.dropSlices_pending (x0 : State) (x1 : Nat → Bool) :
    (State.dropSlices x0 x1).pending = x0.pending := by
  unfold State.dropSlices; simp [apply_ite State.pending]

@[simp] theorem State.setPack_pending (x0 : State) (x1 : PackQueue) : (State.setPack x0 x1).pending = x0.pending := by
  unfold State.setPack; simp [apply_ite State.pending]

@[simp] theorem State.packPump_pending (x0 : State) (x1 : Nat) : (State.packPump x0 x1).pending = x0.pending := by
  unfold State.packPump; simp [apply_ite State.pending]

@[simp] theorem State.packAccepted_pending (x0 : State) (x1 : PortReq) :
    (State.packAccepted x0 x1).pending = x0.pending := by
  unfold State.packAccepted; (repeat' split) <;> simp

@[simp] theorem State.packOpen_pending (x0 : State) (x1 : Nat) (x2 : Packet) :
    (State.packOpen x0 x1 x2).1.pending = x0.pending := by
  unfold State.packOpen; simp [apply_ite State.pending]

@[simp] theorem State.takeLines_pending (x0 : State) (x1 : List Nat) :
    (State.takeLines x0 x1).pending = x0.pending := by
  unfold State.takeLines; simp

@[simp] theorem State.replyRead_pending (x0 : State) (x1 : PortReq) : (State.replyRead x0 x1).pending = x0.pending := by
  unfold State.replyRead
  (repeat' first | rfl | assumption | split | intro _ _
                 | rw [foldl_pending] | rw [foldl_fst_pending] | rw [foldl_io_pending] | rw [foldl_walk_pending] | simp)

@[simp] theorem State.lakeServe_pending (x0 : State) (x1 : PortReq) : (State.lakeServe x0 x1).pending = x0.pending := by
  unfold State.lakeServe
  (repeat' first | rfl | assumption | split | intro _ _
                 | rw [foldl_pending] | rw [foldl_fst_pending] | rw [foldl_io_pending] | rw [foldl_walk_pending] | simp)

@[simp] theorem State.wakeQuad_pending (x0 : State) (x1 : Nat) : (State.wakeQuad x0 x1).pending = x0.pending := by
  unfold State.wakeQuad; simp [apply_ite State.pending]

@[simp] theorem State.present_pending (x0 : State) (x1 : PortReq) : (State.present x0 x1).pending = x0.pending := by
  unfold State.present; simp [apply_ite State.pending]

@[simp] theorem State.serveSlice_pending (x0 x1 : Nat) (x2 : State) :
    (State.serveSlice x0 x1 x2).pending = x2.pending := by
  induction x1 generalizing x2 with
  | zero => rfl
  | succ n ih => unfold State.serveSlice; split
                 · rfl
                 · rw [ih]; simp

@[simp] theorem State.portSend_pending (x0 : State) (x1 : PortReq) : (State.portSend x0 x1).pending = x0.pending := by
  unfold State.portSend; (repeat' split) <;> simp

@[simp] theorem State.masterRead_pending (x0 : State) (x1 x2 x3 x4 x5 : Nat) (x6 : Bool) :
    (State.masterRead x0 x1 x2 x3 x4 x5 x6).1.pending = x0.pending := by
  unfold State.masterRead; simp

@[simp] theorem State.masterWrite_pending (x0 : State) (x1 x2 x3 x4 : Nat) (x5 : List Byte) (x6 x7 : Bool) (x8 :
    Option Nat) :
    (State.masterWrite x0 x1 x2 x3 x4 x5 x6 x7 x8).pending = x0.pending := by
  unfold State.masterWrite; simp

@[simp] theorem State.basinRead_pending (x0 : State) (x1 x2 x3 x4 x5 : Nat) (x6 : Bool) :
    (State.basinRead x0 x1 x2 x3 x4 x5 x6).1.pending = x0.pending := by
  unfold State.basinRead; simp

@[simp] theorem State.basinWrite_pending (x0 : State) (x1 x2 x3 x4 : Nat) (x5 : List Byte) (x6 x7 : Bool) (x8 : Option
    Nat) :
    (State.basinWrite x0 x1 x2 x3 x4 x5 x6 x7 x8).pending = x0.pending := by
  unfold State.basinWrite; simp

@[simp] theorem State.settleSector_pending (x0 : State) (x1 x2 : Nat) :
    (State.settleSector x0 x1 x2).pending = x0.pending := by
  grind [State.settleSector, State.arrayWrite_pending, State.count_pending, State.lakePut_pending,
      State.satInc_pending, State.wbDrop_pending]

@[simp] theorem State.settleLine_pending (x0 : State) (x1 x2 : Nat) :
    (State.settleLine x0 x1 x2).pending = x0.pending := by
  unfold State.settleLine; simp [apply_ite State.pending]

@[simp] theorem State.settleRange_pending (x0 : State) (x1 x2 x3 : Nat) :
    (State.settleRange x0 x1 x2 x3).pending = x0.pending := by
  unfold State.settleRange; simp [apply_ite State.pending]

@[simp] theorem State.popEvent_pending (x0 : State) (x1 : Nat) : (State.popEvent x0 x1).pending = x0.pending := by
  unfold State.popEvent; simp

@[simp] theorem State.startFlush_pending (x0 : State) : (State.startFlush x0).pending = x0.pending := by
  unfold State.startFlush; simp [apply_ite State.pending]

@[simp] theorem State.setEddy_pending (x0 : State) (x1 x2 : Nat) (x3 : Eddy) :
    (State.setEddy x0 x1 x2 x3).pending = x0.pending := by
  unfold State.setEddy; simp

@[simp] theorem State.scratchWriteGo_pending (x0 : State) (x1 : Nat) (x2 : Eddy) (x3 : Nat) (x4 : List Byte) :
    (State.scratchWriteGo x0 x1 x2 x3 x4).pending = x0.pending := by
  induction x4 generalizing x0 x3 with
  | nil => rfl
  | cons b bs ih => unfold State.scratchWriteGo; rw [ih]

@[simp] theorem State.setPortBucket_pending (x0 : State) (x1 : Nat) (x2 : ℤ) :
    (State.setPortBucket x0 x1 x2).pending = x0.pending := by
  unfold State.setPortBucket; simp

@[simp] theorem State.setGrpBucket_pending (x0 : State) (x1 x2 : Nat) :
    (State.setGrpBucket x0 x1 x2).pending = x0.pending := by
  unfold State.setGrpBucket; simp

@[simp] theorem State.weirTick_pending (x0 : State) : (State.weirTick x0).pending = x0.pending := by
  unfold State.weirTick; dsimp only; rw [foldl_pending, foldl_pending]
  · intro b x; (repeat' split) <;> simp
  · intro b x; (repeat' split) <;> simp

@[simp] theorem State.leavePort_pending (x0 : State) (x1 : PortReq) :
    (State.leavePort x0 x1).1.pending = x0.pending := by
  unfold State.leavePort; simp [apply_ite State.pending]

@[simp] theorem State.weirRelease_pending (x0 : State) (x1 : Nat) : (State.weirRelease x0 x1).pending = x0.pending := by
  unfold State.weirRelease; (repeat' split) <;> simp_all <;> grind [State.weirRelease, State.leavePort_pending,
      State.present_pending, State.reply_pending]

@[simp] theorem State.latencySample_pending (x0 : State) (x1 x2 : Nat) :
    (State.latencySample x0 x1 x2).pending = x0.pending := by
  unfold State.latencySample; simp

@[simp] theorem State.countAged_pending (x0 : State) (x1 : Nat) : (State.countAged x0 x1).pending = x0.pending := by
  unfold State.countAged; simp [apply_ite State.pending]

@[simp] theorem State.agePromote_pending (x0 : State) (x1 x2 : Nat) :
    (State.agePromote x0 x1 x2).pending = x0.pending := by
  grind [State.agePromote, State.countAged_pending]

@[simp] theorem State.setDemoted_pending (x0 : State) (x1 : Nat) (x2 : Bool) :
    (State.setDemoted x0 x1 x2).pending = x0.pending := by
  unfold State.setDemoted; simp [apply_ite State.pending]

@[simp] theorem State.admitGroup_pending (x0 : State) (x1 : Nat) : (State.admitGroup x0 x1).1.pending = x0.pending := by
  grind [State.admitGroup, State.applyB_pending, State.set_pending, State.setDemoted_pending]

@[simp] theorem State.admitAll_pending (x0 : State) : (State.admitAll x0).pending = x0.pending := by
  unfold State.admitAll; dsimp only; split <;> simp [foldl_fst_pending]

@[simp] theorem State.admitPending_pending (x0 : State) : (State.admitPending x0).pending = x0.pending := by
  unfold State.admitPending; dsimp only; rw [foldl_pending]; intro b x; split <;> simp

@[simp] theorem State.weirScale_pending (x0 : State) : (State.weirScale x0).pending = x0.pending := by
  unfold State.weirScale; dsimp only; (repeat' split) <;> simp

@[simp] theorem State.latencySteps_pending (x0 : State) (x1 : Nat) :
    (State.latencySteps x0 x1).pending = x0.pending := by
  unfold State.latencySteps; simp [apply_ite State.pending]

@[simp] theorem State.portEff_pending (x0 : State) (x1 : Option Nat) (x2 : Nat) :
    (State.portEff x0 x1 x2).pending = x0.pending := by
  unfold State.portEff; simp

@[simp] theorem State.weirBoundary_pending (x0 : State) (x1 : Option Nat) :
    (State.weirBoundary x0 x1).pending = x0.pending := by
  unfold State.weirBoundary; simp

@[simp] theorem State.setBank_pending (x0 : State) (x1 x2 : Nat) (x3 : Bank) :
    (State.setBank x0 x1 x2 x3).pending = x0.pending := by
  unfold State.setBank; simp

@[simp] theorem State.showUrgent_pending (x0 : State) (x1 : Nat) : (State.showUrgent x0 x1).pending = x0.pending := by
  unfold State.showUrgent; simp

@[simp] theorem State.refpb_pending (x0 : State) (x1 x2 : Nat) : (State.refpb x0 x1 x2).pending = x0.pending := by
  unfold State.refpb; simp

@[simp] theorem State.targetedRefresh_pending (x0 : State) (x1 x2 : Nat) :
    (State.targetedRefresh x0 x1 x2).pending = x0.pending := by
  unfold State.targetedRefresh; simp

@[simp] theorem State.lineWritten_pending (x0 : State) (x1 : DramReq) :
    (State.lineWritten x0 x1).pending = x0.pending := by
  unfold State.lineWritten; simp [apply_ite State.pending]

@[simp] theorem State.issueReq_pending (x0 : State) (x1 : DramReq) : (State.issueReq x0 x1).pending = x0.pending := by
  unfold State.issueReq; simp [apply_ite State.pending]

@[simp] theorem State.arbitrate_pending (x0 : State) (x1 x2 : Nat) :
    (State.arbitrate x0 x1 x2).pending = x0.pending := by
  grind [State.arbitrate, State.issueReq_pending, State.refpb_pending, State.targetedRefresh_pending,
      State.updateDrain_pending]

@[simp] theorem State.applyRate_pending (x0 : State) (x1 : Nat) : (State.applyRate x0 x1).pending = x0.pending := by
  unfold State.applyRate; simp

@[simp] theorem State.refreshDue_pending (x0 : State) (x1 x2 : Nat) :
    (State.refreshDue x0 x1 x2).pending = x0.pending := by
  grind [State.refreshDue, State.applyRate_pending, State.raise_pending, State.raiseMax_pending, State.refpb_pending,
      State.satInc_pending, State.setBank_pending, State.showUrgent_pending]

@[simp] theorem State.trefwEnd_pending (x0 : State) (x1 : Nat) : (State.trefwEnd x0 x1).pending = x0.pending := by
  unfold State.trefwEnd; simp

@[simp] theorem State.setChannel_pending (x0 : State) (x1 x2 : Nat) :
    (State.setChannel x0 x1 x2).pending = x0.pending := by
  unfold State.setChannel; simp

@[simp] theorem State.drainWrites_pending (x0 : State) (x1 : Nat → Bool) (x2 : DramReq → Bool) :
    (State.drainWrites x0 x1 x2).pending = x0.pending := by
  unfold State.drainWrites; simp [apply_ite State.pending]

@[simp] theorem State.srEnter_pending (x0 : State) (x1 : Nat) (x2 : SrCause) :
    (State.srEnter x0 x1 x2).pending = x0.pending := by
  unfold State.srEnter; simp

@[simp] theorem State.srIdleExpire_pending (x0 : State) (x1 : Nat) :
    (State.srIdleExpire x0 x1).pending = x0.pending := by
  unfold State.srIdleExpire; simp [apply_ite State.pending]

@[simp] theorem State.quadOff_pending (x0 : State) (x1 : Nat) : (State.quadOff x0 x1).pending = x0.pending := by
  unfold State.quadOff; simp [apply_ite State.pending]

@[simp] theorem State.quadPower_pending (x0 : State) : (State.quadPower x0).pending = x0.pending := by
  unfold State.quadPower; simp [apply_ite State.pending]

@[simp] theorem State.quadsStart_pending (x0 : State) : (State.quadsStart x0).pending = x0.pending := by
  unfold State.quadsStart; simp [apply_ite State.pending]

@[simp] theorem State.srEntryDone_pending (x0 : State) (x1 : Nat) : (State.srEntryDone x0 x1).pending = x0.pending := by
  unfold State.srEntryDone; simp [apply_ite State.pending]

@[simp] theorem State.srResidencyEnd_pending (x0 : State) (x1 : Nat) :
    (State.srResidencyEnd x0 x1).pending = x0.pending := by
  unfold State.srResidencyEnd; simp [apply_ite State.pending]

@[simp] theorem State.srExitDone_pending (x0 : State) (x1 : Nat) : (State.srExitDone x0 x1).pending = x0.pending := by
  unfold State.srExitDone; simp [apply_ite State.pending]

@[simp] theorem State.srForceAll_pending (x0 : State) : (State.srForceAll x0).pending = x0.pending := by
  unfold State.srForceAll; simp [apply_ite State.pending]

@[simp] theorem State.srReleaseAll_pending (x0 : State) : (State.srReleaseAll x0).pending = x0.pending := by
  unfold State.srReleaseAll; simp [apply_ite State.pending]

@[simp] theorem State.quadWakeDone_pending (x0 : State) (x1 : Nat) :
    (State.quadWakeDone x0 x1).pending = x0.pending := by
  unfold State.quadWakeDone; (repeat' split) <;> simp

@[simp] theorem State.durableAck_pending (x0 : State) (x1 x2 : Nat) :
    (State.durableAck x0 x1 x2).pending = x0.pending := by
  unfold State.durableAck; (repeat' split) <;> simp

@[simp] theorem State.flushDone_pending (x0 : State) : (State.flushDone x0).pending = x0.pending := by
  grind [State.flushDone, State.drainWrites_pending, State.raise_pending, State.set_pending]

@[simp] theorem State.basinEnWrite_pending (x0 : State) (x1 : Nat) (x2 : Bool) :
    (State.basinEnWrite x0 x1 x2).pending = x0.pending := by
  grind [State.basinEnWrite, State.raise_pending, State.set_pending, State.setB_pending]

@[simp] theorem State.setOwner_pending (x0 : State) (x1 x2 : Nat) : (State.setOwner x0 x1 x2).pending = x0.pending := by
  unfold State.setOwner; simp

@[simp] theorem State.basinEnabled_pending (x0 : State) (x1 : Nat) :
    (State.basinEnabled x0 x1).pending = x0.pending := by
  grind [State.basinEnabled, State.set_pending, State.setOwner_pending]

@[simp] theorem State.basinEffect_pending (x0 : State) (x1 : Nat) : (State.basinEffect x0 x1).pending = x0.pending := by
  unfold State.basinEffect; simp [apply_ite State.pending]

@[simp] theorem State.zeroBasin_pending (x0 : State) (x1 : Nat) : (State.zeroBasin x0 x1).pending = x0.pending := by
  unfold State.zeroBasin; simp

@[simp] theorem State.basinFillDone_pending (x0 : State) (x1 : Nat) :
    (State.basinFillDone x0 x1).pending = x0.pending := by
  unfold State.basinFillDone; simp [apply_ite State.pending]

@[simp] theorem State.failChannel_pending (x0 : State) (x1 : Nat) : (State.failChannel x0 x1).pending = x0.pending := by
  unfold State.failChannel; simp

@[simp] theorem State.clockFail_pending (x0 : State) (x1 : Nat) : (State.clockFail x0 x1).pending = x0.pending := by
  unfold State.clockFail; simp [apply_ite State.pending]

@[simp] theorem State.setPlanSlot_pending (x0 : State) (x1 x2 : Nat) (x3 : PlanSlot) :
    (State.setPlanSlot x0 x1 x2 x3).pending = x0.pending := by
  unfold State.setPlanSlot; simp

@[simp] theorem State.planLatchResult_pending (x0 : State) (x1 x2 : Nat) (x3 : Plan) (x4 : List Byte) (x5 : Nat) :
    (State.planLatchResult x0 x1 x2 x3 x4 x5).pending = x0.pending := by
  unfold State.planLatchResult; simp

@[simp] theorem State.planBusy_pending (x0 : State) (x1 x2 x3 x4 x5 : Nat) :
    (State.planBusy x0 x1 x2 x3 x4 x5).pending = x0.pending := by
  unfold State.planBusy; simp

@[simp] theorem State.planRefuse_pending (x0 : State) (x1 x2 x3 x4 x5 : Nat) (x6 : PlanReason) :
    (State.planRefuse x0 x1 x2 x3 x4 x5 x6).pending = x0.pending := by
  unfold State.planRefuse; simp

@[simp] theorem State.planRead_pending (x0 : State) (x1 x2 x3 x4 x5 : Nat) :
    (State.planRead x0 x1 x2 x3 x4 x5).pending = x0.pending := by
  unfold State.planRead; simp [apply_ite State.pending]

@[simp] theorem State.planShow_pending (x0 : State) (x1 x2 x3 x4 : Nat) :
    (State.planShow x0 x1 x2 x3 x4).pending = x0.pending := by
  unfold State.planShow; simp [apply_ite State.pending]

@[simp] theorem State.planSlotRead_pending (x0 : State) (x1 x2 x3 x4 x5 : Nat) :
    (State.planSlotRead x0 x1 x2 x3 x4 x5).pending = x0.pending := by
  unfold State.planSlotRead; simp [apply_ite State.pending]

@[simp] theorem State.planRelease_pending (x0 : State) (x1 x2 : Nat) :
    (State.planRelease x0 x1 x2).pending = x0.pending := by
  unfold State.planRelease; simp [apply_ite State.pending]

@[simp] theorem State.planLatch_pending (x0 : State) (x1 x2 x3 : Nat) :
    (State.planLatch x0 x1 x2 x3).pending = x0.pending := by
  grind [State.planLatch, State.planLatchResult_pending, State.planRelease_pending, State.raiseMax_pending,
      State.reply_pending]

@[simp] theorem State.planDrop_pending (x0 : State) (x1 x2 x3 : Nat) :
    (State.planDrop x0 x1 x2 x3).pending = x0.pending := by
  grind [State.planDrop, State.planBusy_pending, State.planRelease_pending, State.setPlanSlot_pending]

@[simp] theorem State.planWrite_pending (x0 : State) (x1 x2 x3 : Nat) (x4 : List Byte) :
    (State.planWrite x0 x1 x2 x3 x4).pending = x0.pending := by
  unfold State.planWrite; simp [apply_ite State.pending]

@[simp] theorem State.setRing_pending (x0 : State) (x1 : Nat) (x2 : Ring) :
    (State.setRing x0 x1 x2).pending = x0.pending := by
  unfold State.setRing; simp

@[simp] theorem State.showRing_pending (x0 : State) (x1 : Nat) : (State.showRing x0 x1).pending = x0.pending := by
  unfold State.showRing; simp

@[simp] theorem State.putJob_pending (x0 : State) (x1 : Job) : (State.putJob x0 x1).pending = x0.pending := by
  unfold State.putJob; simp

@[simp] theorem State.addJob_pending (x0 : State) (x1 : Job) : (State.addJob x0 x1).pending = x0.pending := by
  unfold State.addJob; simp

@[simp] theorem State.dropJob_pending (x0 : State) (x1 x2 : Nat) : (State.dropJob x0 x1 x2).pending = x0.pending := by
  unfold State.dropJob; simp

@[simp] theorem State.writeThrough_pending (x0 : State) (x1 x2 : Nat) (x3 : List Byte) :
    (State.writeThrough x0 x1 x2 x3).pending = x0.pending := by
  unfold State.writeThrough
  (repeat' first | rfl | assumption | split | intro _ _
                 | rw [foldl_pending] | rw [foldl_fst_pending] | rw [foldl_io_pending] | rw [foldl_walk_pending] | simp)

@[simp] theorem State.recWrite_pending (x0 : State) (x1 x2 x3 : Nat) (x4 : List Byte) :
    (State.recWrite x0 x1 x2 x3 x4).pending = x0.pending := by
  unfold State.recWrite; (repeat' split) <;> simp

@[simp] theorem State.recState_pending (x0 : State) (x1 x2 x3 : Nat) :
    (State.recState x0 x1 x2 x3).pending = x0.pending := by
  unfold State.recState; simp

@[simp] theorem State.recOpen_pending (x0 : State) (x1 x2 x3 x4 : Nat) :
    (State.recOpen x0 x1 x2 x3 x4).pending = x0.pending := by
  unfold State.recOpen; simp

@[simp] theorem State.recFetch_pending (x0 : State) (x1 x2 : Nat) : (State.recFetch x0 x1 x2).pending = x0.pending := by
  unfold State.recFetch; (repeat' split) <;> simp

@[simp] theorem State.recVoid_pending (x0 : State) (x1 : Nat) : (State.recVoid x0 x1).pending = x0.pending := by
  unfold State.recVoid; simp [apply_ite State.pending]

@[simp] theorem State.recDescribe_pending (x0 : State) (x1 x2 : Nat) (x3 : List Byte) (x4 : Nat) :
    (State.recDescribe x0 x1 x2 x3 x4).pending = x0.pending := by
  unfold State.recDescribe; simp

@[simp] theorem State.recCond_pending (x0 : State) (x1 x2 : Nat) (x3 : Cond) :
    (State.recCond x0 x1 x2 x3).pending = x0.pending := by
  unfold State.recCond; simp [apply_ite State.pending]

@[simp] theorem State.recDoneBit_pending (x0 : State) (x1 x2 x3 : Nat) (x4 : Bool) :
    (State.recDoneBit x0 x1 x2 x3 x4).pending = x0.pending := by
  unfold State.recDoneBit; simp

@[simp] theorem State.recIssue_pending (x0 : State) (x1 x2 x3 : Nat) :
    (State.recIssue x0 x1 x2 x3).pending = x0.pending := by
  unfold State.recIssue; simp

@[simp] theorem State.recDone_pending (x0 : State) (x1 x2 x3 x4 x5 : Nat) :
    (State.recDone x0 x1 x2 x3 x4 x5).pending = x0.pending := by
  unfold State.recDone; simp [apply_ite State.pending]

@[simp] theorem State.unitDone_pending (x0 : State) (x1 : Job) (x2 : Nat) :
    (State.unitDone x0 x1 x2).1.pending = x0.pending := by
  unfold State.unitDone; (repeat' split) <;> simp

@[simp] theorem State.condition_pending (x0 : State) (x1 : Job) (x2 : Cond) :
    (State.condition x0 x1 x2).1.pending = x0.pending := by
  unfold State.condition; simp

@[simp] theorem State.noteStop_pending (x0 : State) (x1 : Job) (x2 : Status) :
    (State.noteStop x0 x1 x2).pending = x0.pending := by
  unfold State.noteStop; simp [apply_ite State.pending]

@[simp] theorem State.stopJob_pending (x0 : State) (x1 : Job) (x2 : Status) (x3 : Nat) :
    (State.stopJob x0 x1 x2 x3).1.pending = x0.pending := by
  unfold State.stopJob; simp [apply_ite State.pending]

@[simp] theorem Walk.fetch_pending (x0 : Walk) (x1 : Nat) (x2 : BufEntry) (x3 : Nat) :
    (Walk.fetch x0 x1 x2 x3).1.st.pending = x0.st.pending := by
  grind [Walk.fetch, State.basinRead_pending, State.readNow_pending]

@[simp] theorem Walk.chain_pending (x0 x1 : Nat) (x2 : Walk) (x3 : BufEntry) (x4 : Buffer) :
    (Walk.chain x0 x1 x2 x3 x4).1.st.pending = x2.st.pending := by
  induction x1 generalizing x2 x3 x4 with
  | zero => rfl
  | succ n ih => unfold Walk.chain; dsimp only; (repeat' split) <;> simp [ih]

@[simp] theorem Walk.buffer_pending (x0 : Walk) (x1 : Nat) (x2 : List Byte) :
    (Walk.buffer x0 x1 x2).1.st.pending = x0.st.pending := by
  grind [Walk.buffer, Walk.chain_pending]

@[simp] theorem Walk.tableGo_pending (x0 : Nat) (x1 : Walk) (x2 : List (List Byte)) (x3 : List Buffer) :
    (Walk.tableGo x0 x1 x2 x3).1.st.pending = x1.st.pending := by
  induction x2 generalizing x1 x3 with
  | nil => rfl
  | cons b bs ih => unfold Walk.tableGo; dsimp only; rw [ih]; simp

@[simp] theorem Walk.table_pending (x0 : Walk) (x1 x2 : Nat) (x3 : List Byte) :
    (Walk.table x0 x1 x2 x3).1.st.pending = x0.st.pending := by
  grind [Walk.table, Walk.fetch_pending, Walk.tableGo_pending]

@[simp] theorem TaskIo.engine_pending (x0 : State) (x1 x2 : Nat) (x3 : List Fetched) (x4 : Bool) :
    (TaskIo.engine x0 x1 x2 x3 x4).st.pending = x0.pending := by
  unfold TaskIo.engine; simp [apply_ite State.pending]

@[simp] theorem TaskIo.take_pending (x0 : TaskIo) (x1 : Nat) : (TaskIo.take x0 x1).st.pending = x0.st.pending := by
  unfold TaskIo.take; (repeat' split) <;> simp

@[simp] theorem TaskIo.read_pending (x0 : TaskIo) (x1 : Buffer) (x2 x3 : Nat) :
    (TaskIo.read x0 x1 x2 x3).1.st.pending = x0.st.pending := by
  unfold TaskIo.read; rw [foldl_io_pending]; intro b x; dsimp only; (repeat' split) <;> simp

@[simp] theorem State.basinWritePacket_pending (x0 : State) (x1 x2 x3 x4 : Nat) (x5 : List Byte) (x6 : Option Packet)
    :
    (State.basinWritePacket x0 x1 x2 x3 x4 x5 x6).pending = x0.pending := by
  unfold State.basinWritePacket; (repeat' split) <;> simp_all <;> grind [State.basinWritePacket,
      State.basinWrite_pending, State.packOpen_pending]

@[simp] theorem TaskIo.write_pending (x0 : TaskIo) (x1 : UnitRun) (x2 : Buffer) (x3 : Nat) (x4 : List Byte) (x5 : Nat)
    :
    (TaskIo.write x0 x1 x2 x3 x4 x5).1.st.pending = x0.st.pending := by
  unfold TaskIo.write
  (repeat' first | rfl | assumption | split | intro _ _
                 | rw [foldl_pending] | rw [foldl_fst_pending] | rw [foldl_io_pending] | rw [foldl_walk_pending] | simp)

@[simp] theorem State.issueFlushes_pending (x0 : State) (x1 : Job) (x2 : UnitRun) :
    (State.issueFlushes x0 x1 x2).pending = x0.pending := by
  unfold State.issueFlushes; simp

@[simp] theorem State.flushRanges_pending (x0 : State) (x1 : List (Nat × Nat × Nat)) :
    (State.flushRanges x0 x1).pending = x0.pending := by
  unfold State.flushRanges
  (repeat' first | rfl | assumption | split | intro _ _
                 | rw [foldl_pending] | rw [foldl_fst_pending] | rw [foldl_io_pending] | rw [foldl_walk_pending] | simp)

@[simp] theorem State.flashProgram_pending (x0 : State) (x1 : Nat) (x2 : List Byte) :
    (State.flashProgram x0 x1 x2).pending = x0.pending := by
  unfold State.flashProgram; simp

@[simp] theorem State.flashErase_pending (x0 : State) (x1 x2 : Nat) :
    (State.flashErase x0 x1 x2).pending = x0.pending := by
  unfold State.flashErase; simp

@[simp] theorem State.flashPut_pending (x0 : State) (x1 : Nat) (x2 : List Byte) :
    (State.flashPut x0 x1 x2).pending = x0.pending := by
  unfold State.flashPut; simp

theorem State.repairAppend_pending {s t : State} {typ unit bank row spare seq : Nat} {active : Bool}
    (h : s.repairAppend typ active unit bank row spare = some (t, seq)) : t.pending = s.pending := by
  unfold State.repairAppend at h
  split at h
  · cases h
  · simp only [Option.some.injEq, Prod.mk.injEq] at h
    rw [← h.1]; simp

@[simp] theorem State.repairNote_pending (x0 : State) (x1 x2 x3 : Nat) :
    (State.repairNote x0 x1 x2 x3).pending = x0.pending := by
  unfold State.repairNote; split
  · exact State.repairAppend_pending ‹_›
  · rfl

@[simp] theorem State.repairActivate_pending (x0 : State) (x1 : Nat) :
    (State.repairActivate x0 x1).pending = x0.pending := by
  unfold State.repairActivate; (repeat' split) <;> simp

@[simp] theorem State.ceTake_pending (x0 : State) (x1 x2 x3 x4 x5 x6 x7 : Nat) :
    (State.ceTake x0 x1 x2 x3 x4 x5 x6 x7).pending = x0.pending := by
  grind [State.ceTake, State.raise_pending, State.set_pending]

@[simp] theorem State.ceLog_pending (x0 : State) (x1 x2 x3 : Nat) : (State.ceLog x0 x1 x2 x3).pending = x0.pending := by
  grind [State.ceLog, State.ceTake_pending, State.satInc_pending, State.set_pending]

@[simp] theorem State.setBadTsvs_pending (x0 : State) (x1 : Nat) (x2 : List Nat) :
    (State.setBadTsvs x0 x1 x2).pending = x0.pending := by
  unfold State.setBadTsvs; simp

@[simp] theorem State.setBadCa_pending (x0 : State) (x1 : Nat) (x2 : List Nat) :
    (State.setBadCa x0 x1 x2).pending = x0.pending := by
  unfold State.setBadCa; simp

@[simp] theorem State.eraseLane_pending (x0 : State) (x1 x2 : Nat) :
    (State.eraseLane x0 x1 x2).pending = x0.pending := by
  unfold State.eraseLane; simp [apply_ite State.pending]

@[simp] theorem State.repairLane_pending (x0 : State) (x1 x2 : Nat) :
    (State.repairLane x0 x1 x2).pending = x0.pending := by
  unfold State.repairLane; simp [apply_ite State.pending]

@[simp] theorem State.laneFound_pending (x0 : State) (x1 x2 : Nat) :
    (State.laneFound x0 x1 x2).pending = x0.pending := by
  grind [State.laneFound, State.raise_pending, State.repairLane_pending, State.set_pending]

@[simp] theorem State.laneCorrection_pending (x0 : State) (x1 x2 x3 : Nat) :
    (State.laneCorrection x0 x1 x2 x3).pending = x0.pending := by
  unfold State.laneCorrection; simp [apply_ite State.pending]

@[simp] theorem State.countDecode_pending (x0 : State) (x1 x2 : Nat) (x3 : LineRead) :
    (State.countDecode x0 x1 x2 x3).pending = x0.pending := by
  unfold State.countDecode; (repeat' split) <;> simp

@[simp] theorem State.lineUe_pending (x0 : State) (x1 x2 x3 : Nat) :
    (State.lineUe x0 x1 x2 x3).pending = x0.pending := by
  unfold State.lineUe; simp

@[simp] theorem State.fillDecoded_pending (x0 : State) (x1 x2 x3 : Nat) (x4 : LineRead) :
    (State.fillDecoded x0 x1 x2 x3 x4).pending = x0.pending := by
  unfold State.fillDecoded; dsimp only; have hl := State.lakeAllocate_pending x0 x2 x3 (if x1 < 64 then x1 else 64)
  (repeat' split) <;> simp_all

@[simp] theorem State.noteCopyRead_pending (x0 : State) (x1 x2 x3 : Nat) (x4 : LineRead) :
    (State.noteCopyRead x0 x1 x2 x3 x4).pending = x0.pending := by
  unfold State.noteCopyRead
  (repeat' first | rfl | assumption | split | intro _ _
                 | rw [foldl_pending] | rw [foldl_fst_pending] | rw [foldl_io_pending] | rw [foldl_walk_pending] | simp)

@[simp] theorem State.demandDecode_pending (x0 : State) (x1 x2 x3 : Nat) (x4 x5 : List Byte) :
    (State.demandDecode x0 x1 x2 x3 x4 x5).pending = x0.pending := by
  grind [State.demandDecode, State.countDecode_pending, State.fillDecoded_pending, State.lineUe_pending,
      State.noteCopyRead_pending]

@[simp] theorem State.lineDecode_pending (x0 : State) (x1 x2 x3 : Nat) (x4 x5 : List Byte) :
    (State.lineDecode x0 x1 x2 x3 x4 x5).pending = x0.pending := by
  unfold State.lineDecode; simp [apply_ite State.pending]

@[simp] theorem State.decodeHeld_pending (x0 : State) : (State.decodeHeld x0).pending = x0.pending := by
  unfold State.decodeHeld
  (repeat' first | rfl | assumption | split | intro _ _
                 | rw [foldl_pending] | rw [foldl_fst_pending] | rw [foldl_io_pending] | rw [foldl_walk_pending] | simp)

@[simp] theorem State.laneShift_pending (x0 : State) (x1 : Nat) : (State.laneShift x0 x1).pending = x0.pending := by
  grind [State.laneShift]

@[simp] theorem State.shiftDq_pending (x0 : State) (x1 x2 x3 : Nat) :
    (State.shiftDq x0 x1 x2 x3).pending = x0.pending := by
  unfold State.shiftDq; simp

@[simp] theorem State.shiftCa_pending (x0 : State) (x1 x2 : Nat) : (State.shiftCa x0 x1 x2).pending = x0.pending := by
  unfold State.shiftCa; simp

@[simp] theorem State.laneShiftDone_pending (x0 : State) (x1 : Nat) :
    (State.laneShiftDone x0 x1).pending = x0.pending := by
  grind [State.laneShiftDone, State.releaseHeld_pending, State.shiftCa_pending, State.shiftDq_pending]

@[simp] theorem State.shiftReq_pending (x0 : State) (x1 : Nat) : (State.shiftReq x0 x1).pending = x0.pending := by
  unfold State.shiftReq; simp [apply_ite State.pending]

@[simp] theorem State.caFail_pending (x0 : State) (x1 : Nat) : (State.caFail x0 x1).pending = x0.pending := by
  unfold State.caFail; simp [apply_ite State.pending]

@[simp] theorem State.repairCa_pending (x0 : State) (x1 x2 : Nat) : (State.repairCa x0 x1 x2).pending = x0.pending := by
  unfold State.repairCa; simp [apply_ite State.pending]

@[simp] theorem State.caParity_pending (x0 : State) (x1 x2 x3 : Nat) :
    (State.caParity x0 x1 x2 x3).pending = x0.pending := by
  unfold State.caParity; simp [apply_ite State.pending]

@[simp] theorem State.retRefuse_pending (x0 : State) (x1 : Nat) : (State.retRefuse x0 x1).pending = x0.pending := by
  unfold State.retRefuse; simp

@[simp] theorem State.rowRetire_pending (x0 : State) (x1 : Nat) (x2 : Bool) :
    (State.rowRetire x0 x1 x2).pending = x0.pending := by
  unfold State.rowRetire; dsimp only; (repeat' split) <;> simp
  rename_i h; split at h
  · exact State.repairAppend_pending h
  · cases h

@[simp] theorem State.pcRetire_pending (x0 : State) (x1 : Nat) (x2 : Bool) :
    (State.pcRetire x0 x1 x2).pending = x0.pending := by
  unfold State.pcRetire; dsimp only; (repeat' split) <;> simp
  rename_i h; split at h
  · exact State.repairAppend_pending h
  · cases h

@[simp] theorem State.retCmd_pending (x0 : State) (x1 : Nat) (x2 : Bool) :
    (State.retCmd x0 x1 x2).pending = x0.pending := by
  unfold State.retCmd; (repeat' split) <;> simp

@[simp] theorem State.remap_pending (x0 : State) (x1 : RepairEntry) : (State.remap x0 x1).pending = x0.pending := by
  unfold State.remap; simp

@[simp] theorem State.copyLine_pending (x0 : State) (x1 : RepairEntry) (x2 : Nat) :
    (State.copyLine x0 x1 x2).pending = x0.pending := by
  unfold State.copyLine
  (repeat' first | rfl | assumption | split | intro _ _
                 | rw [foldl_pending] | rw [foldl_fst_pending] | rw [foldl_io_pending] | rw [foldl_walk_pending] | simp)

@[simp] theorem State.rowCopy_pending (x0 : State) : (State.rowCopy x0).pending = x0.pending := by
  unfold State.rowCopy
  (repeat' first | rfl | assumption | split | intro _ _
                 | rw [foldl_pending] | rw [foldl_fst_pending] | rw [foldl_io_pending] | rw [foldl_walk_pending] | simp)

@[simp] theorem State.setDrNext_pending (x0 : State) (x1 : Nat) : (State.setDrNext x0 x1).pending = x0.pending := by
  unfold State.setDrNext; simp

@[simp] theorem State.setDrCursor_pending (x0 : State) (x1 : Nat) : (State.setDrCursor x0 x1).pending = x0.pending := by
  unfold State.setDrCursor; simp

@[simp] theorem State.everyWrite_pending (x0 : State) (x1 : Nat) : (State.everyWrite x0 x1).pending = x0.pending := by
  unfold State.everyWrite; simp [apply_ite State.pending]

@[simp] theorem State.roundStart_pending (x0 : State) (x1 : Nat) : (State.roundStart x0 x1).pending = x0.pending := by
  unfold State.roundStart; simp

@[simp] theorem State.roundBehind_pending (x0 : State) : (State.roundBehind x0).pending = x0.pending := by
  grind [State.roundBehind, State.raise_pending, State.set_pending]

@[simp] theorem State.roundDue_pending (x0 : State) (x1 : Nat) : (State.roundDue x0 x1).pending = x0.pending := by
  unfold State.roundDue; simp [apply_ite State.pending]

@[simp] theorem State.dredgeEpoch_pending (x0 : State) : (State.dredgeEpoch x0).pending = x0.pending := by
  unfold State.dredgeEpoch; simp [apply_ite State.pending]

@[simp] theorem State.roundStops_pending (x0 : State) : (State.roundStops x0).pending = x0.pending := by
  unfold State.roundStops
  (repeat' first | rfl | assumption | split | intro _ _
                 | rw [foldl_pending] | rw [foldl_fst_pending] | rw [foldl_io_pending] | rw [foldl_walk_pending] | simp)

@[simp] theorem State.roundEnd_pending (x0 : State) (x1 : Pass) : (State.roundEnd x0 x1).pending = x0.pending := by
  grind [State.roundEnd, State.roundBehind_pending, State.roundStart_pending, State.set_pending,
      State.setDrCursor_pending, State.wrapInc_pending]

@[simp] theorem State.setSeal_pending (x0 : State) (x1 : Nat) (x2 : SealFn) :
    (State.setSeal x0 x1 x2).pending = x0.pending := by
  unfold State.setSeal; simp

@[simp] theorem State.activate_pending (x0 : State) (x1 x2 : Nat) : (State.activate x0 x1 x2).pending = x0.pending := by
  grind [State.activate, State.raise_pending, State.set_pending]

@[simp] theorem State.activateKeys_pending (x0 : State) (x1 : Nat) :
    (State.activateKeys x0 x1).pending = x0.pending := by
  unfold State.activateKeys; simp

@[simp] theorem State.loadKey_pending (x0 : State) (x1 x2 x3 x4 : Nat) (x5 : List Byte) :
    (State.loadKey x0 x1 x2 x3 x4 x5).pending = x0.pending := by
  unfold State.loadKey; simp

@[simp] theorem State.dropKey_pending (x0 : State) (x1 x2 : Nat) : (State.dropKey x0 x1 x2).pending = x0.pending := by
  unfold State.dropKey; simp

@[simp] theorem State.unloadKey_pending (x0 : State) (x1 x2 : Nat) :
    (State.unloadKey x0 x1 x2).pending = x0.pending := by
  unfold State.unloadKey; simp [apply_ite State.pending]

@[simp] theorem State.logFull_pending (x0 : State) (x1 : Nat) : (State.logFull x0 x1).pending = x0.pending := by
  grind [State.logFull, State.raise_pending, State.set_pending]

@[simp] theorem State.logMessage_pending (x0 : State) (x1 : Nat) (x2 : Bool) :
    (State.logMessage x0 x1 x2).pending = x0.pending := by
  unfold State.logMessage; simp [apply_ite State.pending]

@[simp] theorem State.logSent_pending (x0 : State) (x1 x2 : Nat) : (State.logSent x0 x1 x2).pending = x0.pending := by
  unfold State.logSent; simp [apply_ite State.pending]

@[simp] theorem State.logWrite_pending (x0 : State) (x1 x2 : Nat) (x3 : List Byte) (x4 : Bool) :
    (State.logWrite x0 x1 x2 x3 x4).pending = x0.pending := by
  grind [State.logWrite, State.hostWrite_pending, State.logMessage_pending, State.raise_pending, State.set_pending,
      State.setSeal_pending]

@[simp] theorem State.settleSeal_pending (x0 : State) (x1 : Job) : (State.settleSeal x0 x1).1.pending = x0.pending := by
  unfold State.settleSeal; (repeat' split) <;> simp

@[simp] theorem State.sealLogged_pending (x0 : State) (x1 : Option (Nat × Nat × Nat)) (x2 : Bool) :
    (State.sealLogged x0 x1 x2).pending = x0.pending := by
  unfold State.sealLogged; (repeat' split) <;> grind [State.sealLogged, State.condition_pending, State.putJob_pending,
      State.settleSeal_pending]

@[simp] theorem State.forgetSeals_pending (x0 : State) (x1 : Nat → Bool) :
    (State.forgetSeals x0 x1).pending = x0.pending := by
  unfold State.forgetSeals; simp [apply_ite State.pending]

@[simp] theorem State.drainRecords_pending (x0 : Nat) (x1 : State) (x2 : Nat) (x3 : Bool) :
    (State.drainRecords x0 x1 x2 x3).pending = x1.pending := by
  induction x0 generalizing x1 x3 with
  | zero => rfl
  | succ n ih => unfold State.drainRecords; dsimp only; (repeat' split) <;> simp [ih]

@[simp] theorem State.drainLog_pending (x0 : State) (x1 : Nat) (x2 : Bool) :
    (State.drainLog x0 x1 x2).pending = x0.pending := by
  unfold State.drainLog; simp

@[simp] theorem State.setEpoch_pending (x0 : State) (x1 x2 : Nat) : (State.setEpoch x0 x1 x2).pending = x0.pending := by
  unfold State.setEpoch; simp

@[simp] theorem State.setLastSeal_pending (x0 : State) (x1 x2 : Nat) :
    (State.setLastSeal x0 x1 x2).pending = x0.pending := by
  unfold State.setLastSeal; simp

@[simp] theorem State.startChain_pending (x0 : State) (x1 : Nat) : (State.startChain x0 x1).pending = x0.pending := by
  unfold State.startChain; simp only []
  (repeat' first | rfl | assumption | split | intro _ _
                 | rw [foldl_pending] | rw [foldl_fst_pending] | simp_all)

@[simp] theorem State.closeBatch_pending (x0 : State) (x1 x2 : Nat) (x3 : Bool) (x4 : Option (Nat × Nat × Nat)) :
    (State.closeBatch x0 x1 x2 x3 x4).pending = x0.pending := by
  unfold State.closeBatch; simp

@[simp] theorem State.raiseEpoch_pending (x0 : State) (x1 x2 : Nat) :
    (State.raiseEpoch x0 x1 x2).pending = x0.pending := by
  unfold State.raiseEpoch; simp [apply_ite State.pending]

@[simp] theorem State.addEntry_pending (x0 : State) (x1 : Nat) (x2 : List Byte) :
    (State.addEntry x0 x1 x2).pending = x0.pending := by
  unfold State.addEntry; simp [apply_ite State.pending]

@[simp] theorem State.signBatch_pending (x0 : State) (x1 : Nat) (x2 : Bool) :
    (State.signBatch x0 x1 x2).1.pending = x0.pending := by
  grind [State.signBatch, State.count_pending, State.drainLog_pending, State.draw_pending, State.set_pending,
      State.setSeal_pending]

@[simp] theorem State.epochRejected_pending (x0 : State) (x1 : Nat) :
    (State.epochRejected x0 x1).pending = x0.pending := by
  grind [State.epochRejected, State.raise_pending, State.satInc_pending, State.set_pending]

@[simp] theorem State.epochCommit_pending (x0 : State) (x1 x2 : Nat) :
    (State.epochCommit x0 x1 x2).pending = x0.pending := by
  unfold State.epochCommit; simp [apply_ite State.pending]

@[simp] theorem State.epochLatch_pending (x0 : State) (x1 : Nat) : (State.epochLatch x0 x1).pending = x0.pending := by
  unfold State.epochLatch; simp

@[simp] theorem State.epochHi_pending (x0 : State) (x1 : Nat) : (State.epochHi x0 x1).1.pending = x0.pending := by
  unfold State.epochHi; simp

@[simp] theorem State.logHead_pending (x0 : State) (x1 x2 : Nat) (x3 : Bool) :
    (State.logHead x0 x1 x2 x3).pending = x0.pending := by
  unfold State.logHead; simp [apply_ite State.pending]

@[simp] theorem State.logEnEffect_pending (x0 : State) (x1 : Nat) (x2 : Bool) :
    (State.logEnEffect x0 x1 x2).pending = x0.pending := by
  unfold State.logEnEffect; simp [apply_ite State.pending]

@[simp] theorem Check.reject_pending (x0 : Check) (x1 : Status) : (Check.reject x0 x1).st.pending = x0.st.pending := by
  unfold Check.reject; simp

@[simp] theorem Check.next_pending (x0 : Check) (x1 : Check → Check) (h : ∀ a, (x1 a).st.pending = a.st.pending) :
    (Check.next x0 x1).st.pending = x0.st.pending := by
  unfold Check.next; split <;> simp [h]

@[simp] theorem Check.walked_pending (c : Check) (w : Walk) (j : Job) : (c.walked w j).st.pending = w.st.pending := rfl

@[simp] theorem Check.walk_pending (x0 : Nat) (x1 : Check) (x2 : Nat × Bool) :
    (Check.walk x0 x1 x2).st.pending = x1.st.pending := by
  unfold Check.walk; rw [Check.next_pending]; intro a; dsimp only; split <;> simp

@[simp] theorem Check.fetchSched_pending (x0 : Check) : (Check.fetchSched x0).1.st.pending = x0.st.pending := by
  unfold Check.fetchSched; simp only [Check.walked_pending]; rw [foldl_walk_pending]; intro b x; simp

@[simp] theorem Check.schedule_pending (x0 : Profile) (x1 : Check) :
    (Check.schedule x0 x1).st.pending = x1.st.pending := by
  grind [Check.schedule, Check.fetchSched_pending, Check.next_pending, Check.reject_pending, State.satInc_pending]

@[simp] theorem Check.run_pending (x0 : Check) (x1 : Nat) : (Check.run x0 x1).st.pending = x0.st.pending := by
  have hr : ∀ (st : Status) (ok : State → Job → Bool) (c : Check), (if ok c.st c.job then c else c.reject st).st.pending = c.st.pending := by
    intro st ok c; split <;> simp
  have hf : ∀ n l (c : Check), (List.foldl (Check.walk n) c l).st.pending = c.st.pending := by
    intro n l c; exact foldl_same (fun c : Check => c.st.pending) _ (fun c x => Check.walk_pending n c x) l c
  unfold Check.run; dsimp only; rw [apply_ite (fun c : Check => c.st.pending)]; simp only [Check.reject_pending, State.satInc_pending, ite_self]
  (repeat rw [Check.next_pending]) <;> first | (simp [apply_ite (fun c : Check => c.st.pending), hf]; done) | (intro a; (repeat' split) <;> simp)

@[simp] theorem State.planJob_pending (x0 : State) (x1 : Job) : (State.planJob x0 x1).1.pending = x0.pending := by
  grind [State.planJob, State.condition_pending]

@[simp] theorem State.writeOut_pending (x0 : State) (x1 : Job) (x2 x3 : Nat) (x4 : List Byte) :
    (State.writeOut x0 x1 x2 x3 x4).1.pending = x0.pending := by
  unfold State.writeOut; simp

@[simp] theorem State.issueOne_pending (x0 : State) (x1 : Job) : (State.issueOne x0 x1).1.pending = x0.pending := by
  unfold State.issueOne; simp

@[simp] theorem State.runQuery_pending (x0 : State) (x1 : Job) : (State.runQuery x0 x1).1.pending = x0.pending := by
  unfold State.runQuery; dsimp only; split
  · simp
  · split <;> simp

@[simp] theorem State.startScrub_pending (x0 : State) (x1 : Job) : (State.startScrub x0 x1).pending = x0.pending := by
  unfold State.startScrub; simp

@[simp] theorem State.startJob_pending (x0 : State) (x1 : Job) : (State.startJob x0 x1).pending = x0.pending := by
  grind [State.startJob, State.planJob_pending, State.putJob_pending, State.recState_pending, State.runQuery_pending,
      State.startScrub_pending]

@[simp] theorem State.releaseFence_pending (x0 : State) (x1 : Nat) :
    (State.releaseFence x0 x1).pending = x0.pending := by
  unfold State.releaseFence; simp [apply_ite State.pending]

@[simp] theorem State.fetchDescriptor_pending (x0 : State) (x1 : Nat) :
    (State.fetchDescriptor x0 x1).pending = x0.pending := by
  unfold State.fetchDescriptor; simp [apply_ite State.pending]

@[simp] theorem State.rejectJob_pending (x0 : State) (x1 : Job) (x2 : Status) :
    (State.rejectJob x0 x1 x2).pending = x0.pending := by
  unfold State.rejectJob; simp

theorem State.takeFetch_pending {s t : State} {q : Nat} {g : Nat → Bool} {f : Fetch} (h : s.takeFetch q g = some (t, f)) : t.pending = s.pending := by
  unfold State.takeFetch at h
  split at h
  · cases h
  · simp only [Option.some.injEq, Prod.mk.injEq] at h
    rw [← h.1]; simp

theorem State.takeSnapshot_pending {s t : State} {f : Nat} {x : Snapshot} (h : s.takeSnapshot f = some (t, x)) : t.pending = s.pending := by
  unfold State.takeSnapshot at h
  split at h
  · cases h
  · simp only [Option.some.injEq, Prod.mk.injEq] at h
    rw [← h.1]; simp

@[simp] theorem State.arrive_pending (x0 : State) (x1 : Nat) (x2 : List Byte) (x3 : List Fetched) :
    (State.arrive x0 x1 x2 x3).pending = x0.pending := by
  unfold State.arrive; dsimp only; split
  · rfl
  · rename_i h; rw [← State.takeFetch_pending h]
    (repeat' split) <;> simp_all
    all_goals (have h2 := State.takeSnapshot_pending ‹State.takeSnapshot _ _ = some (_, _)›; simp at h2; exact h2)

@[simp] theorem State.fetchFail_pending (x0 : State) (x1 : Nat) (x2 : Nat → Bool) :
    (State.fetchFail x0 x1 x2).pending = x0.pending := by
  unfold State.fetchFail; split
  · rfl
  · rename_i h; rw [← State.takeFetch_pending h]; simp

@[simp] theorem State.startReads_pending (x0 : State) (x1 : Nat) (x2 : Token) :
    (State.startReads x0 x1 x2).pending = x0.pending := by
  unfold State.startReads; (repeat' split) <;> simp

@[simp] theorem State.dropReads_pending (x0 : State) (x1 : Nat) (x2 : Bool → Bool) :
    (State.dropReads x0 x1 x2).pending = x0.pending := by
  unfold State.dropReads; simp [apply_ite State.pending]

@[simp] theorem State.setPond_pending (x0 : State) (x1 : Nat) (x2 : Pond) :
    (State.setPond x0 x1 x2).pending = x0.pending := by
  unfold State.setPond; simp

@[simp] theorem State.setEngine_pending (x0 : State) (x1 : Nat) (x2 : Engine) :
    (State.setEngine x0 x1 x2).pending = x0.pending := by
  unfold State.setEngine; simp

@[simp] theorem State.showEngines_pending (x0 : State) : (State.showEngines x0).pending = x0.pending := by
  unfold State.showEngines; simp

@[simp] theorem State.setEngState_pending (x0 : State) (x1 x2 : Nat) :
    (State.setEngState x0 x1 x2).pending = x0.pending := by
  unfold State.setEngState; simp

@[simp] theorem State.setDom_pending (x0 : State) (x1 x2 : Nat) : (State.setDom x0 x1 x2).pending = x0.pending := by
  unfold State.setDom; simp

@[simp] theorem State.wakeDom_pending (x0 : State) (x1 : Nat) : (State.wakeDom x0 x1).pending = x0.pending := by
  unfold State.wakeDom; simp [apply_ite State.pending]

@[simp] theorem State.engineDown_pending (x0 : State) (x1 x2 : Nat) :
    (State.engineDown x0 x1 x2).pending = x0.pending := by
  unfold State.engineDown; simp

@[simp] theorem State.offlineCheck_pending (x0 : State) (x1 : Nat) :
    (State.offlineCheck x0 x1).pending = x0.pending := by
  unfold State.offlineCheck; simp [apply_ite State.pending]

@[simp] theorem State.showBusy_pending (x0 : State) (x1 : Nat) : (State.showBusy x0 x1).pending = x0.pending := by
  unfold State.showBusy; simp [apply_ite State.pending]

@[simp] theorem State.dropTokensWith_pending (x0 : State) (x1 x2 : Nat) (x3 : Token → Bool) :
    (State.dropTokensWith x0 x1 x2 x3).pending = x0.pending := by
  unfold State.dropTokensWith; simp [apply_ite State.pending]

@[simp] theorem State.dropTokens_pending (x0 : State) (x1 x2 : Nat) :
    (State.dropTokens x0 x1 x2).pending = x0.pending := by
  unfold State.dropTokens; simp

@[simp] theorem State.dropTasks_pending (x0 : State) (x1 x2 : Nat) :
    (State.dropTasks x0 x1 x2).pending = x0.pending := by
  unfold State.dropTasks; simp [apply_ite State.pending]

@[simp] theorem State.notePush_pending (x0 : State) (x1 : Job) (x2 : Token) :
    (State.notePush x0 x1 x2).1.pending = x0.pending := by
  unfold State.notePush; (repeat' split) <;> simp_all <;> grind [State.notePush, State.issueOne_pending,
      State.recIssue_pending]

@[simp] theorem State.taskPush_pending (x0 : State) (x1 : Nat) : (State.taskPush x0 x1).pending = x0.pending := by
  grind [State.taskPush, State.notePush_pending, State.putJob_pending, State.setPond_pending]

@[simp] theorem State.containJob_pending (x0 : State) (x1 x2 : Nat) :
    (State.containJob x0 x1 x2).pending = x0.pending := by
  unfold State.containJob; (repeat' split) <;> simp

@[simp] theorem State.containPond_pending (x0 : State) (x1 : Nat) : (State.containPond x0 x1).pending = x0.pending := by
  unfold State.containPond; simp

@[simp] theorem State.pondFault_pending (x0 : State) (x1 x2 : Nat) :
    (State.pondFault x0 x1 x2).pending = x0.pending := by
  unfold State.pondFault; simp

@[simp] theorem State.taskPop_pending (x0 : State) (x1 : Nat) (x2 : Bool) :
    (State.taskPop x0 x1 x2).pending = x0.pending := by
  grind [State.taskPop, State.pondFault_pending, State.satInc_pending, State.setEngine_pending, State.setPond_pending,
      State.showBusy_pending, State.startReads_pending]

@[simp] theorem State.stealFrom_pending (x0 : State) (x1 : Nat) (x2 : Bool) (x3 : List Nat) :
    (State.stealFrom x0 x1 x2 x3).pending = x0.pending := by
  induction x3 generalizing x0 with
  | nil => rfl
  | cons i r ih => unfold State.stealFrom; dsimp only; (repeat' split) <;> simp [ih]

@[simp] theorem State.stealVisit_pending (x0 : State) (x1 : Nat) (x2 : Bool) :
    (State.stealVisit x0 x1 x2).pending = x0.pending := by
  unfold State.stealVisit; simp [apply_ite State.pending]

@[simp] theorem State.fenceEngine_pending (x0 : State) (x1 x2 : Nat) :
    (State.fenceEngine x0 x1 x2).pending = x0.pending := by
  grind [State.fenceEngine, State.count_pending, State.dropReads_pending, State.raise_pending, State.report_pending,
      State.satInc_pending, State.set_pending, State.setEngState_pending, State.setEngine_pending]

@[simp] theorem State.taskDeadline_pending (x0 : State) (x1 : Nat) (x2 : Bool) :
    (State.taskDeadline x0 x1 x2).pending = x0.pending := by
  unfold State.taskDeadline; simp [apply_ite State.pending]

@[simp] theorem State.afterFail_pending (x0 : State) (x1 : Job) (x2 : Bool) :
    (State.afterFail x0 x1 x2).1.pending = x0.pending := by
  unfold State.afterFail; (repeat' split) <;> simp

@[simp] theorem State.failUnit_pending (x0 : State) (x1 : Job) (x2 : Nat) (x3 : Status) (x4 : Nat) :
    (State.failUnit x0 x1 x2 x3 x4).1.pending = x0.pending := by
  unfold State.failUnit; simp

@[simp] theorem State.settleUnit_pending (x0 : State) (x1 : Job) (x2 : UnitRun) :
    (State.settleUnit x0 x1 x2).1.pending = x0.pending := by
  grind [State.settleUnit, State.unitDone_pending]

@[simp] theorem State.endUnit_pending (x0 : TaskIo) (x1 : Job) (x2 : UnitRun) :
    (State.endUnit x0 x1 x2).1.pending = x0.st.pending := by
  unfold State.endUnit; simp

@[simp] theorem State.planPlace_pending (x0 : State) (x1 : Job) (x2 : Nat) (x3 : List Byte × Bool) :
    (State.planPlace x0 x1 x2 x3).1.pending = x0.pending := by
  grind [State.planPlace, State.dropTokens_pending, State.endUnit_pending, State.stopJob_pending,
      TaskIo.engine_pending, TaskIo.write_pending]

@[simp] theorem State.planDrain_pending (x0 : Nat) (x1 : State) (x2 : Job) (x3 : Nat) :
    (State.planDrain x0 x1 x2 x3).1.pending = x1.pending := by
  induction x0 generalizing x1 x2 with
  | zero => rfl
  | succ n ih => unfold State.planDrain; dsimp only; (repeat' split) <;> simp [ih]

@[simp] theorem State.abandon_pending (x0 : State) (x1 : Token) : (State.abandon x0 x1).pending = x0.pending := by
  unfold State.abandon; (repeat' split) <;> simp_all

@[simp] theorem State.requeue_pending (x0 : State) (x1 : Nat) (x2 : Running) :
    (State.requeue x0 x1 x2).pending = x0.pending := by
  grind [State.requeue, State.abandon_pending, State.putJob_pending, State.setPond_pending, State.wrapInc_pending]

@[simp] theorem State.fenceRequeue_pending (x0 : State) (x1 : Nat) :
    (State.fenceRequeue x0 x1).pending = x0.pending := by
  unfold State.fenceRequeue
  (repeat' first | rfl | assumption | split | intro _ _
                 | rw [foldl_pending] | rw [foldl_fst_pending] | rw [foldl_io_pending] | rw [foldl_walk_pending] | simp)

@[simp] theorem State.goOffline_pending (x0 : State) (x1 : Nat) : (State.goOffline x0 x1).pending = x0.pending := by
  unfold State.goOffline; simp

@[simp] theorem State.beginTest_pending (x0 : State) (x1 : Nat) : (State.beginTest x0 x1).pending = x0.pending := by
  unfold State.beginTest; simp [apply_ite State.pending]

@[simp] theorem State.dueTest_pending (x0 : State) (x1 : Nat) : (State.dueTest x0 x1).pending = x0.pending := by
  unfold State.dueTest; simp [apply_ite State.pending]

@[simp] theorem State.testOffline_pending (x0 : State) (x1 : Nat) : (State.testOffline x0 x1).pending = x0.pending := by
  grind [State.testOffline, State.dueTest_pending, State.wakeDom_pending]

@[simp] theorem State.testFenced_pending (x0 : State) (x1 : Nat) : (State.testFenced x0 x1).pending = x0.pending := by
  unfold State.testFenced; simp [apply_ite State.pending]

@[simp] theorem State.selftestStart_pending (x0 : State) (x1 : Nat) :
    (State.selftestStart x0 x1).pending = x0.pending := by
  unfold State.selftestStart; simp [apply_ite State.pending]

@[simp] theorem State.drainEngine_pending (x0 : State) (x1 : Nat) : (State.drainEngine x0 x1).pending = x0.pending := by
  unfold State.drainEngine; simp [apply_ite State.pending]

@[simp] theorem State.actOff_pending (x0 : State) (x1 : Nat) : (State.actOff x0 x1).pending = x0.pending := by
  unfold State.actOff; simp [apply_ite State.pending]

@[simp] theorem State.retryOff_pending (x0 : State) : (State.retryOff x0).pending = x0.pending := by
  unfold State.retryOff; simp [apply_ite State.pending]

@[simp] theorem State.engineOn_pending (x0 : State) (x1 : Nat) : (State.engineOn x0 x1).pending = x0.pending := by
  unfold State.engineOn; simp [apply_ite State.pending]

@[simp] theorem State.actOn_pending (x0 : State) (x1 : Nat) : (State.actOn x0 x1).pending = x0.pending := by
  unfold State.actOn; simp [apply_ite State.pending]

@[simp] theorem State.domainsOn_pending (x0 : State) : (State.domainsOn x0).pending = x0.pending := by
  unfold State.domainsOn
  (repeat' first | rfl | assumption | split | intro _ _
                 | rw [foldl_pending] | rw [foldl_fst_pending] | rw [foldl_io_pending] | rw [foldl_walk_pending] | simp)

@[simp] theorem State.selftestDone_pending (x0 : State) (x1 : Nat) (x2 : Bool) :
    (State.selftestDone x0 x1 x2).pending = x0.pending := by
  grind [State.selftestDone, State.drainEngine_pending, State.engineDown_pending, State.goOffline_pending,
      State.offlineCheck_pending, State.raise_pending, State.retryOff_pending, State.set_pending,
      State.setEngState_pending, State.setEngine_pending]

@[simp] theorem State.offlineReq_pending (x0 : State) (x1 : Nat) (x2 : Bool) :
    (State.offlineReq x0 x1 x2).pending = x0.pending := by
  unfold State.offlineReq; simp [apply_ite State.pending]

@[simp] theorem State.selftestReq_pending (x0 : State) (x1 : Nat) : (State.selftestReq x0 x1).pending = x0.pending := by
  unfold State.selftestReq; simp [apply_ite State.pending]

@[simp] theorem State.offReq_pending (x0 : State) (x1 : Nat) (x2 : Bool) :
    (State.offReq x0 x1 x2).pending = x0.pending := by
  unfold State.offReq; simp [apply_ite State.pending]

@[simp] theorem State.engineWoken_pending (x0 : State) (x1 : Nat) : (State.engineWoken x0 x1).pending = x0.pending := by
  unfold State.engineWoken; simp [apply_ite State.pending]

@[simp] theorem State.domainWoken_pending (x0 : State) (x1 : Nat) : (State.domainWoken x0 x1).pending = x0.pending := by
  unfold State.domainWoken; (repeat' split) <;> simp

@[simp] theorem State.pondOff_pending (x0 : State) (x1 : Nat) : (State.pondOff x0 x1).pending = x0.pending := by
  unfold State.pondOff; simp [apply_ite State.pending]

@[simp] theorem State.endFail_pending (x0 : TaskIo) (x1 : Job) (x2 : Nat) (x3 : Status) (x4 : Nat) :
    (State.endFail x0 x1 x2 x3 x4).1.pending = x0.st.pending := by
  unfold State.endFail; simp

@[simp] theorem State.copyUnit_pending (x0 : State) (x1 : Job) (x2 x3 : Nat) (x4 : List Fetched) :
    (State.copyUnit x0 x1 x2 x3 x4).1.pending = x0.pending := by
  grind [State.copyUnit, State.endFail_pending, State.endUnit_pending, TaskIo.engine_pending, TaskIo.read_pending,
      TaskIo.write_pending]

@[simp] theorem State.recDigest_pending (x0 : State) (x1 : Job) : (State.recDigest x0 x1).pending = x0.pending := by
  unfold State.recDigest; simp

@[simp] theorem State.digestDone_pending (x0 : TaskIo) (x1 : Job) (x2 : List Byte) :
    (State.digestDone x0 x1 x2).1.pending = x0.st.pending := by
  grind [State.digestDone, State.endFail_pending, State.writeOut_pending, TaskIo.read_pending]

@[simp] theorem State.digestSegment_pending (x0 : State) (x1 : Job) (x2 x3 : Nat) (x4 : List Fetched) :
    (State.digestSegment x0 x1 x2 x3 x4).1.pending = x0.pending := by
  grind [State.digestSegment, State.digestDone_pending, State.endFail_pending, State.recDigest_pending,
      TaskIo.engine_pending, TaskIo.read_pending]

@[simp] theorem State.encodeBytes_pending (x0 : State) (x1 : Job) (x2 x3 : Nat) (x4 : List Fetched) :
    (State.encodeBytes x0 x1 x2 x3 x4).1.st.pending = x0.pending := by
  unfold State.encodeBytes; (repeat' split) <;> simp

@[simp] theorem State.encodeStripe_pending (x0 : State) (x1 : Job) (x2 : Token) (x3 : Nat) (x4 : List Fetched) :
    (State.encodeStripe x0 x1 x2 x3 x4).1.pending = x0.pending := by
  unfold State.encodeStripe; dsimp only; split
  · rename_i h; have := congrArg (fun p => p.1.st.pending) h; simp at this; simp [← this]
  · rename_i h; have := congrArg (fun p => p.1.st.pending) h; simp at this
    simp [← this]

@[simp] theorem State.vaeMismatch_pending (x0 : State) (x1 : Job) (x2 : Token) (x3 : UnitRun) (x4 : Nat) :
    (State.vaeMismatch x0 x1 x2 x3 x4).pending = x0.pending := by
  grind [State.vaeMismatch, State.abandon_pending, State.fenceEngine_pending, State.orphanReads_pending,
      State.putJob_pending, State.raise_pending, State.satInc_pending, State.setPond_pending]

@[simp] theorem State.verifyStripe_pending (x0 : State) (x1 : Job) (x2 : Token) (x3 : Nat) (x4 : List Fetched) :
    (State.verifyStripe x0 x1 x2 x3 x4).pending = x0.pending := by
  grind [State.verifyStripe, State.encodeBytes_pending, State.endFail_pending, State.putJob_pending,
      State.settleUnit_pending, State.vaeMismatch_pending, State.wrapInc_pending]

@[simp] theorem StripeIn.add_pending (x : Stripe) (j : Job) (a : StripeIn) (c : Nat) :
    (StripeIn.add x j a c).io.st.pending = a.io.st.pending := by
  unfold StripeIn.add; simp

theorem StripeIn.foldl_pending (x : Stripe) (j : Job) (l : List Nat) (a : StripeIn) :
    (l.foldl (StripeIn.add x j) a).io.st.pending = a.io.st.pending :=
  foldl_same (fun a : StripeIn => a.io.st.pending) _ (fun a c => StripeIn.add_pending x j a c) l a

@[simp] theorem State.decodeOut_pending (j : Job) (x : Stripe) (a : StripeIn) (acc : TaskIo × UnitRun) :
    (State.decodeOut j x a acc).1.st.pending = acc.1.st.pending := by
  unfold State.decodeOut; dsimp only; split
  · simp
  · rw [foldl_io_pending]; intro b c; simp

@[simp] theorem State.decodeStripe_pending (x0 : State) (x1 : Job) (x2 x3 : Nat) (x4 : List Fetched) :
    (State.decodeStripe x0 x1 x2 x3 x4).1.pending = x0.pending := by
  unfold State.decodeStripe; dsimp only; (repeat' split) <;> simp [StripeIn.foldl_pending]

@[simp] theorem State.planBatch_pending (x0 : State) (x1 : Job) (x2 x3 : Nat) (x4 : List Fetched) :
    (State.planBatch x0 x1 x2 x3 x4).1.pending = x0.pending := by
  unfold State.planBatch
  extract_lets io step
  have hs : ∀ b v, (step b v).1.st.pending = b.1.st.pending := by
    intro b v; simp only [step]; split <;> simp
  have h := foldl_io_pending step hs ((List.range (x1.batch x2)).map (x2 + ·)) (io, x1, [])
  split
  rename_i heq; rw [heq] at h; rw [State.planDrain_pending]; exact h

@[simp] theorem State.runTask_pending (x0 : State) (x1 : Job) (x2 : Token) (x3 : Nat) (x4 : List Fetched) :
    (State.runTask x0 x1 x2 x3 x4).pending = x0.pending := by
  grind [State.runTask, State.copyUnit_pending, State.decodeStripe_pending, State.digestSegment_pending,
      State.encodeStripe_pending, State.planBatch_pending, State.putJob_pending, State.verifyStripe_pending]

@[simp] theorem State.staleJob_pending (x0 : State) (x1 : Nat) : (State.staleJob x0 x1).pending = x0.pending := by
  unfold State.staleJob; simp

@[simp] theorem State.taskTaken_pending (x0 : State) (x1 : Nat) (x2 : Running) (x3 : List Fetched) :
    (State.taskTaken x0 x1 x2 x3).pending = x0.pending := by
  grind [State.taskTaken, State.count_pending, State.dropReads_pending, State.offlineCheck_pending,
      State.runTask_pending, State.setEngine_pending, State.showBusy_pending, State.staleJob_pending,
      State.wrapInc_pending]

@[simp] theorem State.lateResult_pending (x0 : State) (x1 : Nat) (x2 : Bool) (x3 : TaskId) (x4 : Nat) :
    (State.lateResult x0 x1 x2 x3 x4).pending = x0.pending := by
  grind [State.lateResult, State.satInc_pending, State.setEngine_pending, State.staleJob_pending]

@[simp] theorem State.taskResult_pending (x0 : State) (x1 : Nat) (x2 : Bool) (x3 : TaskId) (x4 : Nat) (x5 : List
    Fetched) :
    (State.taskResult x0 x1 x2 x3 x4 x5).pending = x0.pending := by
  grind [State.taskResult, State.lateResult_pending, State.taskTaken_pending]

@[simp] theorem State.flushFailed_pending (x0 : State) (x1 : Job) (x2 : Nat) (x3 : Bool) (x4 : Nat) :
    (State.flushFailed x0 x1 x2 x3 x4).pending = x0.pending := by
  unfold State.flushFailed; (repeat' split) <;> simp

@[simp] theorem State.unitDurable_pending (x0 : State) (x1 x2 x3 : Nat) (x4 : Option Bool) :
    (State.unitDurable x0 x1 x2 x3 x4).pending = x0.pending := by
  grind [State.unitDurable, State.flushFailed_pending, State.flushRanges_pending, State.putJob_pending,
      State.settleSeal_pending, State.settleUnit_pending, State.unitDone_pending]

@[simp] theorem State.doorbell_pending (x0 : State) (x1 x2 : Nat) (x3 : State → Nat → State) (h_x3 : ∀ a0 a1, (x3 a0
    a1).pending = a0.pending) :
    (State.doorbell x0 x1 x2 x3).pending = x0.pending := by
  unfold State.doorbell; (repeat' split) <;> simp_all

@[simp] theorem State.doorbellError_pending (x0 : State) (x1 : Nat) :
    (State.doorbellError x0 x1).pending = x0.pending := by
  grind [State.doorbellError, State.raise_pending, State.set_pending]

@[simp] theorem State.sqTail_pending (x0 : State) (x1 x2 : Nat) : (State.sqTail x0 x1 x2).pending = x0.pending := by
  unfold State.sqTail; simp [apply_ite State.pending]

@[simp] theorem State.cqHead_pending (x0 : State) (x1 x2 : Nat) : (State.cqHead x0 x1 x2).pending = x0.pending := by
  unfold State.cqHead; simp [apply_ite State.pending]

@[simp] theorem State.cqWrite_pending (x0 : State) (x1 : Nat) (x2 : Nat → List Byte) :
    (State.cqWrite x0 x1 x2).pending = x0.pending := by
  unfold State.cqWrite; simp [apply_ite State.pending]

@[simp] theorem State.ringMessage_pending (x0 : State) (x1 : Nat) : (State.ringMessage x0 x1).pending = x0.pending := by
  unfold State.ringMessage
  (repeat' first | rfl | assumption | split | intro _ _
                 | rw [foldl_pending] | rw [foldl_fst_pending] | rw [foldl_io_pending] | rw [foldl_walk_pending] | simp)

@[simp] theorem State.cqSignal_pending (x0 : State) (x1 : Nat) (x2 : Bool) :
    (State.cqSignal x0 x1 x2).pending = x0.pending := by
  unfold State.cqSignal; simp [apply_ite State.pending]

@[simp] theorem State.ringsSent_pending (x0 : State) (x1 x2 : Nat) :
    (State.ringsSent x0 x1 x2).pending = x0.pending := by
  unfold State.ringsSent; simp

@[simp] theorem State.recComplete_pending (x0 : State) (x1 x2 x3 : Nat) :
    (State.recComplete x0 x1 x2 x3).pending = x0.pending := by
  unfold State.recComplete; simp

@[simp] theorem State.completeJob_pending (x0 : State) (x1 : Job) : (State.completeJob x0 x1).pending = x0.pending := by
  unfold State.completeJob; simp [apply_ite State.pending]

@[simp] theorem State.jobComplete_pending (x0 : State) (x1 x2 : Nat) :
    (State.jobComplete x0 x1 x2).pending = x0.pending := by
  unfold State.jobComplete; (repeat' split) <;> simp

@[simp] theorem State.coalExpire_pending (x0 : State) (x1 : Nat) : (State.coalExpire x0 x1).pending = x0.pending := by
  unfold State.coalExpire; simp [apply_ite State.pending]

@[simp] theorem State.sealStart_pending (x0 : State) (x1 x2 : Nat) :
    (State.sealStart x0 x1 x2).pending = x0.pending := by
  grind [State.sealStart, State.closeBatch_pending, State.condition_pending, State.issueOne_pending,
      State.putJob_pending, State.raiseEpoch_pending, State.satInc_pending]

@[simp] theorem State.fencePass_pending (x0 : State) (x1 x2 : Nat) :
    (State.fencePass x0 x1 x2).pending = x0.pending := by
  grind [State.fencePass, State.issueOne_pending, State.putJob_pending, State.unitDone_pending]

@[simp] theorem State.entryAdd_pending (x0 : State) (x1 x2 : Nat) (x3 : Bool) :
    (State.entryAdd x0 x1 x2 x3).pending = x0.pending := by
  unfold State.entryAdd; (repeat' split) <;> simp

@[simp] theorem State.sluice_pending (x0 : State) (x1 : Nat) (x2 : Packet → Bool) :
    (State.sluice x0 x1 x2).pending = x0.pending := by
  grind [State.sluice, State.packPump_pending, State.setPack_pending]

@[simp] theorem State.abortUnits_pending (x0 : State) (x1 : Job) : (State.abortUnits x0 x1).pending = x0.pending := by
  unfold State.abortUnits; simp

@[simp] theorem State.cancelMiss_pending (x0 : State) (x1 : Nat) : (State.cancelMiss x0 x1).pending = x0.pending := by
  unfold State.cancelMiss; simp

@[simp] theorem State.cancelJob_pending (x0 : State) (x1 x2 x3 : Nat) :
    (State.cancelJob x0 x1 x2 x3).pending = x0.pending := by
  grind [State.cancelJob, State.abortUnits_pending, State.cancelMiss_pending, State.putJob_pending,
      State.showRing_pending, State.stopJob_pending]

@[simp] theorem State.cancelWrite_pending (x0 : State) (x1 x2 x3 : Nat) :
    (State.cancelWrite x0 x1 x2 x3).pending = x0.pending := by
  unfold State.cancelWrite; simp [apply_ite State.pending]

@[simp] theorem State.completeInterrupted_pending (x0 : State) (x1 x2 : Nat) :
    (State.completeInterrupted x0 x1 x2).pending = x0.pending := by
  unfold State.completeInterrupted; simp [apply_ite State.pending]

@[simp] theorem State.writeInterrupted_pending (x0 : State) (x1 : Nat) :
    (State.writeInterrupted x0 x1).pending = x0.pending := by
  unfold State.writeInterrupted; simp

@[simp] theorem State.ringEnable_pending (x0 : State) (x1 x2 : Nat) (x3 : Bool) :
    (State.ringEnable x0 x1 x2 x3).pending = x0.pending := by
  unfold State.ringEnable; simp [apply_ite State.pending]

@[simp] theorem State.ringReject_pending (x0 : State) (x1 : Nat) : (State.ringReject x0 x1).pending = x0.pending := by
  grind [State.ringReject, State.raise_pending, State.set_pending]

@[simp] theorem State.ringCold_pending (x0 : State) (x1 : Nat) (x2 : List FN) :
    (State.ringCold x0 x1 x2).pending = x0.pending := by
  unfold State.ringCold; simp

@[simp] theorem State.ringFresh_pending (x0 : State) (x1 : Nat) : (State.ringFresh x0 x1).pending = x0.pending := by
  unfold State.ringFresh; simp

@[simp] theorem State.ringReset_pending (x0 : State) (x1 x2 : Nat) :
    (State.ringReset x0 x1 x2).pending = x0.pending := by
  unfold State.ringReset; simp [apply_ite State.pending]

@[simp] theorem State.ringDropInt_pending (x0 : State) (x1 x2 : Nat) :
    (State.ringDropInt x0 x1 x2).pending = x0.pending := by
  unfold State.ringDropInt; simp [apply_ite State.pending]

@[simp] theorem State.ringFlr_pending (x0 : State) (x1 : Nat) : (State.ringFlr x0 x1).pending = x0.pending := by
  unfold State.ringFlr; simp

@[simp] theorem State.funcPciReset_pending (x0 : State) (x1 : Nat) :
    (State.funcPciReset x0 x1).pending = x0.pending := by
  unfold State.funcPciReset; dsimp only; (repeat' split) <;> simp

@[simp] theorem State.resetFunc_pending (x0 : State) (x1 : Nat) : (State.resetFunc x0 x1).pending = x0.pending := by
  unfold State.resetFunc
  (repeat' first | rfl | assumption | split | intro _ _
                 | rw [foldl_pending] | rw [foldl_fst_pending] | rw [foldl_io_pending] | rw [foldl_walk_pending] | simp)

@[simp] theorem State.flr_pending (x0 : State) (x1 : Nat) : (State.flr x0 x1).pending = x0.pending := by
  unfold State.flr; (repeat' split) <;> simp_all <;> grind [State.flr, State.raise_pending, State.resetFunc_pending,
      State.set_pending]

@[simp] theorem State.haltJobs_pending (x0 : State) : (State.haltJobs x0).pending = x0.pending := by
  unfold State.haltJobs; simp

@[simp] theorem State.stopJobs_pending (x0 : State) (x1 : Status) (x2 : Nat) (x3 : Job → Bool) :
    (State.stopJobs x0 x1 x2 x3).pending = x0.pending := by
  unfold State.stopJobs; rw [foldl_pending]; intro b x; simp

@[simp] theorem State.dropJobs_pending (x0 : State) : (State.dropJobs x0).pending = x0.pending := by
  unfold State.dropJobs; simp

@[simp] theorem State.thermalAborts_pending (x0 : State) : (State.thermalAborts x0).pending = x0.pending := by
  unfold State.thermalAborts; simp [apply_ite State.pending]

@[simp] theorem State.enginesOff_pending (x0 : State) : (State.enginesOff x0).pending = x0.pending := by
  unfold State.enginesOff; simp [apply_ite State.pending]

@[simp] theorem State.fabricOff_pending (x0 : State) : (State.fabricOff x0).pending = x0.pending := by
  unfold State.fabricOff; simp

@[simp] theorem State.shadowSet_pending (x0 : State) (x1 : Nat) : (State.shadowSet x0 x1).pending = x0.pending := by
  unfold State.shadowSet; simp [apply_ite State.pending]

@[simp] theorem State.deriveHeld_pending (x0 : State) : (State.deriveHeld x0).pending = x0.pending := by
  unfold State.deriveHeld; simp [apply_ite State.pending]

@[simp] theorem State.setConn_pending (x0 : State) (x1 : Transport) (x2 : SpdmConn) :
    (State.setConn x0 x1 x2).pending = x0.pending := by
  unfold State.setConn; simp

@[simp] theorem State.doeReply_pending (x0 : State) (x1 : Nat) (x2 : List Byte) (x3 : Out) :
    (State.doeReply x0 x1 x2 x3).pending = x0.pending := by
  unfold State.doeReply; simp [apply_ite State.pending]

@[simp] theorem State.spdmOut_pending (x0 : State) (x1 : Transport) (x2 : List Byte) :
    (State.spdmOut x0 x1 x2).pending = x0.pending := by
  unfold State.spdmOut; (repeat' split) <;> simp

@[simp] theorem State.spdmSend_pending (x0 : State) (x1 : Transport) (x2 : Nat) (x3 : List Byte) :
    (State.spdmSend x0 x1 x2 x3).pending = x0.pending := by
  unfold State.spdmSend; simp

@[simp] theorem State.spdmError_pending (x0 : State) (x1 : Transport) (x2 : Nat) :
    (State.spdmError x0 x1 x2).pending = x0.pending := by
  unfold State.spdmError; simp

@[simp] theorem State.spdmServe_pending (x0 : State) (x1 : Transport) (x2 : State → State) (h_x2 : ∀ a0, (x2
    a0).pending = a0.pending) :
    (State.spdmServe x0 x1 x2).pending = x0.pending := by
  unfold State.spdmServe; (repeat' split) <;> simp_all

@[simp] theorem State.spdmNegotiated_pending (x0 : State) (x1 : Transport) (x2 : State → State) (h_x2 : ∀ a0, (x2
    a0).pending = a0.pending) :
    (State.spdmNegotiated x0 x1 x2).pending = x0.pending := by
  grind [State.spdmNegotiated, State.spdmError_pending, State.spdmServe_pending]

@[simp] theorem State.spdmKeyed_pending (x0 : State) (x1 : Transport) (x2 : State → State) (h_x2 : ∀ a0, (x2
    a0).pending = a0.pending) :
    (State.spdmKeyed x0 x1 x2).pending = x0.pending := by
  grind [State.spdmKeyed, State.spdmError_pending, State.spdmNegotiated_pending]

@[simp] theorem State.spdmVersion_pending (x0 : State) (x1 : Transport) :
    (State.spdmVersion x0 x1).pending = x0.pending := by
  unfold State.spdmVersion; simp [apply_ite State.pending]

@[simp] theorem State.spdmCapabilities_pending (x0 : State) (x1 : Transport) (x2 : Nat) :
    (State.spdmCapabilities x0 x1 x2).pending = x0.pending := by
  unfold State.spdmCapabilities; simp [apply_ite State.pending]

@[simp] theorem State.spdmAlgorithms_pending (x0 : State) (x1 : Transport) (x2 : Bool) :
    (State.spdmAlgorithms x0 x1 x2).pending = x0.pending := by
  unfold State.spdmAlgorithms; simp [apply_ite State.pending]

@[simp] theorem State.spdmDigests_pending (x0 : State) (x1 : Transport) :
    (State.spdmDigests x0 x1).pending = x0.pending := by
  unfold State.spdmDigests; simp [apply_ite State.pending]

@[simp] theorem State.getCertificate_pending (x0 : State) (x1 : Transport) (x2 x3 x4 : Nat) :
    (State.getCertificate x0 x1 x2 x3 x4).pending = x0.pending := by
  unfold State.getCertificate; simp [apply_ite State.pending]

@[simp] theorem State.spdmSign_pending (x0 : State) (x1 : Transport) (x2 : Nat) (x3 : List Byte) :
    (State.spdmSign x0 x1 x2 x3).pending = x0.pending := by
  unfold State.spdmSign; simp

@[simp] theorem State.challenge_pending (x0 : State) (x1 : Transport) (x2 : Nat) (x3 : List Byte) :
    (State.challenge x0 x1 x2 x3).pending = x0.pending := by
  unfold State.challenge; simp [apply_ite State.pending]

@[simp] theorem State.getMeasurements_pending (x0 : State) (x1 : Transport) (x2 : Nat) (x3 : Bool) (x4 : List Byte) :
    (State.getMeasurements x0 x1 x2 x3 x4).pending = x0.pending := by
  unfold State.getMeasurements; simp [apply_ite State.pending]

@[simp] theorem State.keyExchange_pending (x0 : State) (x1 : Transport) (x2 x3 : Nat) (x4 : List Byte) :
    (State.keyExchange x0 x1 x2 x3 x4).pending = x0.pending := by
  unfold State.keyExchange; apply State.spdmKeyed_pending; intro s; dsimp only; (repeat' split) <;> simp

@[simp] theorem State.inSession_pending (x0 : State) (x1 : Transport) (x2 : Nat) (x3 : State → SpdmSession → State)
    (h_x3 : ∀ a0 a1, (x3 a0 a1).pending = a0.pending) :
    (State.inSession x0 x1 x2 x3).pending = x0.pending := by
  grind [State.inSession, State.spdmError_pending, State.spdmServe_pending]

@[simp] theorem State.putSession_pending (x0 : State) (x1 : SpdmSession) :
    (State.putSession x0 x1).pending = x0.pending := by
  unfold State.putSession; simp

@[simp] theorem State.dropSessions_pending (x0 : State) (x1 : SpdmSession → Bool) :
    (State.dropSessions x0 x1).pending = x0.pending := by
  unfold State.dropSessions; simp

@[simp] theorem State.spdmFinish_pending (x0 : State) (x1 : Transport) (x2 : Nat) (x3 : List Byte) :
    (State.spdmFinish x0 x1 x2 x3).pending = x0.pending := by
  unfold State.spdmFinish; simp [apply_ite State.pending]

@[simp] theorem State.inSecure_pending (x0 : State) (x1 : Transport) (x2 : Nat) (x3 : State → SpdmSession → State)
    (h_x3 : ∀ a0 a1, (x3 a0 a1).pending = a0.pending) :
    (State.inSecure x0 x1 x2 x3).pending = x0.pending := by
  grind [State.inSecure, State.inSession_pending, State.spdmError_pending]

@[simp] theorem State.spdmKeyUpdate_pending (x0 : State) (x1 : Transport) (x2 : Nat) :
    (State.spdmKeyUpdate x0 x1 x2).pending = x0.pending := by
  unfold State.spdmKeyUpdate; simp [apply_ite State.pending]

@[simp] theorem State.spdmEndSession_pending (x0 : State) (x1 : Transport) (x2 : Nat) :
    (State.spdmEndSession x0 x1 x2).pending = x0.pending := by
  unfold State.spdmEndSession; simp [apply_ite State.pending]

@[simp] theorem State.spdmChunk_pending (x0 : State) (x1 : Transport) (x2 : List Byte) :
    (State.spdmChunk x0 x1 x2).pending = x0.pending := by
  unfold State.spdmChunk; simp [apply_ite State.pending]

@[simp] theorem State.spdmChunkGet_pending (x0 : State) (x1 : Transport) (x2 : Nat) :
    (State.spdmChunkGet x0 x1 x2).pending = x0.pending := by
  unfold State.spdmChunkGet; simp [apply_ite State.pending]

@[simp] theorem State.setStream_pending (x0 : State) (x1 : Nat) (x2 : IdeStream) :
    (State.setStream x0 x1 x2).pending = x0.pending := by
  unfold State.setStream; simp

@[simp] theorem State.ideKm_pending (x0 : State) (x1 : Transport) (x2 : Option Nat) (x3 : State → State) (x4 x5 : Nat)
    (h_x3 : ∀ a0, (x3 a0).pending = a0.pending) :
    (State.ideKm x0 x1 x2 x3 x4 x5).pending = x0.pending := by
  grind [State.ideKm, State.spdmError_pending, State.spdmServe_pending]

@[simp] theorem State.spdmVendor_pending (x0 : State) (x1 : Transport) (x2 : Option Nat) (x3 : Bool) :
    (State.spdmVendor x0 x1 x2 x3).pending = x0.pending := by
  unfold State.spdmVendor; simp [apply_ite State.pending]

@[simp] theorem State.ideKeyProg_pending (x0 : State) (x1 : Transport) (x2 : Option Nat) (x3 x4 x5 : Nat) (x6 : List
    Byte) :
    (State.ideKeyProg x0 x1 x2 x3 x4 x5 x6).pending = x0.pending := by
  unfold State.ideKeyProg; simp [apply_ite State.pending]

@[simp] theorem State.ideSetGo_pending (x0 : State) (x1 : Transport) (x2 : Option Nat) (x3 x4 : Nat) :
    (State.ideSetGo x0 x1 x2 x3 x4).pending = x0.pending := by
  unfold State.ideSetGo; simp [apply_ite State.pending]

@[simp] theorem State.ideSetStop_pending (x0 : State) (x1 : Transport) (x2 : Option Nat) (x3 x4 : Nat) :
    (State.ideSetStop x0 x1 x2 x3 x4).pending = x0.pending := by
  unfold State.ideSetStop; simp [apply_ite State.pending]

@[simp] theorem State.ideQuery_pending (x0 : State) (x1 : Transport) (x2 : Option Nat) :
    (State.ideQuery x0 x1 x2).pending = x0.pending := by
  unfold State.ideQuery; simp [apply_ite State.pending]

@[simp] theorem State.asSecured_pending (x0 : State) (x1 : Transport) (x2 : Option Nat) :
    (State.asSecured x0 x1 x2).pending = x0.pending := by
  unfold State.asSecured
  (repeat' first | rfl | assumption | split | intro _ _
                 | rw [foldl_pending] | rw [foldl_fst_pending] | rw [foldl_io_pending] | rw [foldl_walk_pending] | simp)

@[simp] theorem State.spdmRun_pending (x0 : State) (x1 : Transport) (x2 : SpdmReq) :
    (State.spdmRun x0 x1 x2).pending = x0.pending := by
  unfold State.spdmRun; (repeat' split) <;> simp

@[simp] theorem State.spdmDrain_pending (x0 : State) (x1 : Nat) : (State.spdmDrain x0 x1).pending = x0.pending := by
  induction x1 generalizing x0 with
  | zero => rfl
  | succ n ih => unfold State.spdmDrain; (repeat' split) <;> simp [ih]

@[simp] theorem State.spdmQueue_pending (x0 : State) (x1 : List (Transport × SpdmReq)) :
    (State.spdmQueue x0 x1).pending = x0.pending := by
  unfold State.spdmQueue; simp [apply_ite State.pending]

@[simp] theorem State.spdmRequest_pending (x0 : State) (x1 : Transport) (x2 : SpdmReq) :
    (State.spdmRequest x0 x1 x2).pending = x0.pending := by
  unfold State.spdmRequest; simp [apply_ite State.pending]

@[simp] theorem State.chunksTaken_pending (x0 : State) (x1 : Transport) (x2 : Option SpdmReq) :
    (State.chunksTaken x0 x1 x2).pending = x0.pending := by
  unfold State.chunksTaken; simp [apply_ite State.pending]

@[simp] theorem State.batchesWait_pending (x0 : State) : (State.batchesWait x0).pending = x0.pending := by
  unfold State.batchesWait; simp

@[simp] theorem State.signSpdm_pending (x0 : State) : (State.signSpdm x0).pending = x0.pending := by
  grind [State.signSpdm, State.batchesWait_pending, State.count_pending, State.draw_pending, State.spdmError_pending,
      State.spdmQueue_pending, State.spdmSend_pending]

@[simp] theorem State.signOne_pending (x0 : State) (x1 : Nat) (x2 : Bool) :
    (State.signOne x0 x1 x2).pending = x0.pending := by
  grind [State.signOne, State.putJob_pending, State.signBatch_pending, State.writeOut_pending]

@[simp] theorem State.readFailed_pending (x0 : State) (x1 : TagUse) :
    (State.readFailed x0 x1).pending = x0.pending := by
  unfold State.readFailed; (repeat' split) <;> simp

@[simp] theorem State.streamReadsFail_pending (x0 : State) (x1 : Nat) :
    (State.streamReadsFail x0 x1).pending = x0.pending := by
  unfold State.streamReadsFail; simp

@[simp] theorem State.streamInsecure_pending (x0 : State) (x1 : Nat) :
    (State.streamInsecure x0 x1).pending = x0.pending := by
  unfold State.streamInsecure
  (repeat' first | rfl | assumption | split | intro _ _
                 | rw [foldl_pending] | rw [foldl_fst_pending] | rw [foldl_io_pending] | rw [foldl_walk_pending] | simp)

@[simp] theorem State.ideFail_pending (x0 : State) (x1 x2 : Nat) : (State.ideFail x0 x1 x2).pending = x0.pending := by
  grind [State.ideFail, State.aerUncorrectable_pending, State.report_pending, State.streamInsecure_pending]

@[simp] theorem State.tlpGuard_pending (x0 : State) (x1 : Nat) (x2 : Bool) (x3 : Tlp) (x4 : State → State) (h_x4 : ∀
    a0, (x4 a0).pending = a0.pending) :
    (State.tlpGuard x0 x1 x2 x3 x4).pending = x0.pending := by
  unfold State.tlpGuard; (repeat' split) <;> simp_all

@[simp] theorem State.setTarnWord_pending (x0 : State) (x1 x2 : Nat) :
    (State.setTarnWord x0 x1 x2).pending = x0.pending := by
  unfold State.setTarnWord; simp

@[simp] theorem State.tarnAccess_pending (x0 : State) (x1 : Nat) (x2 : Option (BitVec 64)) :
    (State.tarnAccess x0 x1 x2).pending = x0.pending := by
  unfold State.tarnAccess; (repeat' split) <;> simp

@[simp] theorem State.tarnCollision_pending (x0 : State) (x1 : Nat) (x2 x3 : Option (BitVec 64)) :
    (State.tarnCollision x0 x1 x2 x3).pending = x0.pending := by
  unfold State.tarnCollision; (repeat' split) <;> simp

@[simp] theorem State.clearSealRegs_pending (x0 : State) (x1 : Nat) :
    (State.clearSealRegs x0 x1).pending = x0.pending := by
  unfold State.clearSealRegs; simp

@[simp] theorem State.clearTarn_pending (x0 : State) : (State.clearTarn x0).pending = x0.pending := by
  unfold State.clearTarn; simp

@[simp] theorem State.wipe_pending (x0 : State) : (State.wipe x0).pending = x0.pending := by
  unfold State.wipe; simp [apply_ite State.pending]

@[simp] theorem State.showStale_pending (x0 : State) (x1 : Nat) : (State.showStale x0 x1).pending = x0.pending := by
  unfold State.showStale; simp

@[simp] theorem State.showHeld_pending (x0 : State) (x1 : Nat) : (State.showHeld x0 x1).pending = x0.pending := by
  unfold State.showHeld; simp

@[simp] theorem State.showHeldLayers_pending (x0 : State) (x1 : Nat) :
    (State.showHeldLayers x0 x1).pending = x0.pending := by
  unfold State.showHeldLayers; simp

@[simp] theorem State.blowCell_pending (x0 : State) (x1 : Nat) : (State.blowCell x0 x1).pending = x0.pending := by
  unfold State.blowCell; simp

@[simp] theorem State.blow_pending (x0 : State) (x1 : Nat) : (State.blow x0 x1).pending = x0.pending := by
  unfold State.blow; simp

@[simp] theorem State.blowAll_pending (x0 : State) (x1 : List Nat) : (State.blowAll x0 x1).pending = x0.pending := by
  unfold State.blowAll; simp

@[simp] theorem State.senseRegion_pending (x0 : State) (x1 : List Nat) (x2 : Nat) :
    (State.senseRegion x0 x1 x2).pending = x0.pending := by
  unfold State.senseRegion; simp

@[simp] theorem State.senseShadows_pending (x0 : State) (x1 : List Nat) :
    (State.senseShadows x0 x1).pending = x0.pending := by
  unfold State.senseShadows; simp

@[simp] theorem State.decideLc_pending (x0 : State) : (State.decideLc x0).pending = x0.pending := by
  unfold State.decideLc; simp

@[simp] theorem State.applyRepairs_pending (x0 : State) : (State.applyRepairs x0).pending = x0.pending := by
  unfold State.applyRepairs; simp [apply_ite State.pending]

@[simp] theorem State.applyTrimLimits_pending (x0 : State) : (State.applyTrimLimits x0).pending = x0.pending := by
  unfold State.applyTrimLimits; simp [apply_ite State.pending]

@[simp] theorem State.senseOtp_pending (x0 : State) (x1 : List Nat) : (State.senseOtp x0 x1).pending = x0.pending := by
  unfold State.senseOtp; dsimp only; (repeat' split) <;> simp [apply_ite State.pending]

@[simp] theorem State.bistClear_pending (x0 : State) : (State.bistClear x0).pending = x0.pending := by
  unfold State.bistClear; simp

@[simp] theorem State.bistLog_pending (x0 : State) (x1 : Nat) (x2 : List BistFailure) :
    (State.bistLog x0 x1 x2).pending = x0.pending := by
  induction x2 generalizing x0 x1 with
  | nil => rfl
  | cons f fs ih => unfold State.bistLog; dsimp only; rw [ih]; split <;> simp

@[simp] theorem State.bistTestEnd_pending (x0 : State) (x1 : List BistFailure) (x2 : Nat) :
    (State.bistTestEnd x0 x1 x2).pending = x0.pending := by
  unfold State.bistTestEnd; simp

@[simp] theorem State.bistEffects_pending (x0 : State) (x1 : BistRun) :
    (State.bistEffects x0 x1).pending = x0.pending := by
  unfold State.bistEffects; simp [apply_ite State.pending]

@[simp] theorem State.bistDomain_pending (x0 : State) (x1 : Bool) : (State.bistDomain x0 x1).pending = x0.pending := by
  unfold State.bistDomain; simp [apply_ite State.pending]

@[simp] theorem State.bistHolds_pending (x0 : State) (x1 : BistRun) : (State.bistHolds x0 x1).pending = x0.pending := by
  unfold State.bistHolds
  (repeat' first | rfl | assumption | split | intro _ _
                 | rw [foldl_pending] | rw [foldl_fst_pending] | rw [foldl_io_pending] | rw [foldl_walk_pending] | simp)

@[simp] theorem State.bistCheck_pending (x0 : State) : (State.bistCheck x0).pending = x0.pending := by
  grind [State.bistCheck, State.bistDomain_pending, State.bistEffects_pending, State.bistHolds_pending,
      State.set_pending]

@[simp] theorem State.bistStart_pending (x0 : State) (x1 : BistRun) : (State.bistStart x0 x1).pending = x0.pending := by
  unfold State.bistStart; simp

@[simp] theorem State.bistEnd_pending (x0 : State) (x1 : BistReport) (x2 : Nat) :
    (State.bistEnd x0 x1 x2).pending = x0.pending := by
  unfold State.bistEnd; simp [apply_ite State.pending]; grind [State.bistEnd, State.bistDomain_pending,
      State.bistEffects_pending, State.bistHolds_pending, State.bistLog_pending, State.bistTestEnd_pending,
      State.raise_pending, State.set_pending]

@[simp] theorem State.bistAbort_pending (x0 : State) : (State.bistAbort x0).pending = x0.pending := by
  unfold State.bistAbort; (repeat' split) <;> simp

@[simp] theorem State.mboxPut_pending (x0 : State) (x1 : Nat) (x2 : List Byte) :
    (State.mboxPut x0 x1 x2).pending = x0.pending := by
  unfold State.mboxPut; simp

@[simp] theorem State.mboxEnd_pending (x0 : State) (x1 : Nat) (x2 : List Byte) :
    (State.mboxEnd x0 x1 x2).pending = x0.pending := by
  unfold State.mboxEnd; simp

@[simp] theorem State.mboxRun_pending (x0 : State) (x1 x2 : Nat) (x3 : List Byte) (x4 : Option OtpRun) :
    (State.mboxRun x0 x1 x2 x3 x4).state.pending = x0.pending := by
  grind [State.mboxRun]

@[simp] theorem State.mboxGo_pending (x0 : State) (x1 : Nat) (x2 : List Byte) (x3 : State → MboxStart) (h_x3 : ∀ a0,
    (x3 a0).state.pending = a0.pending) :
    (State.mboxGo x0 x1 x2 x3).pending = x0.pending := by
  grind [State.mboxGo, State.mboxPut_pending, State.set_pending]

@[simp] theorem State.signedCmd_pending (x0 : State) (x1 : Nat) (x2 : String) (x3 : List Byte) (x4 : Nat) (x5 x6 x7 :
    Bool) (x8 : Option (List Byte)) (x9 : State → MboxStart) (h_x9 : ∀ a0, (x9 a0).state.pending = a0.pending) :
    (State.signedCmd x0 x1 x2 x3 x4 x5 x6 x7 x8 x9).state.pending = x0.pending := by
  unfold State.signedCmd; simp only []
  (repeat' first | rfl | assumption | split | intro _ _
                 | rw [foldl_pending] | rw [foldl_fst_pending] | simp_all)

@[simp] theorem State.startProgram_pending (x0 : State) (x1 : Nat) (x2 : List Byte) (x3 : List Nat) (x4 : OtpEnv) :
    (State.startProgram x0 x1 x2 x3 x4).state.pending = x0.pending := by
  grind [State.startProgram, State.mboxRun_pending]

@[simp] theorem State.copyShadow_pending (x0 : State) (x1 : List Nat) :
    (State.copyShadow x0 x1).pending = x0.pending := by
  unfold State.copyShadow; simp [apply_ite State.pending]

@[simp] theorem State.blowPart_pending (x0 : State) (x1 : Nat) : (State.blowPart x0 x1).pending = x0.pending := by
  unfold State.blowPart; simp [apply_ite State.pending]

@[simp] theorem State.otpFailed_pending (x0 : State) : (State.otpFailed x0).pending = x0.pending := by
  unfold State.otpFailed; simp

@[simp] theorem State.runProgram_pending (x0 : State) (x1 : OtpRun) :
    (State.runProgram x0 x1).1.pending = x0.pending := by
  unfold State.runProgram; (repeat' split) <;> simp

@[simp] theorem State.otpResult_pending (x0 : State) (x1 x2 : Nat) (x3 : List Byte) :
    (State.otpResult x0 x1 x2 x3).pending = x0.pending := by
  unfold State.otpResult; (repeat' split) <;> simp

@[simp] theorem State.otpLate_pending (x0 : State) : (State.otpLate x0).pending = x0.pending := by
  unfold State.otpLate; (repeat' split) <;> simp

@[simp] theorem State.lifeChange_pending (x0 : State) (x1 : Nat) : (State.lifeChange x0 x1).pending = x0.pending := by
  unfold State.lifeChange; (repeat' split) <;> simp

@[simp] theorem State.mboxDone_pending (x0 : State) : (State.mboxDone x0).pending = x0.pending := by
  grind [State.mboxDone, State.lifeChange_pending, State.mboxEnd_pending, State.otpFailed_pending,
      State.otpResult_pending, State.runProgram_pending, State.set_pending]

@[simp] theorem State.cutProgram_pending (x0 : State) (x1 : OtpRun) :
    (State.cutProgram x0 x1).1.pending = x0.pending := by
  grind [State.cutProgram, State.blowAll_pending, State.blowPart_pending, State.draw_pending]

@[simp] theorem State.cmdNonce_pending (x0 : State) (x1 : List Byte) :
    (State.cmdNonce x0 x1).state.pending = x0.pending := by
  grind [State.cmdNonce, State.draw_pending, State.mboxRun_pending]

@[simp] theorem State.cmdWrapKey_pending (x0 : State) (x1 : List Byte) :
    (State.cmdWrapKey x0 x1).state.pending = x0.pending := by
  grind [State.cmdWrapKey, State.draw_pending, State.mboxRun_pending]

@[simp] theorem State.cmdLoad_pending (x0 : State) (x1 : List Byte) :
    (State.cmdLoad x0 x1).state.pending = x0.pending := by
  grind [State.cmdLoad, State.loadKey_pending, State.mboxRun_pending, State.set_pending]

@[simp] theorem State.cmdUnload_pending (x0 : State) (x1 : List Byte) :
    (State.cmdUnload x0 x1).state.pending = x0.pending := by
  grind [State.cmdUnload, State.mboxRun_pending, State.unloadKey_pending]

@[simp] theorem State.cmdUnknown_pending (x0 : State) (x1 : Nat) :
    (State.cmdUnknown x0 x1).state.pending = x0.pending := by
  rfl

@[simp] theorem State.cmdBist_pending (x0 : State) (x1 : List Byte) :
    (State.cmdBist x0 x1).state.pending = x0.pending := by
  grind [State.cmdBist, State.bistStart_pending, State.mboxRun_pending]

@[simp] theorem State.cmdAdvance_pending (x0 : State) (x1 : List Byte) (x2 : OtpEnv) :
    (State.cmdAdvance x0 x1 x2).state.pending = x0.pending := by
  unfold State.cmdAdvance; simp

@[simp] theorem State.cmdOwner_pending (x0 : State) (x1 : List Byte) (x2 : OtpEnv) :
    (State.cmdOwner x0 x1 x2).state.pending = x0.pending := by
  unfold State.cmdOwner; simp

@[simp] theorem State.cmdArb_pending (x0 : State) (x1 : List Byte) (x2 : OtpEnv) :
    (State.cmdArb x0 x1 x2).state.pending = x0.pending := by
  unfold State.cmdArb; simp

@[simp] theorem State.cmdUds_pending (x0 : State) (x1 : List Byte) (x2 : OtpEnv) :
    (State.cmdUds x0 x1 x2).state.pending = x0.pending := by
  unfold State.cmdUds; simp

@[simp] theorem State.cmdProgram_pending (x0 : State) (x1 : List Byte) (x2 : OtpEnv) :
    (State.cmdProgram x0 x1 x2).state.pending = x0.pending := by
  unfold State.cmdProgram; simp

@[simp] theorem State.cmdLock_pending (x0 : State) (x1 : List Byte) (x2 : OtpEnv) :
    (State.cmdLock x0 x1 x2).state.pending = x0.pending := by
  grind [State.cmdLock, State.mboxRun_pending, State.signedCmd_pending, State.startProgram_pending]

@[simp] theorem State.mboxStart_pending (x0 : State) (x1 : Nat) (x2 : List Byte) (x3 : OtpEnv) :
    (State.mboxStart x0 x1 x2 x3).state.pending = x0.pending := by
  unfold State.mboxStart; (repeat' split) <;> simp

@[simp] theorem State.tamperOtp_pending (x0 : State) : (State.tamperOtp x0).pending = x0.pending := by
  grind [State.tamperOtp, State.cutProgram_pending, State.set_pending]

@[simp] theorem State.tamper_pending (x0 : State) (x1 : Detector) : (State.tamper x0 x1).pending = x0.pending := by
  unfold State.tamper; simp [apply_ite State.pending]

@[simp] theorem State.mboxReset_pending (x0 : State) : (State.mboxReset x0).pending = x0.pending := by
  unfold State.mboxReset; (repeat' split) <;> simp

@[simp] theorem State.recordsReset_pending (x0 : State) : (State.recordsReset x0).pending = x0.pending := by
  unfold State.recordsReset; simp

@[simp] theorem State.keyRequestsReset_pending (x0 : State) : (State.keyRequestsReset x0).pending = x0.pending := by
  unfold State.keyRequestsReset; simp

@[simp] theorem State.showPrecode_pending (x0 : State) (x1 : Nat) : (State.showPrecode x0 x1).pending = x0.pending := by
  unfold State.showPrecode; simp

@[simp] theorem State.showDegraded_pending (x0 : State) : (State.showDegraded x0).pending = x0.pending := by
  unfold State.showDegraded; simp

@[simp] theorem State.judgeLink_pending (x0 : State) : (State.judgeLink x0).pending = x0.pending := by
  unfold State.judgeLink; simp [apply_ite State.pending]

@[simp] theorem State.rejudge_pending (x0 : State) : (State.rejudge x0).pending = x0.pending := by
  unfold State.rejudge; simp [apply_ite State.pending]

@[simp] theorem State.linkMet_pending (x0 : State) (x1 : TrainResult) : (State.linkMet x0 x1).pending = x0.pending := by
  unfold State.linkMet; simp

@[simp] theorem State.laneQuads_pending (x0 : State) (x1 : Nat) : (State.laneQuads x0 x1).pending = x0.pending := by
  unfold State.laneQuads; simp [apply_ite State.pending]

@[simp] theorem State.train_pending (x0 : State) (x1 : TrainResult) : (State.train x0 x1).1.pending = x0.pending := by
  grind [State.train, State.judgeLink_pending, State.laneQuads_pending, State.linkMet_pending,
      State.pcxBoundary_pending, State.set_pending, State.showPrecode_pending, State.wrapInc_pending]

@[simp] theorem State.linkGone_pending (x0 : State) : (State.linkGone x0).pending = x0.pending := by
  unfold State.linkGone; simp

@[simp] theorem State.emitHeld_pending (x0 : State) (x1 : Out) : (State.emitHeld x0 x1).pending = x0.pending := by
  unfold State.emitHeld; (repeat' split) <;> simp

@[simp] theorem State.releaseOut_pending (x0 : State) : (State.releaseOut x0).pending = x0.pending := by
  unfold State.releaseOut; simp

@[simp] theorem State.recovered_pending (x0 : State) (x1 x2 : Nat) :
    (State.recovered x0 x1 x2).pending = x0.pending := by
  unfold State.recovered; simp [apply_ite State.pending]

@[simp] theorem State.rewidth_pending (x0 : State) (x1 : TrainResult) (x2 : Nat) :
    (State.rewidth x0 x1 x2).pending = x0.pending := by
  unfold State.rewidth; simp [apply_ite State.pending]

@[simp] theorem State.linkRecovery_pending (x0 : State) (x1 : TrainResult) :
    (State.linkRecovery x0 x1).pending = x0.pending := by
  unfold State.linkRecovery; simp [apply_ite State.pending]

@[simp] theorem State.useWidth_pending (x0 : State) (x1 : Nat) : (State.useWidth x0 x1).pending = x0.pending := by
  unfold State.useWidth; simp

@[simp] theorem State.l0pIdle_pending (x0 : State) (x1 : Bool) : (State.l0pIdle x0 x1).pending = x0.pending := by
  unfold State.l0pIdle; simp [apply_ite State.pending]

@[simp] theorem State.l0pRequest_pending (x0 : State) (x1 : Nat) : (State.l0pRequest x0 x1).pending = x0.pending := by
  unfold State.l0pRequest; simp [apply_ite State.pending]

@[simp] theorem State.l0pFull_pending (x0 : State) (x1 : Bool) : (State.l0pFull x0 x1).pending = x0.pending := by
  unfold State.l0pFull; simp [apply_ite State.pending]

@[simp] theorem State.l1Entry_pending (x0 : State) : (State.l1Entry x0).pending = x0.pending := by
  unfold State.l1Entry; simp [apply_ite State.pending]

@[simp] theorem State.l1Exit_pending (x0 : State) : (State.l1Exit x0).pending = x0.pending := by
  unfold State.l1Exit; simp [apply_ite State.pending]

@[simp] theorem State.completeAll_pending (x0 : State) : (State.completeAll x0).pending = x0.pending := by
  unfold State.completeAll; simp

@[simp] theorem State.d3hotEntry_pending (x0 : State) : (State.d3hotEntry x0).pending = x0.pending := by
  unfold State.d3hotEntry; simp [apply_ite State.pending]

@[simp] theorem State.d0Return_pending (x0 : State) : (State.d0Return x0).pending = x0.pending := by
  unfold State.d0Return; (repeat' split) <;> simp_all <;> grind [State.d0Return, State.domainsOn_pending,
      State.raise_pending, State.releaseOut_pending, State.set_pending, State.showRing_pending,
      State.srReleaseAll_pending]

@[simp] theorem State.vfEnable_pending (x0 : State) (x1 : Bool) : (State.vfEnable x0 x1).pending = x0.pending := by
  unfold State.vfEnable; simp [apply_ite State.pending]

@[simp] theorem State.busMaster_pending (x0 : State) (x1 : Nat) (x2 : Bool) :
    (State.busMaster x0 x1 x2).pending = x0.pending := by
  unfold State.busMaster; simp [apply_ite State.pending]

@[simp] theorem State.serveAll_pending (x0 : State) : (State.serveAll x0).pending = x0.pending := by
  unfold State.serveAll; simp

@[simp] theorem State.tagEffect_pending (x0 : State) : (State.tagEffect x0).pending = x0.pending := by
  unfold State.tagEffect; simp [apply_ite State.pending]

@[simp] theorem State.quarantineEnd_pending (x0 : State) (x1 : Nat) :
    (State.quarantineEnd x0 x1).pending = x0.pending := by
  unfold State.quarantineEnd; simp [apply_ite State.pending]

@[simp] theorem State.tagAnswered_pending (x0 : State) (x1 : TagUse) (x2 : Completion) :
    (State.tagAnswered x0 x1 x2).pending = x0.pending := by
  unfold State.tagAnswered; (repeat' split) <;> grind [State.tagAnswered, State.aerUncorrectable_pending,
      State.readFailed_pending, State.received_pending, State.retireTag_pending]

@[simp] theorem State.completionGood_pending (x0 : State) (x1 : Nat) (x2 : Completion) :
    (State.completionGood x0 x1 x2).pending = x0.pending := by
  unfold State.completionGood; (repeat' split) <;> simp

@[simp] theorem State.completion_pending (x0 : State) (x1 : Nat) (x2 : Completion) (x3 : Tlp) :
    (State.completion x0 x1 x2 x3).pending = x0.pending := by
  unfold State.completion
  (repeat' first | rfl | assumption | split | intro _ _
                 | rw [foldl_pending] | rw [foldl_fst_pending] | rw [foldl_io_pending] | rw [foldl_walk_pending] | simp)

@[simp] theorem State.cplTimeout_pending (x0 : State) (x1 : Nat) : (State.cplTimeout x0 x1).pending = x0.pending := by
  grind [State.cplTimeout, State.readFailed_pending, State.retireTag_pending, State.timedOut_pending]

@[simp] theorem State.msixPending_pending (x0 : State) (x1 x2 : Nat) :
    (State.msixPending x0 x1 x2).pending = x0.pending := by
  unfold State.msixPending; simp [apply_ite State.pending]

@[simp] theorem State.msixSetMask_pending (x0 : State) (x1 x2 : Nat) (x3 : Bool) :
    (State.msixSetMask x0 x1 x2 x3).pending = x0.pending := by
  unfold State.msixSetMask; simp

@[simp] theorem State.doeObject_pending (x0 : State) (x1 : DoeType) (x2 : Nat) (x3 : List Byte) :
    (State.doeObject x0 x1 x2 x3).pending = x0.pending := by
  unfold State.doeObject; (repeat' split) <;> simp

@[simp] theorem State.doeDrop_pending (x0 : State) : (State.doeDrop x0).pending = x0.pending := by
  unfold State.doeDrop; simp [apply_ite State.pending]

@[simp] theorem State.doeAbort_pending (x0 : State) : (State.doeAbort x0).pending = x0.pending := by
  unfold State.doeAbort; simp [apply_ite State.pending]

@[simp] theorem State.doeGo_pending (x0 : State) : (State.doeGo x0).pending = x0.pending := by
  unfold State.doeGo; simp [apply_ite State.pending]

@[simp] theorem State.doeWrite_pending (x0 : State) (x1 : Nat) : (State.doeWrite x0 x1).pending = x0.pending := by
  unfold State.doeWrite; simp [apply_ite State.pending]

@[simp] theorem State.doeNext_pending (x0 : State) : (State.doeNext x0).pending = x0.pending := by
  unfold State.doeNext; simp [apply_ite State.pending]

@[simp] theorem State.marginAnswer_pending (x0 : State) (x1 x2 : Nat) :
    (State.marginAnswer x0 x1 x2).pending = x0.pending := by
  grind [State.marginAnswer, State.draw_pending, State.emit_pending]

@[simp] theorem State.store_pending (x0 : State) (x1 : FN) (x2 x3 x4 : Nat) :
    (State.store x0 x1 x2 x3 x4).pending = x0.pending := by
  unfold State.store; simp

@[simp] theorem State.keepLevels_pending (x0 : State) (x1 : Bool) : (State.keepLevels x0 x1).pending = x0.pending := by
  unfold State.keepLevels; simp

@[simp] theorem State.writeTh_pending (x0 : State) (x1 x2 : Bool) (x3 x4 x5 x6 : Nat) :
    (State.writeTh x0 x1 x2 x3 x4 x5 x6).pending = x0.pending := by
  unfold State.writeTh; (repeat' split) <;> simp

@[simp] theorem State.showGov_pending (x0 : State) (x1 : Nat) : (State.showGov x0 x1).pending = x0.pending := by
  unfold State.showGov; simp [apply_ite State.pending]

@[simp] theorem State.showAny_pending (x0 : State) : (State.showAny x0).pending = x0.pending := by
  unfold State.showAny; simp

@[simp] theorem State.showMeas_pending (x0 : State) (x1 : Nat) : (State.showMeas x0 x1).pending = x0.pending := by
  unfold State.showMeas; (repeat' split) <;> simp

@[simp] theorem State.calTrigger_pending (x0 : State) (x1 x2 : Nat) :
    (State.calTrigger x0 x1 x2).pending = x0.pending := by
  unfold State.calTrigger; simp [apply_ite State.pending]

@[simp] theorem State.calCheck_pending (x0 : State) (x1 : Nat) : (State.calCheck x0 x1).pending = x0.pending := by
  unfold State.calCheck; simp [apply_ite State.pending]

@[simp] theorem State.becomeSuspect_pending (x0 : State) (x1 : Nat) :
    (State.becomeSuspect x0 x1).pending = x0.pending := by
  unfold State.becomeSuspect
  (repeat' first | rfl | assumption | split | intro _ _
                 | rw [foldl_pending] | rw [foldl_fst_pending] | rw [foldl_io_pending] | rw [foldl_walk_pending] | simp)

@[simp] theorem State.sensorFails_pending (x0 : State) (x1 : Nat) : (State.sensorFails x0 x1).pending = x0.pending := by
  unfold State.sensorFails; simp [apply_ite State.pending]

@[simp] theorem State.takeReading_pending (x0 : State) (x1 : Nat) (x2 : Reading) :
    (State.takeReading x0 x1 x2).pending = x0.pending := by
  unfold State.takeReading; (repeat' split) <;> simp

@[simp] theorem State.raisePeak_pending (x0 : State) (x1 : FN) (x2 : ℤ) :
    (State.raisePeak x0 x1 x2).pending = x0.pending := by
  unfold State.raisePeak; simp [apply_ite State.pending]

@[simp] theorem State.warn_pending (x0 : State) (x1 : Bool) : (State.warn x0 x1).pending = x0.pending := by
  grind [State.warn, State.raise_pending, State.set_pending]

@[simp] theorem State.setTstate_pending (x0 : State) (x1 : Nat) : (State.setTstate x0 x1).pending = x0.pending := by
  unfold State.setTstate; simp

@[simp] theorem State.thermalShutdown_pending (x0 : State) : (State.thermalShutdown x0).pending = x0.pending := by
  unfold State.thermalShutdown; simp

@[simp] theorem State.throttleStep_pending (x0 : State) : (State.throttleStep x0).pending = x0.pending := by
  grind [State.throttleStep, State.raise_pending, State.setTstate_pending, State.thermalShutdown_pending,
      State.wrapInc_pending]

@[simp] theorem State.stackCheck_pending (x0 : State) : (State.stackCheck x0).pending = x0.pending := by
  unfold State.stackCheck; (repeat' split) <;> simp

@[simp] theorem State.evalThermal_pending (x0 : State) : (State.evalThermal x0).pending = x0.pending := by
  unfold State.evalThermal; simp

@[simp] theorem State.sampleTakes_pending (x0 : State) (x1 : Nat) : (State.sampleTakes x0 x1).pending = x0.pending := by
  unfold State.sampleTakes; simp

@[simp] theorem State.sensorSample_pending (x0 : State) (x1 : Nat) (x2 : List Reading) :
    (State.sensorSample x0 x1 x2).pending = x0.pending := by
  unfold State.sensorSample; simp

@[simp] theorem State.suspectStep_pending (x0 : State) (x1 : Nat) : (State.suspectStep x0 x1).pending = x0.pending := by
  unfold State.suspectStep; simp [apply_ite State.pending]

@[simp] theorem State.modelUpdate_pending (x0 : State) (x1 : Nat) (x2 : List (List Nat)) :
    (State.modelUpdate x0 x1 x2).pending = x0.pending := by
  unfold State.modelUpdate; simp

@[simp] theorem State.graceExpire_pending (x0 : State) : (State.graceExpire x0).pending = x0.pending := by
  grind [State.graceExpire, State.raise_pending, State.setTstate_pending]

@[simp] theorem State.suspectZero_pending (x0 : State) : (State.suspectZero x0).pending = x0.pending := by
  unfold State.suspectZero; simp [apply_ite State.pending]

@[simp] theorem State.quadsOn_pending (x0 : State) : (State.quadsOn x0).pending = x0.pending := by
  unfold State.quadsOn
  (repeat' first | rfl | assumption | split | intro _ _
                 | rw [foldl_pending] | rw [foldl_fst_pending] | rw [foldl_io_pending] | rw [foldl_walk_pending] | simp)

@[simp] theorem State.resume_pending (x0 : State) : (State.resume x0).pending = x0.pending := by
  grind [State.resume, State.domainsOn_pending, State.quadsOn_pending, State.raise_pending, State.set_pending,
      State.setTstate_pending, State.srReleaseAll_pending, State.suspectZero_pending]

@[simp] theorem State.powerPeriodEnd_pending (x0 : State) (x1 : Nat) :
    (State.powerPeriodEnd x0 x1).pending = x0.pending := by
  grind [State.powerPeriodEnd, State.count_pending, State.raise_pending, State.set_pending, State.wrapInc_pending]

@[simp] theorem State.windowBoundary_pending (x0 : State) : (State.windowBoundary x0).pending = x0.pending := by
  unfold State.windowBoundary; simp

@[simp] theorem State.clockStop_pending (x0 : State) (x1 : Bool) : (State.clockStop x0 x1).pending = x0.pending := by
  unfold State.clockStop; simp [apply_ite State.pending]

@[simp] theorem State.fatalActions_pending (x0 : State) : (State.fatalActions x0).pending = x0.pending := by
  unfold State.fatalActions; simp [apply_ite State.pending]

@[simp] theorem State.withFatal_pending (x0 : State) (x1 : State → State) (h_x1 : ∀ a0, (x1 a0).pending = a0.pending)
    :
    (State.withFatal x0 x1).pending = x0.pending := by
  grind [State.withFatal, State.fatalActions_pending]

@[simp] theorem State.sectorLost_pending (x0 : State) (x1 x2 : Nat) :
    (State.sectorLost x0 x1 x2).pending = x0.pending := by
  unfold State.sectorLost; (repeat' split) <;> simp

@[simp] theorem State.sectorAgain_pending (x0 : State) (x1 x2 : Nat) :
    (State.sectorAgain x0 x1 x2).pending = x0.pending := by
  unfold State.sectorAgain
  (repeat' first | rfl | assumption | split | intro _ _
                 | rw [foldl_pending] | rw [foldl_fst_pending] | rw [foldl_io_pending] | rw [foldl_walk_pending] | simp)

@[simp] theorem State.blockSet_pending (x0 : State) (x1 x2 : Nat) : (State.blockSet x0 x1 x2).pending = x0.pending := by
  unfold State.blockSet; simp [apply_ite State.pending]

@[simp] theorem State.sliceEffects_pending (x0 : State) (x1 x2 x3 : Nat) :
    (State.sliceEffects x0 x1 x2 x3).pending = x0.pending := by
  grind [State.sliceEffects, State.blockSet_pending, State.satInc_pending, State.sectorAgain_pending,
      State.sectorLost_pending]

@[simp] theorem State.tarnLost_pending (x0 : State) (x1 x2 : Nat) : (State.tarnLost x0 x1 x2).pending = x0.pending := by
  unfold State.tarnLost; simp [apply_ite State.pending]

@[simp] theorem State.sourceEffects_pending (x0 : State) (x1 x2 x3 x4 : Nat) :
    (State.sourceEffects x0 x1 x2 x3 x4).pending = x0.pending := by
  unfold State.sourceEffects; simp [apply_ite State.pending]

@[simp] theorem State.descriptorLost_pending (x0 : State) (x1 x2 : Nat) :
    (State.descriptorLost x0 x1 x2).pending = x0.pending := by
  unfold State.descriptorLost; split
  · rfl
  · rename_i h; rw [← State.takeFetch_pending h]; simp

@[simp] theorem State.pathLost_pending (x0 : State) (x1 x2 : Nat) : (State.pathLost x0 x1 x2).pending = x0.pending := by
  unfold State.pathLost; simp [apply_ite State.pending]; grind [State.pathLost, State.abortUnits_pending,
      State.condition_pending, State.descriptorLost_pending, State.stopJob_pending]

@[simp] theorem State.containEffects_pending (x0 : State) (x1 x2 x3 : Nat) :
    (State.containEffects x0 x1 x2 x3).pending = x0.pending := by
  unfold State.containEffects
  (repeat' first | rfl | assumption | split | intro _ _
                 | rw [foldl_pending] | rw [foldl_fst_pending] | rw [foldl_io_pending] | rw [foldl_walk_pending] | simp)

@[simp] theorem State.reportIn_pending (x0 : State) (x1 : Report) : (State.reportIn x0 x1).pending = x0.pending := by
  grind [State.reportIn, State.containEffects_pending, State.raise_pending, State.report_pending,
      State.reportInvalid_pending, State.sourceEffects_pending]

@[simp] theorem State.faultReport_pending (x0 : State) (x1 : List Report) :
    (State.faultReport x0 x1).pending = x0.pending := by
  unfold State.faultReport; simp

@[simp] theorem State.fActionsEnd_pending (x0 : State) : (State.fActionsEnd x0).pending = x0.pending := by
  grind [State.fActionsEnd, State.fatalActions_pending, State.raise_pending, State.setCollector_pending]

@[simp] theorem State.fltRelease_pending (x0 : State) (x1 : Nat) : (State.fltRelease x0 x1).pending = x0.pending := by
  unfold State.fltRelease; simp [apply_ite State.pending]

@[simp] theorem State.fltInject_pending (x0 : State) (x1 : Nat) : (State.fltInject x0 x1).pending = x0.pending := by
  unfold State.fltInject; simp [apply_ite State.pending]

@[simp] theorem State.clockOpened_pending (x0 : State) (x1 : Nat) : (State.clockOpened x0 x1).pending = x0.pending := by
  unfold State.clockOpened; simp

@[simp] theorem State.crystalFail_pending (x0 : State) : (State.crystalFail x0).pending = x0.pending := by
  unfold State.crystalFail; simp [apply_ite State.pending]

@[simp] theorem State.pllUnlock_pending (x0 : State) (x1 : Pll) : (State.pllUnlock x0 x1).pending = x0.pending := by
  unfold State.pllUnlock; simp [apply_ite State.pending]

@[simp] theorem State.stackRailLow_pending (x0 : State) : (State.stackRailLow x0).pending = x0.pending := by
  unfold State.stackRailLow; simp [apply_ite State.pending]

@[simp] theorem State.unpowered_pending (x0 : State) : (State.unpowered x0).pending = x0.pending := by
  unfold State.unpowered; simp

@[simp] theorem State.otpPowerCut_pending (x0 : State) : (State.otpPowerCut x0).pending = x0.pending := by
  unfold State.otpPowerCut; (repeat' split) <;> simp

@[simp] theorem State.flashCut_pending (x0 : State) : (State.flashCut x0).pending = x0.pending := by
  unfold State.flashCut; (repeat' split) <;> simp

@[simp] theorem State.auxLoss_pending (x0 : State) : (State.auxLoss x0).pending = x0.pending := by
  unfold State.auxLoss; simp

@[simp] theorem State.aonOnly_pending (x0 : State) : (State.aonOnly x0).pending = x0.pending := by
  unfold State.aonOnly; simp

@[simp] theorem State.vddCoreLoss_pending (x0 : State) : (State.vddCoreLoss x0).pending = x0.pending := by
  unfold State.vddCoreLoss; simp [apply_ite State.pending]

@[simp] theorem State.putBasin_pending (x0 : State) (x1 : List Byte) : (State.putBasin x0 x1).pending = x0.pending := by
  unfold State.putBasin; simp

@[simp] theorem State.profileClear_pending (x0 : State) (x1 : Nat) :
    (State.profileClear x0 x1).pending = x0.pending := by
  unfold State.profileClear; simp

@[simp] theorem State.profileRecord_pending (x0 : State) (x1 : List Nat) (x2 : List Byte) :
    (State.profileRecord x0 x1 x2).1.pending = x0.pending := by
  grind [State.profileRecord, State.profileClear_pending, State.raise_pending, State.satInc_pending,
      State.set_pending, State.wrapInc_pending]

@[simp] theorem State.loadProfiles_pending (x0 : State) (x1 : List (List Byte)) :
    (State.loadProfiles x0 x1).pending = x0.pending := by
  unfold State.loadProfiles; simp

@[simp] theorem State.verifyProfiles_pending (x0 : State) (x1 : Nat) :
    (State.verifyProfiles x0 x1).pending = x0.pending := by
  unfold State.verifyProfiles; simp [apply_ite State.pending]

@[simp] theorem State.put_pending (x0 : State) (x1 : FN) (x2 x3 : Nat) :
    (State.put x0 x1 x2 x3).pending = x0.pending := by
  unfold State.put; simp

@[simp] theorem State.imageRing_pending (x0 : State) (x1 : Nat) : (State.imageRing x0 x1).pending = x0.pending := by
  unfold State.imageRing; (repeat' split) <;> simp

@[simp] theorem State.imageFunc_pending (x0 : State) (x1 : Nat) : (State.imageFunc x0 x1).pending = x0.pending := by
  unfold State.imageFunc; simp

@[simp] theorem State.imagePort_pending (x0 : State) (x1 : Nat) : (State.imagePort x0 x1).pending = x0.pending := by
  unfold State.imagePort; (repeat' split) <;> simp

@[simp] theorem State.imageGroup_pending (x0 : State) (x1 : Nat) : (State.imageGroup x0 x1).pending = x0.pending := by
  unfold State.imageGroup; simp [apply_ite State.pending]

@[simp] theorem State.imageEvents_pending (x0 : State) : (State.imageEvents x0).pending = x0.pending := by
  unfold State.imageEvents; simp [apply_ite State.pending]

@[simp] theorem State.imageDevice_pending (x0 : State) : (State.imageDevice x0).pending = x0.pending := by
  unfold State.imageDevice; simp

@[simp] theorem State.imageBasins_pending (x0 : State) : (State.imageBasins x0).pending = x0.pending := by
  unfold State.imageBasins; simp

@[simp] theorem State.imageGroups_pending (x0 : State) : (State.imageGroups x0).pending = x0.pending := by
  unfold State.imageGroups; simp

@[simp] theorem State.applyImage_pending (x0 : State) (x1 : Loaded) :
    (State.applyImage x0 x1).pending = x0.pending := by
  unfold State.applyImage; simp

@[simp] theorem State.newChains_pending (x0 : State) : (State.newChains x0).pending = x0.pending := by
  unfold State.newChains; simp

@[simp] theorem State.deriveKeys_pending (x0 : State) (x1 : List Byte) (x2 : Nat) :
    (State.deriveKeys x0 x1 x2).pending = x0.pending := by
  unfold State.deriveKeys; simp [apply_ite State.pending]

@[simp] theorem State.showCal_pending (x0 : State) : (State.showCal x0).pending = x0.pending := by
  unfold State.showCal; simp

@[simp] theorem State.putTarget_pending (x0 : State) (x1 : CalTarget) :
    (State.putTarget x0 x1).pending = x0.pending := by
  unfold State.putTarget; simp

@[simp] theorem State.runHeld_pending (x0 : State) (x1 x2 : Nat) : (State.runHeld x0 x1 x2).pending = x0.pending := by
  unfold State.runHeld
  (repeat' first | rfl | assumption | split | intro _ _
                 | rw [foldl_pending] | rw [foldl_fst_pending] | rw [foldl_io_pending] | rw [foldl_walk_pending] | simp)

@[simp] theorem State.calRunStart_pending (x0 : State) (x1 x2 : Nat) :
    (State.calRunStart x0 x1 x2).pending = x0.pending := by
  grind [State.calRunStart, State.putTarget_pending, State.runHeld_pending, State.showCal_pending]

@[simp] theorem State.calWriteCheck_pending (x0 : State) : (State.calWriteCheck x0).pending = x0.pending := by
  unfold State.calWriteCheck; simp [apply_ite State.pending]

@[simp] theorem State.calWriteLater_pending (x0 : State) : (State.calWriteLater x0).pending = x0.pending := by
  unfold State.calWriteLater
  (repeat' first | rfl | assumption | split | intro _ _
                 | rw [foldl_pending] | rw [foldl_fst_pending] | rw [foldl_io_pending] | rw [foldl_walk_pending] | simp)

@[simp] theorem State.calWriteEnd_pending (x0 : State) (x1 : Bool) :
    (State.calWriteEnd x0 x1).pending = x0.pending := by
  unfold State.calWriteEnd; (repeat' split) <;> simp

@[simp] theorem State.calRunEnd_pending (x0 : State) (x1 x2 x3 : Nat) :
    (State.calRunEnd x0 x1 x2 x3).pending = x0.pending := by
  grind [State.calRunEnd, State.calTrigger_pending, State.calWriteCheck_pending, State.putTarget_pending,
      State.releaseHeld_pending, State.runHeld_pending, State.showCal_pending, State.wrapInc_pending]

@[simp] theorem State.calForce_pending (x0 : State) : (State.calForce x0).pending = x0.pending := by
  unfold State.calForce; simp [apply_ite State.pending]

@[simp] theorem State.calRunAll_pending (x0 : State) (x1 : List Nat) :
    (State.calRunAll x0 x1).pending = x0.pending := by
  unfold State.calRunAll; simp

@[simp] theorem State.calRead_pending (x0 : State) : (State.calRead x0).pending = x0.pending := by
  unfold State.calRead; (repeat' split) <;> simp

@[simp] theorem State.calOwed_pending (x0 : State) (x1 : List Nat) : (State.calOwed x0 x1).pending = x0.pending := by
  unfold State.calOwed
  (repeat' first | rfl | assumption | split | intro _ _
                 | rw [foldl_pending] | rw [foldl_fst_pending] | rw [foldl_io_pending] | rw [foldl_walk_pending] | simp)

@[simp] theorem State.coldFields_pending (x0 : State) (x1 : List FN) :
    (State.coldFields x0 x1).pending = x0.pending := by
  unfold State.coldFields; simp

@[simp] theorem State.warmRegs_pending (x0 : State) : (State.warmRegs x0).pending = x0.pending := by
  unfold State.warmRegs; simp

@[simp] theorem State.showLast_pending (x0 : State) : (State.showLast x0).pending = x0.pending := by
  unfold State.showLast; (repeat' split) <;> simp

@[simp] theorem State.bootLog_pending (x0 : State) (x1 : StartEnv) (x2 : LogNote) :
    (State.bootLog x0 x1 x2).pending = x0.pending := by
  unfold State.bootLog; simp [apply_ite State.pending]

@[simp] theorem State.dropMarks_pending (x0 : State) : (State.dropMarks x0).pending = x0.pending := by
  unfold State.dropMarks; simp

@[simp] theorem State.chooseSlot_pending (x0 : State) : (State.chooseSlot x0).1.pending = x0.pending := by
  unfold State.chooseSlot; simp

@[simp] theorem State.markSlot_pending (x0 : State) (x1 : Nat) : (State.markSlot x0 x1).pending = x0.pending := by
  unfold State.markSlot; simp

@[simp] theorem State.countFailure_pending (x0 : State) (x1 : Option Nat) :
    (State.countFailure x0 x1).pending = x0.pending := by
  grind [State.countFailure, State.markSlot_pending, State.set_pending]

@[simp] theorem State.trainOnce_pending (x0 : State) (x1 : StartEnv) :
    (State.trainOnce x0 x1).pending = x0.pending := by
  unfold State.trainOnce
  (repeat' first | rfl | assumption | split | intro _ _
                 | rw [foldl_pending] | rw [foldl_fst_pending] | rw [foldl_io_pending] | rw [foldl_walk_pending] | simp)

@[simp] theorem State.failStart_pending (x0 : State) (x1 : StartEnv) (x2 : Option Nat) (x3 x4 x5 : Nat) :
    (State.failStart x0 x1 x2 x3 x4 x5).pending = x0.pending := by
  unfold State.failStart; simp

@[simp] theorem State.recoveryImage_pending (x0 : State) : (State.recoveryImage x0).pending = x0.pending := by
  unfold State.recoveryImage; simp

@[simp] theorem State.recoveryMode_pending (x0 : State) (x1 : StartEnv) (x2 x3 : Nat) :
    (State.recoveryMode x0 x1 x2 x3).pending = x0.pending := by
  grind [State.recoveryMode, State.bootLog_pending, State.deriveHeld_pending, State.enginesOff_pending,
      State.fabricOff_pending, State.otpLate_pending, State.raise_pending, State.recoveryImage_pending,
      State.set_pending, State.setCollector_pending, State.trainOnce_pending]

@[simp] theorem State.endStart_pending (x0 : State) (x1 : StartEnv) (x2 : Option Nat) (x3 x4 x5 : Nat) :
    (State.endStart x0 x1 x2 x3 x4 x5).pending = x0.pending := by
  unfold State.endStart; (repeat' split) <;> simp

@[simp] theorem State.waitStart_pending (x0 : State) (x1 : Nat) (x2 : StartRun) :
    (State.waitStart x0 x1 x2).pending = x0.pending := by
  unfold State.waitStart; simp

@[simp] theorem State.engineBoot_pending (x0 : State) (x1 : Bool) : (State.engineBoot x0 x1).pending = x0.pending := by
  unfold State.engineBoot; simp [apply_ite State.pending]

@[simp] theorem State.failedPcs_pending (x0 : State) : (State.failedPcs x0).pending = x0.pending := by
  unfold State.failedPcs; simp [apply_ite State.pending]

@[simp] theorem State.startBasins_pending (x0 : State) : (State.startBasins x0).pending = x0.pending := by
  unfold State.startBasins; rw [foldl_pending]; intro b x; dsimp only; (repeat' split) <;> simp

@[simp] theorem State.voidJournal_pending (x0 : State) : (State.voidJournal x0).pending = x0.pending := by
  unfold State.voidJournal; (repeat' split) <;> simp

@[simp] theorem State.startThermal_pending (x0 : State) : (State.startThermal x0).pending = x0.pending := by
  unfold State.startThermal; simp [apply_ite State.pending]

@[simp] theorem State.reachReady_pending (x0 : State) (x1 : StartEnv) (x2 x3 : Bool) :
    (State.reachReady x0 x1 x2 x3).pending = x0.pending := by
  unfold State.reachReady
  (repeat' first | rfl | assumption | split | intro _ _
                 | rw [foldl_pending] | rw [foldl_fst_pending] | rw [foldl_io_pending] | rw [foldl_walk_pending] | simp)

@[simp] theorem State.readyStep_pending (x0 : State) (x1 : StartEnv) (x2 x3 : Bool) :
    (State.readyStep x0 x1 x2 x3).pending = x0.pending := by
  unfold State.readyStep
  (repeat' first | rfl | assumption | split | intro _ _
                 | rw [foldl_pending] | rw [foldl_fst_pending] | rw [foldl_io_pending] | rw [foldl_walk_pending] | simp)

@[simp] theorem State.markInterrupted_pending (x0 : State) : (State.markInterrupted x0).pending = x0.pending := by
  unfold State.markInterrupted; simp

@[simp] theorem State.lastSteps_pending (x0 : State) (x1 : StartEnv) (x2 x3 x4 : Bool) :
    (State.lastSteps x0 x1 x2 x3 x4).pending = x0.pending := by
  unfold State.lastSteps; simp [apply_ite State.pending]

@[simp] theorem State.markLane_pending (x0 : State) (x1 x2 : Nat) : (State.markLane x0 x1 x2).pending = x0.pending := by
  unfold State.markLane; simp [apply_ite State.pending]

@[simp] theorem State.applyRepair_pending (x0 : State) (x1 : RepairEntry) :
    (State.applyRepair x0 x1).pending = x0.pending := by
  unfold State.applyRepair; simp [apply_ite State.pending]

@[simp] theorem State.countBadEntries_pending (x0 : State) : (State.countBadEntries x0).pending = x0.pending := by
  unfold State.countBadEntries; simp

@[simp] theorem State.settlePending_pending (x0 : State) : (State.settlePending x0).pending = x0.pending := by
  unfold State.settlePending; simp [apply_ite State.pending]

@[simp] theorem State.repairRecord_pending (x0 : State) : (State.repairRecord x0).pending = x0.pending := by
  unfold State.repairRecord; simp

@[simp] theorem State.tsvFails_pending (x0 : State) (x1 x2 : Nat) : (State.tsvFails x0 x1 x2).pending = x0.pending := by
  unfold State.tsvFails; simp [apply_ite State.pending]

@[simp] theorem State.caTsvFails_pending (x0 : State) (x1 x2 : Nat) :
    (State.caTsvFails x0 x1 x2).pending = x0.pending := by
  unfold State.caTsvFails; simp [apply_ite State.pending]

@[simp] theorem State.trainStack_pending (x0 : State) (x1 : StartEnv) (x2 : List (Nat × Nat)) :
    (State.trainStack x0 x1 x2).pending = x0.pending := by
  unfold State.trainStack; simp [apply_ite State.pending]

@[simp] theorem State.subsetResult_pending (x0 : State) (x1 : Nat) (x2 x3 : List BistFailure) (x4 : List Nat) :
    (State.subsetResult x0 x1 x2 x3 x4).pending = x0.pending := by
  unfold State.subsetResult; simp

@[simp] theorem State.sensorTest_pending (x0 : State) (x1 : List BistFailure) :
    (State.sensorTest x0 x1).pending = x0.pending := by
  unfold State.sensorTest; simp [apply_ite State.pending]

@[simp] theorem State.stackTests_pending (x0 : State) (x1 : StartEnv) :
    (State.stackTests x0 x1).pending = x0.pending := by
  unfold State.stackTests; simp [apply_ite State.pending]

@[simp] theorem State.holdBist_pending (x0 : State) (x1 : Nat) (x2 x3 : Bool) (x4 : StartRun) :
    (State.holdBist x0 x1 x2 x3 x4).pending = x0.pending := by
  unfold State.holdBist
  (repeat' first | rfl | assumption | split | intro _ _
                 | rw [foldl_pending] | rw [foldl_fst_pending] | rw [foldl_io_pending] | rw [foldl_walk_pending] | simp)

@[simp] theorem State.releaseBist_pending (x0 : State) : (State.releaseBist x0).pending = x0.pending := by
  unfold State.releaseBist; simp

@[simp] theorem State.stackStep_pending (x0 : State) (x1 : StartEnv) (x2 x3 : Bool) :
    (State.stackStep x0 x1 x2 x3).pending = x0.pending := by
  unfold State.stackStep; dsimp only; (repeat' split) <;> simp [apply_ite State.pending]

@[simp] theorem State.loadImage_pending (x0 : State) (x1 : StartEnv) (x2 : Nat) :
    (State.loadImage x0 x1 x2).1.pending = x0.pending := by
  unfold State.loadImage; (repeat' split) <;> simp

@[simp] theorem State.afterImage_pending (x0 : State) (x1 : StartEnv) (x2 x3 x4 : Bool) :
    (State.afterImage x0 x1 x2 x3 x4).pending = x0.pending := by
  unfold State.afterImage; simp [apply_ite State.pending]; grind [State.afterImage, State.countBadEntries_pending,
      State.endStart_pending, State.lastSteps_pending, State.settlePending_pending, State.stackStep_pending,
      State.trainOnce_pending]

@[simp] theorem State.imageLoad_pending (x0 : State) (x1 : StartEnv) (x2 x3 x4 : Bool) :
    (State.imageLoad x0 x1 x2 x3 x4).pending = x0.pending := by
  unfold State.imageLoad; simp [apply_ite State.pending]; grind [State.imageLoad, State.afterImage_pending,
      State.loadImage_pending, State.set_pending]

@[simp] theorem State.imageStep_pending (x0 : State) (x1 : StartEnv) (x2 x3 x4 : Bool) :
    (State.imageStep x0 x1 x2 x3 x4).pending = x0.pending := by
  grind [State.imageStep, State.endStart_pending, State.imageLoad_pending, State.set_pending, State.trainOnce_pending,
      State.waitStart_pending]

@[simp] theorem State.logicTests_pending (x0 : State) (x1 : StartEnv) :
    (State.logicTests x0 x1).1.pending = x0.pending := by
  unfold State.logicTests
  (repeat' first | rfl | assumption | split | intro _ _
                 | rw [foldl_pending] | rw [foldl_fst_pending] | rw [foldl_io_pending] | rw [foldl_walk_pending] | simp)

@[simp] theorem State.headerStep_pending (x0 : State) (x1 : StartEnv) :
    (State.headerStep x0 x1).1.pending = x0.pending := by
  unfold State.headerStep; simp [apply_ite State.pending]; grind [State.headerStep, State.set_pending]

@[simp] theorem State.pllsUp_pending (x0 : State) : (State.pllsUp x0).pending = x0.pending := by
  unfold State.pllsUp; simp

@[simp] theorem State.pllsFail_pending (x0 : State) : (State.pllsFail x0).pending = x0.pending := by
  unfold State.pllsFail; simp

@[simp] theorem State.linkStep_pending (x0 : State) (x1 : StartEnv) (x2 : Bool) (x3 : Option (Nat × Nat)) :
    (State.linkStep x0 x1 x2 x3).pending = x0.pending := by
  unfold State.linkStep; simp [apply_ite State.pending]; grind [State.linkStep, State.calRead_pending,
      State.chooseSlot_pending, State.endStart_pending, State.imageStep_pending, State.recoveryMode_pending,
      State.set_pending]

@[simp] theorem State.clockStep_pending (x0 : State) (x1 : StartEnv) (x2 : Option (Nat × Nat)) :
    (State.clockStep x0 x1 x2).pending = x0.pending := by
  unfold State.clockStep; simp [apply_ite State.pending]

@[simp] theorem State.testStep_pending (x0 : State) (x1 : StartEnv) : (State.testStep x0 x1).pending = x0.pending := by
  unfold State.testStep; simp [apply_ite State.pending]

@[simp] theorem State.firstTemps_pending (x0 : State) (x1 : List Nat) :
    (State.firstTemps x0 x1).pending = x0.pending := by
  unfold State.firstTemps; simp

@[simp] theorem State.showMbox_pending (x0 : State) : (State.showMbox x0).pending = x0.pending := by
  unfold State.showMbox
  (repeat' first | rfl | assumption | split | intro _ _
                 | rw [foldl_pending] | rw [foldl_fst_pending] | rw [foldl_io_pending] | rw [foldl_walk_pending] | simp)

@[simp] theorem State.coldBase_pending (x0 : State) (x1 : StartEnv) : (State.coldBase x0 x1).pending = x0.pending := by
  unfold State.coldBase; simp [apply_ite State.pending]

@[simp] theorem State.coreLossRecord_pending (x0 : State) : (State.coreLossRecord x0).pending = x0.pending := by
  unfold State.coreLossRecord; (repeat' split) <;> simp

@[simp] theorem State.scrap_pending (x0 : State) : (State.scrap x0).pending = x0.pending := by
  unfold State.scrap; simp [apply_ite State.pending]

@[simp] theorem State.otpSteps_pending (x0 : State) (x1 : StartEnv) : (State.otpSteps x0 x1).pending = x0.pending := by
  unfold State.otpSteps; simp [apply_ite State.pending]

@[simp] theorem State.coldStart_pending (x0 : State) (x1 : StartEnv) :
    (State.coldStart x0 x1).pending = x0.pending := by
  unfold State.coldStart; simp

@[simp] theorem State.perst_pending (x0 : State) : (State.perst x0).pending = x0.pending := by
  unfold State.perst; simp [apply_ite State.pending]

@[simp] theorem State.settlePerst_pending (x0 : State) : (State.settlePerst x0).pending = x0.pending := by
  unfold State.settlePerst; dsimp only; rw [foldl_pending, foldl_pending]
  · intro b x; split <;> simp
  · intro b x; simp

@[simp] theorem State.interruptRing_pending (x0 : State) (x1 : Nat) :
    (State.interruptRing x0 x1).pending = x0.pending := by
  unfold State.interruptRing; simp

@[simp] theorem State.warmRings_pending (x0 : State) (x1 : Bool) : (State.warmRings x0 x1).pending = x0.pending := by
  unfold State.warmRings; simp [apply_ite State.pending]

@[simp] theorem State.warmTarn_pending (x0 : State) (x1 : Bool) : (State.warmTarn x0 x1).pending = x0.pending := by
  unfold State.warmTarn; simp [apply_ite State.pending]

@[simp] theorem State.warmParts_pending (x0 : State) : (State.warmParts x0).pending = x0.pending := by
  unfold State.warmParts; simp

@[simp] theorem State.warmReset_pending (x0 : State) (x1 : StartEnv) (x2 x3 : Bool) :
    (State.warmReset x0 x1 x2 x3).pending = x0.pending := by
  unfold State.warmReset; simp [apply_ite State.pending]

@[simp] theorem State.warmLink_pending (x0 : State) (x1 : StartEnv) (x2 : Option Nat) (x3 x4 : Bool) :
    (State.warmLink x0 x1 x2 x3 x4).pending = x0.pending := by
  grind [State.warmLink, State.endStart_pending, State.imageStep_pending, State.pllsFail_pending,
      State.pllsUp_pending, State.recoveryMode_pending, State.set_pending]

@[simp] theorem State.warmStart_pending (x0 : State) (x1 : StartEnv) :
    (State.warmStart x0 x1).pending = x0.pending := by
  grind [State.warmStart, State.chooseSlot_pending, State.raise_pending, State.set_pending, State.settlePerst_pending,
      State.warmLink_pending, State.warmReset_pending]

@[simp] theorem State.imageGo_pending (x0 : State) (x1 : StartRun) : (State.imageGo x0 x1).pending = x0.pending := by
  unfold State.imageGo; (repeat' split) <;> simp_all <;> grind [State.imageGo, State.imageLoad_pending,
      State.set_pending, State.warmRings_pending]

@[simp] theorem State.resumeStart_pending (x0 : State) : (State.resumeStart x0).pending = x0.pending := by
  unfold State.resumeStart; (repeat' split) <;> simp

@[simp] theorem State.countSome_pending (x0 : State) (x1 x2 x3 x4 : Nat) :
    (State.countSome x0 x1 x2 x3 x4).pending = x0.pending := by
  unfold State.countSome; simp [apply_ite State.pending]

@[simp] theorem State.countTime_pending (x0 : State) : (State.countTime x0).pending = x0.pending := by
  unfold State.countTime; simp

@[simp] theorem State.countPayload_pending (x0 : State) : (State.countPayload x0).pending = x0.pending := by
  unfold State.countPayload; simp

@[simp] theorem State.countMicro_pending (x0 : State) : (State.countMicro x0).pending = x0.pending := by
  unfold State.countMicro; simp [apply_ite State.pending]

@[simp] theorem State.tick_pending (x0 : State) : (State.tick x0).pending = x0.pending := by
  unfold State.tick; simp [apply_ite State.pending]

@[simp] theorem State.fatalCheck_pending (x0 : State) : (State.fatalCheck x0).pending = x0.pending := by
  unfold State.fatalCheck; simp [apply_ite State.pending]

@[simp] theorem State.nextStart_pending (x0 : State) (x1 : StartEnv) :
    (State.nextStart x0 x1).pending = x0.pending := by
  unfold State.nextStart; simp [apply_ite State.pending]

@[simp] theorem State.rampEnd_pending (x0 : State) (x1 : StartEnv) : (State.rampEnd x0 x1).pending = x0.pending := by
  unfold State.rampEnd; simp

@[simp] theorem State.linkLost_pending (x0 : State) : (State.linkLost x0).pending = x0.pending := by
  unfold State.linkLost; simp

@[simp] theorem State.linkUp_pending (x0 : State) (x1 : TrainResult) : (State.linkUp x0 x1).pending = x0.pending := by
  grind [State.linkUp, State.resumeStart_pending, State.train_pending, State.withFatal_pending]

@[simp] theorem State.railUp_pending (x0 : State) (x1 : Bool) : (State.railUp x0 x1).pending = x0.pending := by
  unfold State.railUp; simp [apply_ite State.pending]

@[simp] theorem State.watchdog_pending (x0 : State) : (State.watchdog x0).pending = x0.pending := by
  unfold State.watchdog; (repeat' split) <;> simp

@[simp] theorem State.stackRailExpire_pending (x0 : State) : (State.stackRailExpire x0).pending = x0.pending := by
  unfold State.stackRailExpire; (repeat' split) <;> simp

@[simp] theorem State.resumeLimits_pending (x0 : State) : (State.resumeLimits x0).pending = x0.pending := by
  unfold State.resumeLimits; (repeat' split) <;> simp

@[simp] theorem State.idle_pending (x0 : State) : (State.idle x0).pending = x0.pending := by
  unfold State.idle
  (repeat' first | rfl | assumption | split | intro _ _
                 | rw [foldl_pending] | rw [foldl_fst_pending] | rw [foldl_io_pending] | rw [foldl_walk_pending] | simp)

@[simp] theorem State.flashEnds_pending (x0 : State) (x1 : Nat) : (State.flashEnds x0 x1).pending = x0.pending := by
  unfold State.flashEnds; simp

@[simp] theorem State.flashGo_pending (x0 : State) (x1 : Nat) : (State.flashGo x0 x1).pending = x0.pending := by
  unfold State.flashGo; simp [apply_ite State.pending]

@[simp] theorem State.flashBuffer_pending (x0 : State) (x1 : List Byte) :
    (State.flashBuffer x0 x1).pending = x0.pending := by
  unfold State.flashBuffer; simp

@[simp] theorem State.flashDoes_pending (x0 : State) (x1 : FlashOp) : (State.flashDoes x0 x1).pending = x0.pending := by
  unfold State.flashDoes; simp [apply_ite State.pending]

@[simp] theorem State.flashDone_pending (x0 : State) (x1 : Bool) : (State.flashDone x0 x1).pending = x0.pending := by
  unfold State.flashDone; (repeat' split) <;> simp

@[simp] theorem State.clearBad_pending (x0 : State) : (State.clearBad x0).pending = x0.pending := by
  unfold State.clearBad; simp

@[simp] theorem State.sideband_pending (x0 : State) (x1 : State → List Byte) :
    (State.sideband x0 x1).pending = x0.pending := by
  unfold State.sideband; simp [apply_ite State.pending]

@[simp] theorem State.bar2Hole_pending (x0 : State) (x1 : Nat) (x2 : Bool) :
    (State.bar2Hole x0 x1 x2).pending = x0.pending := by
  grind [State.bar2Hole, State.raise_pending, State.respondUr_pending, State.satInc_pending, State.set_pending]

@[simp] theorem State.bar2Open_pending (x0 : State) (x1 : Nat) (x2 : Bool) (x3 : State → State) (h_x3 : ∀ a0, (x3
    a0).pending = a0.pending) :
    (State.bar2Open x0 x1 x2 x3).pending = x0.pending := by
  unfold State.bar2Open; (repeat' split) <;> simp_all

@[simp] theorem State.bar2Serve_pending (x0 : State) (x1 : Nat) (x2 : List (Nat × Nat × Nat)) :
    (State.bar2Serve x0 x1 x2).pending = x0.pending := by
  unfold State.bar2Serve; (repeat' split) <;> simp_all <;> grind [State.bar2Serve, State.portSend_pending]

@[simp] theorem State.bar2Read_pending (x0 : State) (x1 x2 x3 x4 : Nat) :
    (State.bar2Read x0 x1 x2 x3 x4).pending = x0.pending := by
  grind [State.bar2Read, State.bar2Hole_pending, State.bar2Open_pending, State.bar2Serve_pending,
      State.portSend_pending, State.raiseMax_pending, State.respondUr_pending]

@[simp] theorem State.bar2Store_pending (x0 : State) (x1 : List (Nat × Nat × Nat)) (x2 : Nat) (x3 : List Byte) (x4 :
    Bool) :
    (State.bar2Store x0 x1 x2 x3 x4).pending = x0.pending := by
  unfold State.bar2Store; simp

@[simp] theorem State.bar2Write_pending (x0 : State) (x1 x2 : Nat) (x3 : List Byte) (x4 : Bool) :
    (State.bar2Write x0 x1 x2 x3 x4).pending = x0.pending := by
  grind [State.bar2Write, State.aerAdvisoryNonFatal_pending, State.bar2Hole_pending, State.bar2Open_pending,
      State.bar2Store_pending, State.received_pending, State.respondUr_pending, State.set_pending]

@[simp] theorem State.setPass_pending (x0 : State) (x1 : Pass) : (State.setPass x0 x1).pending = x0.pending := by
  unfold State.setPass; simp

@[simp] theorem State.dropPass_pending (x0 : State) (x1 : Pass) : (State.dropPass x0 x1).pending = x0.pending := by
  unfold State.dropPass; simp

@[simp] theorem State.dredgePiece_pending (x0 : State) : (State.dredgePiece x0).pending = x0.pending := by
  grind [State.dredgePiece, State.putJob_pending, State.recIssue_pending, State.setPass_pending]

@[simp] theorem State.sliceWrite_pending (x0 : State) (x1 x2 : Nat) (x3 : LakeLine) (x4 : Sector) :
    (State.sliceWrite x0 x1 x2 x3 x4).pending = x0.pending := by
  unfold State.sliceWrite; simp

@[simp] theorem State.dredgeRequest_pending (x0 : State) (x1 : Pass) (x2 x3 : Nat) (x4 : Bool) :
    (State.dredgeRequest x0 x1 x2 x3 x4).pending = x0.pending := by
  unfold State.dredgeRequest; simp [apply_ite State.pending]

@[simp] theorem State.dredgeRead_pending (x0 : State) (x1 : Pass) (x2 x3 : Nat) (x4 x5 : List Byte) :
    (State.dredgeRead x0 x1 x2 x3 x4 x5).1.pending = x0.pending := by
  grind [State.dredgeRead, State.arrayWrite_pending, State.count_pending, State.countDecode_pending,
      State.dredgeRequest_pending, State.lineUe_pending, State.satInc_pending, State.sliceWrite_pending]

@[simp] theorem State.pieceEnd_pending (x0 : State) (x1 : Pass) : (State.pieceEnd x0 x1).pending = x0.pending := by
  grind [State.pieceEnd, State.putJob_pending, State.unitDone_pending]

@[simp] theorem State.dredgeLine_pending (x0 : State) (x1 x2 : List Byte) :
    (State.dredgeLine x0 x1 x2).pending = x0.pending := by
  grind [State.dredgeLine, State.dredgeRead_pending, State.pieceEnd_pending, State.setPass_pending]

@[simp] theorem State.dredgeGo_pending (x0 : State) : (State.dredgeGo x0).pending = x0.pending := by
  unfold State.dredgeGo; simp [apply_ite State.pending]

@[simp] theorem State.dredgeStop_pending (x0 : State) : (State.dredgeStop x0).pending = x0.pending := by
  unfold State.dredgeStop; simp

@[simp] theorem State.dredgeDone_pending (x0 : State) : (State.dredgeDone x0).pending = x0.pending := by
  unfold State.dredgeDone; (repeat' split) <;> simp_all <;> grind [State.dredgeDone, State.dropPass_pending,
      State.putJob_pending, State.raise_pending, State.set_pending, State.writeOut_pending]

@[simp] theorem State.dredgeRoundDone_pending (x0 : State) : (State.dredgeRoundDone x0).pending = x0.pending := by
  unfold State.dredgeRoundDone; (repeat' split) <;> simp

@[simp] theorem State.readEffect_pending (x0 : State) (x1 : Nat) (x2 : FN) (x3 x4 : Nat) :
    (State.readEffect x0 x1 x2 x3 x4).pending = x0.pending := by
  unfold State.readEffect; (repeat' split) <;> simp

@[simp] theorem State.readReg_pending (x0 : State) (x1 x2 x3 : Nat) :
    (State.readReg x0 x1 x2 x3).1.pending = x0.pending := by
  unfold State.readReg; simp

@[simp] theorem State.bar0Read_pending (x0 : State) (x1 x2 x3 x4 x5 : Nat) :
    (State.bar0Read x0 x1 x2 x3 x4 x5).pending = x0.pending := by
  unfold State.bar0Read; simp [apply_ite State.pending]

@[simp] theorem State.bar4Read_pending (x0 : State) (x1 x2 x3 x4 : Nat) :
    (State.bar4Read x0 x1 x2 x3 x4).pending = x0.pending := by
  unfold State.bar4Read; (repeat' split) <;> simp

@[simp] theorem State.staticReport_pending (x0 : State) (x1 : FN) (x2 : Nat) :
    (State.staticReport x0 x1 x2).pending = x0.pending := by
  grind [State.staticReport, State.raise_pending, State.ringReject_pending, State.set_pending]

@[simp] theorem State.pendAdmission_pending (x0 : State) (x1 : Nat) :
    (State.pendAdmission x0 x1).pending = x0.pending := by
  unfold State.pendAdmission; simp [apply_ite State.pending]

@[simp] theorem State.mboxWriteGo_pending (x0 : State) : (State.mboxWriteGo x0).pending = x0.pending := by
  unfold State.mboxWriteGo; simp

@[simp] theorem State.vfSelect_pending (x0 : State) (x1 x2 x3 : Nat) :
    (State.vfSelect x0 x1 x2 x3).pending = x0.pending := by
  unfold State.vfSelect; simp [apply_ite State.pending]

@[simp] theorem State.msixRescan_pending (x0 : State) (x1 : Nat) : (State.msixRescan x0 x1).pending = x0.pending := by
  unfold State.msixRescan; simp

@[simp] theorem State.powerState_pending (x0 : State) (x1 : Nat) : (State.powerState x0 x1).pending = x0.pending := by
  unfold State.powerState; simp [apply_ite State.pending]

@[simp] theorem State.writeNumVfs_pending (x0 : State) (x1 : Nat) : (State.writeNumVfs x0 x1).pending = x0.pending := by
  unfold State.writeNumVfs; simp [apply_ite State.pending]

@[simp] theorem State.writeField_pending (x0 : State) (x1 x2 x3 : Nat) (x4 : FN) (x5 x6 : Nat) :
    (State.writeField x0 x1 x2 x3 x4 x5 x6).pending = x0.pending := by
  unfold State.writeField; dsimp only; split <;> (try split) <;> simp [apply_ite State.pending]

@[simp] theorem State.writeReg_pending (x0 : State) (x1 x2 x3 x4 : Nat) :
    (State.writeReg x0 x1 x2 x3 x4).pending = x0.pending := by
  unfold State.writeReg; simp [apply_ite State.pending]; grind [State.writeReg, State.staticReport_pending,
      State.writeField_pending]

@[simp] theorem State.narrowWrite_pending (x0 : State) : (State.narrowWrite x0).pending = x0.pending := by
  grind [State.narrowWrite, State.raise_pending, State.set_pending]

@[simp] theorem State.bar0Write_pending (x0 : State) (x1 x2 : Nat) (x3 : List Byte) (x4 : Nat) :
    (State.bar0Write x0 x1 x2 x3 x4).pending = x0.pending := by
  unfold State.bar0Write; simp [apply_ite State.pending]

@[simp] theorem State.configRequest_pending (x0 : State) (x1 x2 x3 : Nat) (x4 : State → State) (h_x4 : ∀ a0, (x4
    a0).pending = a0.pending) :
    (State.configRequest x0 x1 x2 x3 x4).pending = x0.pending := by
  unfold State.configRequest; (repeat' split) <;> simp_all

@[simp] theorem State.configRead_pending (x0 : State) (x1 x2 x3 : Nat) :
    (State.configRead x0 x1 x2 x3).pending = x0.pending := by
  unfold State.configRead; simp [apply_ite State.pending]

@[simp] theorem State.hostRead_pending (x0 : State) (x1 : Space) (x2 x3 x4 x5 x6 : Nat) :
    (State.hostRead x0 x1 x2 x3 x4 x5 x6).pending = x0.pending := by
  unfold State.hostRead; (repeat' split) <;> simp

@[simp] theorem State.configWrite_pending (x0 : State) (x1 x2 : Nat) (x3 : List Byte) (x4 : Nat) :
    (State.configWrite x0 x1 x2 x3 x4).pending = x0.pending := by
  unfold State.configWrite; simp [apply_ite State.pending]

@[simp] theorem State.doorbellWrite_pending (x0 : State) (x1 x2 : Nat) (x3 : List Byte) :
    (State.doorbellWrite x0 x1 x2 x3).pending = x0.pending := by
  unfold State.doorbellWrite; simp [apply_ite State.pending]

@[simp] theorem State.bar4Write_pending (x0 : State) (x1 x2 : Nat) (x3 : List Byte) :
    (State.bar4Write x0 x1 x2 x3).pending = x0.pending := by
  unfold State.bar4Write; (repeat' split) <;> simp

@[simp] theorem State.registerWrite_pending (x0 : State) (x1 : Space) (x2 x3 : Nat) (x4 : List Byte) (x5 : Bool) (x6 :
    Nat) :
    (State.registerWrite x0 x1 x2 x3 x4 x5 x6).pending = x0.pending := by
  unfold State.registerWrite; (repeat' split) <;> simp

@[simp] theorem State.boundaryField_pending (x0 : State) (x1 : FN) (x2 x3 : Nat) :
    (State.boundaryField x0 x1 x2 x3).pending = x0.pending := by
  unfold State.boundaryField; (repeat' split) <;> simp

@[simp] theorem State.windowError_pending (x0 : State) (x1 : Nat) : (State.windowError x0 x1).pending = x0.pending := by
  unfold State.windowError; simp

@[simp] theorem State.retryStalls_pending (x0 : State) (x1 x2 : Nat) :
    (State.retryStalls x0 x1 x2).pending = x0.pending := by
  unfold State.retryStalls
  (repeat' first | rfl | assumption | split | intro _ _
                 | rw [foldl_pending] | rw [foldl_fst_pending] | rw [foldl_io_pending] | rw [foldl_walk_pending] | simp)

@[simp] theorem State.eddyEnable_pending (x0 : State) (x1 x2 x3 x4 : Nat) (x5 : Bool) :
    (State.eddyEnable x0 x1 x2 x3 x4 x5).pending = x0.pending := by
  unfold State.eddyEnable; simp [apply_ite State.pending]

@[simp] theorem State.eddyAccess_pending (x0 : State) (x1 x2 x3 x4 : Nat) (x5 : Option (List Byte)) (x6 : Bool) :
    (State.eddyAccess x0 x1 x2 x3 x4 x5 x6).pending = x0.pending := by
  unfold State.eddyAccess; (repeat' split) <;> grind [State.eddyAccess, State.fenceEngine_pending,
      State.scratchWriteGo_pending, State.setEddy_pending]

@[simp] theorem State.eddyConsume_pending (x0 : State) (x1 x2 x3 : Nat) :
    (State.eddyConsume x0 x1 x2 x3).pending = x0.pending := by
  unfold State.eddyConsume; simp [apply_ite State.pending]

@[simp] theorem State.eddyCommit_pending (x0 : State) (x1 x2 x3 : Nat) :
    (State.eddyCommit x0 x1 x2 x3).pending = x0.pending := by
  unfold State.eddyCommit; simp [apply_ite State.pending]

@[simp] theorem State.eddyClear_pending (x0 : State) (x1 x2 : Nat) :
    (State.eddyClear x0 x1 x2).pending = x0.pending := by
  unfold State.eddyClear; simp

@[simp] theorem State.packFlush_pending (x0 : State) (x1 : Nat) : (State.packFlush x0 x1).pending = x0.pending := by
  unfold State.packFlush; simp [apply_ite State.pending]

@[simp] theorem State.packFlushDone_pending (x0 : State) (x1 : Nat) :
    (State.packFlushDone x0 x1).pending = x0.pending := by
  grind [State.packFlushDone, State.packPump_pending, State.setPack_pending]

@[simp] theorem State.lakeArrive_pending (x0 : State) (x1 x2 x3 x4 : Nat) (x5 : LakeAccess) :
    (State.lakeArrive x0 x1 x2 x3 x4 x5).pending = x0.pending := by
  unfold State.lakeArrive; (repeat' split) <;> simp

@[simp] theorem State.wordFailed_pending (x0 : State) (x1 x2 x3 : Nat) :
    (State.wordFailed x0 x1 x2 x3).pending = x0.pending := by
  grind [State.wordFailed, State.failUnit_pending, State.packAccepted_pending, State.putJob_pending]

@[simp] theorem State.lakeRequest_pending (x0 : State) (x1 x2 x3 x4 : Nat) (x5 : LakeAccess) :
    (State.lakeRequest x0 x1 x2 x3 x4 x5).pending = x0.pending := by
  unfold State.lakeRequest; (repeat' split) <;> simp_all <;> grind [State.lakeRequest, State.lakeArrive_pending,
      State.wordFailed_pending]

@[simp] theorem State.withFetchWord_pending (x0 : State) (x1 x2 : Nat) :
    (State.withFetchWord x0 x1 x2).pending = x0.pending := by
  rfl

end Sys2Proof.Machine
end

