-- ==== Sys2Proof/Laws/State.lean ====
section
/-! SUPPORT. What each named update of the state leaves: one lemma per field per update (the queue's are in Laws/Queue.lean),
and the register file's reads after it. -/

namespace Sys2Proof.Machine

/-! ### State.set -/

@[simp] theorem State.set_inForce (s : State) (f : FN) (v i j : Nat) : (s.set f v i j).inForce = s.inForce := rfl
@[simp] theorem State.set_timer (s : State) (f : FN) (v i j : Nat) : (s.set f v i j).timer = s.timer := rfl
@[simp] theorem State.set_aonTime (s : State) (f : FN) (v i j : Nat) : (s.set f v i j).aonTime = s.aonTime := rfl
@[simp] theorem State.set_freeCtr (s : State) (f : FN) (v i j : Nat) : (s.set f v i j).freeCtr = s.freeCtr := rfl
@[simp] theorem State.set_out (s : State) (f : FN) (v i j : Nat) : (s.set f v i j).out = s.out := rfl
@[simp] theorem State.set_collector (s : State) (f : FN) (v i j : Nat) : (s.set f v i j).collector = s.collector := rfl
@[simp] theorem State.set_events (s : State) (f : FN) (v i j : Nat) : (s.set f v i j).events = s.events := rfl
@[simp] theorem State.set_counters (s : State) (f : FN) (v i j : Nat) : (s.set f v i j).counters = s.counters := rfl
@[simp] theorem State.set_lake (s : State) (f : FN) (v i j : Nat) : (s.set f v i j).lake = s.lake := rfl
@[simp] theorem State.set_eddies (s : State) (f : FN) (v i j : Nat) : (s.set f v i j).eddies = s.eddies := rfl
@[simp] theorem State.set_stalls (s : State) (f : FN) (v i j : Nat) : (s.set f v i j).stalls = s.stalls := rfl
@[simp] theorem State.set_scratch (s : State) (f : FN) (v i j : Nat) : (s.set f v i j).scratch = s.scratch := rfl
@[simp] theorem State.set_packs (s : State) (f : FN) (v i j : Nat) : (s.set f v i j).packs = s.packs := rfl
@[simp] theorem State.set_dram (s : State) (f : FN) (v i j : Nat) : (s.set f v i j).dram = s.dram := rfl
@[simp] theorem State.set_vlink (s : State) (f : FN) (v i j : Nat) : (s.set f v i j).vlink = s.vlink := rfl
@[simp] theorem State.set_dredge (s : State) (f : FN) (v i j : Nat) : (s.set f v i j).dredge = s.dredge := rfl
@[simp] theorem State.set_retire (s : State) (f : FN) (v i j : Nat) : (s.set f v i j).retire = s.retire := rfl
@[simp] theorem State.set_flash (s : State) (f : FN) (v i j : Nat) : (s.set f v i j).flash = s.flash := rfl
@[simp] theorem State.set_cal (s : State) (f : FN) (v i j : Nat) : (s.set f v i j).cal = s.cal := rfl
@[simp] theorem State.set_image (s : State) (f : FN) (v i j : Nat) : (s.set f v i j).image = s.image := rfl
@[simp] theorem State.set_weirs (s : State) (f : FN) (v i j : Nat) : (s.set f v i j).weirs = s.weirs := rfl
@[simp] theorem State.set_pcie (s : State) (f : FN) (v i j : Nat) : (s.set f v i j).pcie = s.pcie := rfl
@[simp] theorem State.set_jobUnit (s : State) (f : FN) (v i j : Nat) : (s.set f v i j).jobUnit = s.jobUnit := rfl
@[simp] theorem State.set_ponds (s : State) (f : FN) (v i j : Nat) : (s.set f v i j).ponds = s.ponds := rfl
@[simp] theorem State.set_seals (s : State) (f : FN) (v i j : Nat) : (s.set f v i j).seals = s.seals := rfl
@[simp] theorem State.set_planSlots (s : State) (f : FN) (v i j : Nat) : (s.set f v i j).planSlots = s.planSlots := rfl
@[simp] theorem State.set_trust (s : State) (f : FN) (v i j : Nat) : (s.set f v i j).trust = s.trust := rfl
@[simp] theorem State.set_fuses (s : State) (f : FN) (v i j : Nat) : (s.set f v i j).fuses = s.fuses := rfl
@[simp] theorem State.set_bist (s : State) (f : FN) (v i j : Nat) : (s.set f v i j).bist = s.bist := rfl
@[simp] theorem State.set_thermal (s : State) (f : FN) (v i j : Nat) : (s.set f v i j).thermal = s.thermal := rfl
@[simp] theorem State.set_boot (s : State) (f : FN) (v i j : Nat) : (s.set f v i j).boot = s.boot := rfl

/-! ### State.setB -/

@[simp] theorem State.setB_timer (s : State) (f : FN) (v i j : Nat) : (s.setB f v i j).timer = s.timer := rfl
@[simp] theorem State.setB_aonTime (s : State) (f : FN) (v i j : Nat) : (s.setB f v i j).aonTime = s.aonTime := rfl
@[simp] theorem State.setB_freeCtr (s : State) (f : FN) (v i j : Nat) : (s.setB f v i j).freeCtr = s.freeCtr := rfl
@[simp] theorem State.setB_out (s : State) (f : FN) (v i j : Nat) : (s.setB f v i j).out = s.out := rfl
@[simp] theorem State.setB_collector (s : State) (f : FN) (v i j : Nat) : (s.setB f v i j).collector = s.collector := rfl
@[simp] theorem State.setB_events (s : State) (f : FN) (v i j : Nat) : (s.setB f v i j).events = s.events := rfl
@[simp] theorem State.setB_counters (s : State) (f : FN) (v i j : Nat) : (s.setB f v i j).counters = s.counters := rfl
@[simp] theorem State.setB_lake (s : State) (f : FN) (v i j : Nat) : (s.setB f v i j).lake = s.lake := rfl
@[simp] theorem State.setB_eddies (s : State) (f : FN) (v i j : Nat) : (s.setB f v i j).eddies = s.eddies := rfl
@[simp] theorem State.setB_stalls (s : State) (f : FN) (v i j : Nat) : (s.setB f v i j).stalls = s.stalls := rfl
@[simp] theorem State.setB_scratch (s : State) (f : FN) (v i j : Nat) : (s.setB f v i j).scratch = s.scratch := rfl
@[simp] theorem State.setB_packs (s : State) (f : FN) (v i j : Nat) : (s.setB f v i j).packs = s.packs := rfl
@[simp] theorem State.setB_dram (s : State) (f : FN) (v i j : Nat) : (s.setB f v i j).dram = s.dram := rfl
@[simp] theorem State.setB_vlink (s : State) (f : FN) (v i j : Nat) : (s.setB f v i j).vlink = s.vlink := rfl
@[simp] theorem State.setB_dredge (s : State) (f : FN) (v i j : Nat) : (s.setB f v i j).dredge = s.dredge := rfl
@[simp] theorem State.setB_retire (s : State) (f : FN) (v i j : Nat) : (s.setB f v i j).retire = s.retire := rfl
@[simp] theorem State.setB_flash (s : State) (f : FN) (v i j : Nat) : (s.setB f v i j).flash = s.flash := rfl
@[simp] theorem State.setB_cal (s : State) (f : FN) (v i j : Nat) : (s.setB f v i j).cal = s.cal := rfl
@[simp] theorem State.setB_image (s : State) (f : FN) (v i j : Nat) : (s.setB f v i j).image = s.image := rfl
@[simp] theorem State.setB_weirs (s : State) (f : FN) (v i j : Nat) : (s.setB f v i j).weirs = s.weirs := rfl
@[simp] theorem State.setB_pcie (s : State) (f : FN) (v i j : Nat) : (s.setB f v i j).pcie = s.pcie := rfl
@[simp] theorem State.setB_jobUnit (s : State) (f : FN) (v i j : Nat) : (s.setB f v i j).jobUnit = s.jobUnit := rfl
@[simp] theorem State.setB_ponds (s : State) (f : FN) (v i j : Nat) : (s.setB f v i j).ponds = s.ponds := rfl
@[simp] theorem State.setB_seals (s : State) (f : FN) (v i j : Nat) : (s.setB f v i j).seals = s.seals := rfl
@[simp] theorem State.setB_planSlots (s : State) (f : FN) (v i j : Nat) : (s.setB f v i j).planSlots = s.planSlots := rfl
@[simp] theorem State.setB_trust (s : State) (f : FN) (v i j : Nat) : (s.setB f v i j).trust = s.trust := rfl
@[simp] theorem State.setB_fuses (s : State) (f : FN) (v i j : Nat) : (s.setB f v i j).fuses = s.fuses := rfl
@[simp] theorem State.setB_bist (s : State) (f : FN) (v i j : Nat) : (s.setB f v i j).bist = s.bist := rfl
@[simp] theorem State.setB_thermal (s : State) (f : FN) (v i j : Nat) : (s.setB f v i j).thermal = s.thermal := rfl
@[simp] theorem State.setB_boot (s : State) (f : FN) (v i j : Nat) : (s.setB f v i j).boot = s.boot := rfl

/-! ### State.applyB -/

@[simp] theorem State.applyB_regs (s : State) (f : FN) (i j : Nat) : (s.applyB f i j).regs = s.regs := rfl
@[simp] theorem State.applyB_timer (s : State) (f : FN) (i j : Nat) : (s.applyB f i j).timer = s.timer := rfl
@[simp] theorem State.applyB_aonTime (s : State) (f : FN) (i j : Nat) : (s.applyB f i j).aonTime = s.aonTime := rfl
@[simp] theorem State.applyB_freeCtr (s : State) (f : FN) (i j : Nat) : (s.applyB f i j).freeCtr = s.freeCtr := rfl
@[simp] theorem State.applyB_out (s : State) (f : FN) (i j : Nat) : (s.applyB f i j).out = s.out := rfl
@[simp] theorem State.applyB_collector (s : State) (f : FN) (i j : Nat) : (s.applyB f i j).collector = s.collector := rfl
@[simp] theorem State.applyB_events (s : State) (f : FN) (i j : Nat) : (s.applyB f i j).events = s.events := rfl
@[simp] theorem State.applyB_counters (s : State) (f : FN) (i j : Nat) : (s.applyB f i j).counters = s.counters := rfl
@[simp] theorem State.applyB_lake (s : State) (f : FN) (i j : Nat) : (s.applyB f i j).lake = s.lake := rfl
@[simp] theorem State.applyB_eddies (s : State) (f : FN) (i j : Nat) : (s.applyB f i j).eddies = s.eddies := rfl
@[simp] theorem State.applyB_stalls (s : State) (f : FN) (i j : Nat) : (s.applyB f i j).stalls = s.stalls := rfl
@[simp] theorem State.applyB_scratch (s : State) (f : FN) (i j : Nat) : (s.applyB f i j).scratch = s.scratch := rfl
@[simp] theorem State.applyB_packs (s : State) (f : FN) (i j : Nat) : (s.applyB f i j).packs = s.packs := rfl
@[simp] theorem State.applyB_dram (s : State) (f : FN) (i j : Nat) : (s.applyB f i j).dram = s.dram := rfl
@[simp] theorem State.applyB_vlink (s : State) (f : FN) (i j : Nat) : (s.applyB f i j).vlink = s.vlink := rfl
@[simp] theorem State.applyB_dredge (s : State) (f : FN) (i j : Nat) : (s.applyB f i j).dredge = s.dredge := rfl
@[simp] theorem State.applyB_retire (s : State) (f : FN) (i j : Nat) : (s.applyB f i j).retire = s.retire := rfl
@[simp] theorem State.applyB_flash (s : State) (f : FN) (i j : Nat) : (s.applyB f i j).flash = s.flash := rfl
@[simp] theorem State.applyB_cal (s : State) (f : FN) (i j : Nat) : (s.applyB f i j).cal = s.cal := rfl
@[simp] theorem State.applyB_image (s : State) (f : FN) (i j : Nat) : (s.applyB f i j).image = s.image := rfl
@[simp] theorem State.applyB_weirs (s : State) (f : FN) (i j : Nat) : (s.applyB f i j).weirs = s.weirs := rfl
@[simp] theorem State.applyB_pcie (s : State) (f : FN) (i j : Nat) : (s.applyB f i j).pcie = s.pcie := rfl
@[simp] theorem State.applyB_jobUnit (s : State) (f : FN) (i j : Nat) : (s.applyB f i j).jobUnit = s.jobUnit := rfl
@[simp] theorem State.applyB_ponds (s : State) (f : FN) (i j : Nat) : (s.applyB f i j).ponds = s.ponds := rfl
@[simp] theorem State.applyB_seals (s : State) (f : FN) (i j : Nat) : (s.applyB f i j).seals = s.seals := rfl
@[simp] theorem State.applyB_planSlots (s : State) (f : FN) (i j : Nat) : (s.applyB f i j).planSlots = s.planSlots := rfl
@[simp] theorem State.applyB_trust (s : State) (f : FN) (i j : Nat) : (s.applyB f i j).trust = s.trust := rfl
@[simp] theorem State.applyB_fuses (s : State) (f : FN) (i j : Nat) : (s.applyB f i j).fuses = s.fuses := rfl
@[simp] theorem State.applyB_bist (s : State) (f : FN) (i j : Nat) : (s.applyB f i j).bist = s.bist := rfl
@[simp] theorem State.applyB_thermal (s : State) (f : FN) (i j : Nat) : (s.applyB f i j).thermal = s.thermal := rfl
@[simp] theorem State.applyB_boot (s : State) (f : FN) (i j : Nat) : (s.applyB f i j).boot = s.boot := rfl
@[simp] theorem State.applyB_get (s : State) (g : FN) (a b : Nat) (f : FN) (i j : Nat) :
    (s.applyB g a b).get f i j = s.get f i j := rfl

/-! ### State.emit -/

@[simp] theorem State.emit_regs (s : State) (o : Out) : (s.emit o).regs = s.regs := rfl
@[simp] theorem State.emit_inForce (s : State) (o : Out) : (s.emit o).inForce = s.inForce := rfl
@[simp] theorem State.emit_timer (s : State) (o : Out) : (s.emit o).timer = s.timer := rfl
@[simp] theorem State.emit_aonTime (s : State) (o : Out) : (s.emit o).aonTime = s.aonTime := rfl
@[simp] theorem State.emit_freeCtr (s : State) (o : Out) : (s.emit o).freeCtr = s.freeCtr := rfl
@[simp] theorem State.emit_collector (s : State) (o : Out) : (s.emit o).collector = s.collector := rfl
@[simp] theorem State.emit_events (s : State) (o : Out) : (s.emit o).events = s.events := rfl
@[simp] theorem State.emit_lake (s : State) (o : Out) : (s.emit o).lake = s.lake := rfl
@[simp] theorem State.emit_eddies (s : State) (o : Out) : (s.emit o).eddies = s.eddies := rfl
@[simp] theorem State.emit_stalls (s : State) (o : Out) : (s.emit o).stalls = s.stalls := rfl
@[simp] theorem State.emit_scratch (s : State) (o : Out) : (s.emit o).scratch = s.scratch := rfl
@[simp] theorem State.emit_packs (s : State) (o : Out) : (s.emit o).packs = s.packs := rfl
@[simp] theorem State.emit_dram (s : State) (o : Out) : (s.emit o).dram = s.dram := rfl
@[simp] theorem State.emit_vlink (s : State) (o : Out) : (s.emit o).vlink = s.vlink := rfl
@[simp] theorem State.emit_dredge (s : State) (o : Out) : (s.emit o).dredge = s.dredge := rfl
@[simp] theorem State.emit_retire (s : State) (o : Out) : (s.emit o).retire = s.retire := rfl
@[simp] theorem State.emit_flash (s : State) (o : Out) : (s.emit o).flash = s.flash := rfl
@[simp] theorem State.emit_cal (s : State) (o : Out) : (s.emit o).cal = s.cal := rfl
@[simp] theorem State.emit_image (s : State) (o : Out) : (s.emit o).image = s.image := rfl
@[simp] theorem State.emit_weirs (s : State) (o : Out) : (s.emit o).weirs = s.weirs := rfl
@[simp] theorem State.emit_pcie (s : State) (o : Out) : (s.emit o).pcie = s.pcie := rfl
@[simp] theorem State.emit_jobUnit (s : State) (o : Out) : (s.emit o).jobUnit = s.jobUnit := rfl
@[simp] theorem State.emit_ponds (s : State) (o : Out) : (s.emit o).ponds = s.ponds := rfl
@[simp] theorem State.emit_seals (s : State) (o : Out) : (s.emit o).seals = s.seals := rfl
@[simp] theorem State.emit_planSlots (s : State) (o : Out) : (s.emit o).planSlots = s.planSlots := rfl
@[simp] theorem State.emit_trust (s : State) (o : Out) : (s.emit o).trust = s.trust := rfl
@[simp] theorem State.emit_fuses (s : State) (o : Out) : (s.emit o).fuses = s.fuses := rfl
@[simp] theorem State.emit_bist (s : State) (o : Out) : (s.emit o).bist = s.bist := rfl
@[simp] theorem State.emit_thermal (s : State) (o : Out) : (s.emit o).thermal = s.thermal := rfl
@[simp] theorem State.emit_boot (s : State) (o : Out) : (s.emit o).boot = s.boot := rfl
@[simp] theorem State.emit_get (s : State) (o : Out) (f : FN) (i j : Nat) :
    (s.emit o).get f i j = s.get f i j := rfl
@[simp] theorem State.emit_flag (s : State) (o : Out) (f : FN) (i j : Nat) :
    (s.emit o).flag f i j = s.flag f i j := rfl
@[simp] theorem State.emit_eff (s : State) (o : Out) (f : FN) (i j : Nat) :
    (s.emit o).eff f i j = s.eff f i j := rfl

/-! ### State.received -/

@[simp] theorem State.received_regs (s : State) (n : Nat) : (s.received n).regs = s.regs := rfl
@[simp] theorem State.received_inForce (s : State) (n : Nat) : (s.received n).inForce = s.inForce := rfl
@[simp] theorem State.received_timer (s : State) (n : Nat) : (s.received n).timer = s.timer := rfl
@[simp] theorem State.received_aonTime (s : State) (n : Nat) : (s.received n).aonTime = s.aonTime := rfl
@[simp] theorem State.received_freeCtr (s : State) (n : Nat) : (s.received n).freeCtr = s.freeCtr := rfl
@[simp] theorem State.received_out (s : State) (n : Nat) : (s.received n).out = s.out := rfl
@[simp] theorem State.received_collector (s : State) (n : Nat) : (s.received n).collector = s.collector := rfl
@[simp] theorem State.received_events (s : State) (n : Nat) : (s.received n).events = s.events := rfl
@[simp] theorem State.received_lake (s : State) (n : Nat) : (s.received n).lake = s.lake := rfl
@[simp] theorem State.received_eddies (s : State) (n : Nat) : (s.received n).eddies = s.eddies := rfl
@[simp] theorem State.received_stalls (s : State) (n : Nat) : (s.received n).stalls = s.stalls := rfl
@[simp] theorem State.received_scratch (s : State) (n : Nat) : (s.received n).scratch = s.scratch := rfl
@[simp] theorem State.received_packs (s : State) (n : Nat) : (s.received n).packs = s.packs := rfl
@[simp] theorem State.received_dram (s : State) (n : Nat) : (s.received n).dram = s.dram := rfl
@[simp] theorem State.received_vlink (s : State) (n : Nat) : (s.received n).vlink = s.vlink := rfl
@[simp] theorem State.received_dredge (s : State) (n : Nat) : (s.received n).dredge = s.dredge := rfl
@[simp] theorem State.received_retire (s : State) (n : Nat) : (s.received n).retire = s.retire := rfl
@[simp] theorem State.received_flash (s : State) (n : Nat) : (s.received n).flash = s.flash := rfl
@[simp] theorem State.received_cal (s : State) (n : Nat) : (s.received n).cal = s.cal := rfl
@[simp] theorem State.received_image (s : State) (n : Nat) : (s.received n).image = s.image := rfl
@[simp] theorem State.received_weirs (s : State) (n : Nat) : (s.received n).weirs = s.weirs := rfl
@[simp] theorem State.received_pcie (s : State) (n : Nat) : (s.received n).pcie = s.pcie := rfl
@[simp] theorem State.received_jobUnit (s : State) (n : Nat) : (s.received n).jobUnit = s.jobUnit := rfl
@[simp] theorem State.received_ponds (s : State) (n : Nat) : (s.received n).ponds = s.ponds := rfl
@[simp] theorem State.received_seals (s : State) (n : Nat) : (s.received n).seals = s.seals := rfl
@[simp] theorem State.received_planSlots (s : State) (n : Nat) : (s.received n).planSlots = s.planSlots := rfl
@[simp] theorem State.received_trust (s : State) (n : Nat) : (s.received n).trust = s.trust := rfl
@[simp] theorem State.received_fuses (s : State) (n : Nat) : (s.received n).fuses = s.fuses := rfl
@[simp] theorem State.received_bist (s : State) (n : Nat) : (s.received n).bist = s.bist := rfl
@[simp] theorem State.received_thermal (s : State) (n : Nat) : (s.received n).thermal = s.thermal := rfl
@[simp] theorem State.received_boot (s : State) (n : Nat) : (s.received n).boot = s.boot := rfl
@[simp] theorem State.received_get (s : State) (n : Nat) (f : FN) (i j : Nat) :
    (s.received n).get f i j = s.get f i j := rfl
@[simp] theorem State.received_flag (s : State) (n : Nat) (f : FN) (i j : Nat) :
    (s.received n).flag f i j = s.flag f i j := rfl
@[simp] theorem State.received_eff (s : State) (n : Nat) (f : FN) (i j : Nat) :
    (s.received n).eff f i j = s.eff f i j := rfl

/-! ### State.setBank -/

@[simp] theorem State.setBank_regs (s : State) (p b : Nat) (x : Bank) : (s.setBank p b x).regs = s.regs := rfl
@[simp] theorem State.setBank_inForce (s : State) (p b : Nat) (x : Bank) : (s.setBank p b x).inForce = s.inForce := rfl
@[simp] theorem State.setBank_timer (s : State) (p b : Nat) (x : Bank) : (s.setBank p b x).timer = s.timer := rfl
@[simp] theorem State.setBank_aonTime (s : State) (p b : Nat) (x : Bank) : (s.setBank p b x).aonTime = s.aonTime := rfl
@[simp] theorem State.setBank_freeCtr (s : State) (p b : Nat) (x : Bank) : (s.setBank p b x).freeCtr = s.freeCtr := rfl
@[simp] theorem State.setBank_out (s : State) (p b : Nat) (x : Bank) : (s.setBank p b x).out = s.out := rfl
@[simp] theorem State.setBank_collector (s : State) (p b : Nat) (x : Bank) : (s.setBank p b x).collector = s.collector := rfl
@[simp] theorem State.setBank_events (s : State) (p b : Nat) (x : Bank) : (s.setBank p b x).events = s.events := rfl
@[simp] theorem State.setBank_counters (s : State) (p b : Nat) (x : Bank) : (s.setBank p b x).counters = s.counters := rfl
@[simp] theorem State.setBank_lake (s : State) (p b : Nat) (x : Bank) : (s.setBank p b x).lake = s.lake := rfl
@[simp] theorem State.setBank_eddies (s : State) (p b : Nat) (x : Bank) : (s.setBank p b x).eddies = s.eddies := rfl
@[simp] theorem State.setBank_stalls (s : State) (p b : Nat) (x : Bank) : (s.setBank p b x).stalls = s.stalls := rfl
@[simp] theorem State.setBank_scratch (s : State) (p b : Nat) (x : Bank) : (s.setBank p b x).scratch = s.scratch := rfl
@[simp] theorem State.setBank_packs (s : State) (p b : Nat) (x : Bank) : (s.setBank p b x).packs = s.packs := rfl
@[simp] theorem State.setBank_vlink (s : State) (p b : Nat) (x : Bank) : (s.setBank p b x).vlink = s.vlink := rfl
@[simp] theorem State.setBank_dredge (s : State) (p b : Nat) (x : Bank) : (s.setBank p b x).dredge = s.dredge := rfl
@[simp] theorem State.setBank_retire (s : State) (p b : Nat) (x : Bank) : (s.setBank p b x).retire = s.retire := rfl
@[simp] theorem State.setBank_flash (s : State) (p b : Nat) (x : Bank) : (s.setBank p b x).flash = s.flash := rfl
@[simp] theorem State.setBank_cal (s : State) (p b : Nat) (x : Bank) : (s.setBank p b x).cal = s.cal := rfl
@[simp] theorem State.setBank_image (s : State) (p b : Nat) (x : Bank) : (s.setBank p b x).image = s.image := rfl
@[simp] theorem State.setBank_weirs (s : State) (p b : Nat) (x : Bank) : (s.setBank p b x).weirs = s.weirs := rfl
@[simp] theorem State.setBank_pcie (s : State) (p b : Nat) (x : Bank) : (s.setBank p b x).pcie = s.pcie := rfl
@[simp] theorem State.setBank_jobUnit (s : State) (p b : Nat) (x : Bank) : (s.setBank p b x).jobUnit = s.jobUnit := rfl
@[simp] theorem State.setBank_ponds (s : State) (p b : Nat) (x : Bank) : (s.setBank p b x).ponds = s.ponds := rfl
@[simp] theorem State.setBank_seals (s : State) (p b : Nat) (x : Bank) : (s.setBank p b x).seals = s.seals := rfl
@[simp] theorem State.setBank_planSlots (s : State) (p b : Nat) (x : Bank) : (s.setBank p b x).planSlots = s.planSlots := rfl
@[simp] theorem State.setBank_trust (s : State) (p b : Nat) (x : Bank) : (s.setBank p b x).trust = s.trust := rfl
@[simp] theorem State.setBank_fuses (s : State) (p b : Nat) (x : Bank) : (s.setBank p b x).fuses = s.fuses := rfl
@[simp] theorem State.setBank_bist (s : State) (p b : Nat) (x : Bank) : (s.setBank p b x).bist = s.bist := rfl
@[simp] theorem State.setBank_thermal (s : State) (p b : Nat) (x : Bank) : (s.setBank p b x).thermal = s.thermal := rfl
@[simp] theorem State.setBank_boot (s : State) (p b : Nat) (x : Bank) : (s.setBank p b x).boot = s.boot := rfl
@[simp] theorem State.setBank_get (s : State) (p b : Nat) (x : Bank) (f : FN) (i j : Nat) :
    (s.setBank p b x).get f i j = s.get f i j := rfl
@[simp] theorem State.setBank_flag (s : State) (p b : Nat) (x : Bank) (f : FN) (i j : Nat) :
    (s.setBank p b x).flag f i j = s.flag f i j := rfl
@[simp] theorem State.setBank_eff (s : State) (p b : Nat) (x : Bank) (f : FN) (i j : Nat) :
    (s.setBank p b x).eff f i j = s.eff f i j := rfl

/-! ### State.setOwner -/

@[simp] theorem State.setOwner_regs (s : State) (b o : Nat) : (s.setOwner b o).regs = s.regs := rfl
@[simp] theorem State.setOwner_inForce (s : State) (b o : Nat) : (s.setOwner b o).inForce = s.inForce := rfl
@[simp] theorem State.setOwner_timer (s : State) (b o : Nat) : (s.setOwner b o).timer = s.timer := rfl
@[simp] theorem State.setOwner_aonTime (s : State) (b o : Nat) : (s.setOwner b o).aonTime = s.aonTime := rfl
@[simp] theorem State.setOwner_freeCtr (s : State) (b o : Nat) : (s.setOwner b o).freeCtr = s.freeCtr := rfl
@[simp] theorem State.setOwner_out (s : State) (b o : Nat) : (s.setOwner b o).out = s.out := rfl
@[simp] theorem State.setOwner_collector (s : State) (b o : Nat) : (s.setOwner b o).collector = s.collector := rfl
@[simp] theorem State.setOwner_events (s : State) (b o : Nat) : (s.setOwner b o).events = s.events := rfl
@[simp] theorem State.setOwner_counters (s : State) (b o : Nat) : (s.setOwner b o).counters = s.counters := rfl
@[simp] theorem State.setOwner_lake (s : State) (b o : Nat) : (s.setOwner b o).lake = s.lake := rfl
@[simp] theorem State.setOwner_eddies (s : State) (b o : Nat) : (s.setOwner b o).eddies = s.eddies := rfl
@[simp] theorem State.setOwner_stalls (s : State) (b o : Nat) : (s.setOwner b o).stalls = s.stalls := rfl
@[simp] theorem State.setOwner_scratch (s : State) (b o : Nat) : (s.setOwner b o).scratch = s.scratch := rfl
@[simp] theorem State.setOwner_packs (s : State) (b o : Nat) : (s.setOwner b o).packs = s.packs := rfl
@[simp] theorem State.setOwner_vlink (s : State) (b o : Nat) : (s.setOwner b o).vlink = s.vlink := rfl
@[simp] theorem State.setOwner_dredge (s : State) (b o : Nat) : (s.setOwner b o).dredge = s.dredge := rfl
@[simp] theorem State.setOwner_retire (s : State) (b o : Nat) : (s.setOwner b o).retire = s.retire := rfl
@[simp] theorem State.setOwner_flash (s : State) (b o : Nat) : (s.setOwner b o).flash = s.flash := rfl
@[simp] theorem State.setOwner_cal (s : State) (b o : Nat) : (s.setOwner b o).cal = s.cal := rfl
@[simp] theorem State.setOwner_image (s : State) (b o : Nat) : (s.setOwner b o).image = s.image := rfl
@[simp] theorem State.setOwner_weirs (s : State) (b o : Nat) : (s.setOwner b o).weirs = s.weirs := rfl
@[simp] theorem State.setOwner_pcie (s : State) (b o : Nat) : (s.setOwner b o).pcie = s.pcie := rfl
@[simp] theorem State.setOwner_jobUnit (s : State) (b o : Nat) : (s.setOwner b o).jobUnit = s.jobUnit := rfl
@[simp] theorem State.setOwner_ponds (s : State) (b o : Nat) : (s.setOwner b o).ponds = s.ponds := rfl
@[simp] theorem State.setOwner_seals (s : State) (b o : Nat) : (s.setOwner b o).seals = s.seals := rfl
@[simp] theorem State.setOwner_planSlots (s : State) (b o : Nat) : (s.setOwner b o).planSlots = s.planSlots := rfl
@[simp] theorem State.setOwner_trust (s : State) (b o : Nat) : (s.setOwner b o).trust = s.trust := rfl
@[simp] theorem State.setOwner_fuses (s : State) (b o : Nat) : (s.setOwner b o).fuses = s.fuses := rfl
@[simp] theorem State.setOwner_bist (s : State) (b o : Nat) : (s.setOwner b o).bist = s.bist := rfl
@[simp] theorem State.setOwner_thermal (s : State) (b o : Nat) : (s.setOwner b o).thermal = s.thermal := rfl
@[simp] theorem State.setOwner_boot (s : State) (b o : Nat) : (s.setOwner b o).boot = s.boot := rfl
@[simp] theorem State.setOwner_get (s : State) (x y : Nat) (f : FN) (i j : Nat) :
    (s.setOwner x y).get f i j = s.get f i j := rfl
@[simp] theorem State.setOwner_flag (s : State) (x y : Nat) (f : FN) (i j : Nat) :
    (s.setOwner x y).flag f i j = s.flag f i j := rfl
@[simp] theorem State.setOwner_eff (s : State) (x y : Nat) (f : FN) (i j : Nat) :
    (s.setOwner x y).eff f i j = s.eff f i j := rfl

/-! ### State.setEngine -/

@[simp] theorem State.setEngine_regs (s : State) (e : Nat) (x : Engine) : (s.setEngine e x).regs = s.regs := rfl
@[simp] theorem State.setEngine_inForce (s : State) (e : Nat) (x : Engine) : (s.setEngine e x).inForce = s.inForce := rfl
@[simp] theorem State.setEngine_timer (s : State) (e : Nat) (x : Engine) : (s.setEngine e x).timer = s.timer := rfl
@[simp] theorem State.setEngine_aonTime (s : State) (e : Nat) (x : Engine) : (s.setEngine e x).aonTime = s.aonTime := rfl
@[simp] theorem State.setEngine_freeCtr (s : State) (e : Nat) (x : Engine) : (s.setEngine e x).freeCtr = s.freeCtr := rfl
@[simp] theorem State.setEngine_out (s : State) (e : Nat) (x : Engine) : (s.setEngine e x).out = s.out := rfl
@[simp] theorem State.setEngine_collector (s : State) (e : Nat) (x : Engine) : (s.setEngine e x).collector = s.collector := rfl
@[simp] theorem State.setEngine_events (s : State) (e : Nat) (x : Engine) : (s.setEngine e x).events = s.events := rfl
@[simp] theorem State.setEngine_counters (s : State) (e : Nat) (x : Engine) : (s.setEngine e x).counters = s.counters := rfl
@[simp] theorem State.setEngine_lake (s : State) (e : Nat) (x : Engine) : (s.setEngine e x).lake = s.lake := rfl
@[simp] theorem State.setEngine_eddies (s : State) (e : Nat) (x : Engine) : (s.setEngine e x).eddies = s.eddies := rfl
@[simp] theorem State.setEngine_stalls (s : State) (e : Nat) (x : Engine) : (s.setEngine e x).stalls = s.stalls := rfl
@[simp] theorem State.setEngine_scratch (s : State) (e : Nat) (x : Engine) : (s.setEngine e x).scratch = s.scratch := rfl
@[simp] theorem State.setEngine_packs (s : State) (e : Nat) (x : Engine) : (s.setEngine e x).packs = s.packs := rfl
@[simp] theorem State.setEngine_dram (s : State) (e : Nat) (x : Engine) : (s.setEngine e x).dram = s.dram := rfl
@[simp] theorem State.setEngine_vlink (s : State) (e : Nat) (x : Engine) : (s.setEngine e x).vlink = s.vlink := rfl
@[simp] theorem State.setEngine_dredge (s : State) (e : Nat) (x : Engine) : (s.setEngine e x).dredge = s.dredge := rfl
@[simp] theorem State.setEngine_retire (s : State) (e : Nat) (x : Engine) : (s.setEngine e x).retire = s.retire := rfl
@[simp] theorem State.setEngine_flash (s : State) (e : Nat) (x : Engine) : (s.setEngine e x).flash = s.flash := rfl
@[simp] theorem State.setEngine_cal (s : State) (e : Nat) (x : Engine) : (s.setEngine e x).cal = s.cal := rfl
@[simp] theorem State.setEngine_image (s : State) (e : Nat) (x : Engine) : (s.setEngine e x).image = s.image := rfl
@[simp] theorem State.setEngine_weirs (s : State) (e : Nat) (x : Engine) : (s.setEngine e x).weirs = s.weirs := rfl
@[simp] theorem State.setEngine_pcie (s : State) (e : Nat) (x : Engine) : (s.setEngine e x).pcie = s.pcie := rfl
@[simp] theorem State.setEngine_jobUnit (s : State) (e : Nat) (x : Engine) : (s.setEngine e x).jobUnit = s.jobUnit := rfl
@[simp] theorem State.setEngine_seals (s : State) (e : Nat) (x : Engine) : (s.setEngine e x).seals = s.seals := rfl
@[simp] theorem State.setEngine_planSlots (s : State) (e : Nat) (x : Engine) : (s.setEngine e x).planSlots = s.planSlots := rfl
@[simp] theorem State.setEngine_trust (s : State) (e : Nat) (x : Engine) : (s.setEngine e x).trust = s.trust := rfl
@[simp] theorem State.setEngine_fuses (s : State) (e : Nat) (x : Engine) : (s.setEngine e x).fuses = s.fuses := rfl
@[simp] theorem State.setEngine_bist (s : State) (e : Nat) (x : Engine) : (s.setEngine e x).bist = s.bist := rfl
@[simp] theorem State.setEngine_thermal (s : State) (e : Nat) (x : Engine) : (s.setEngine e x).thermal = s.thermal := rfl
@[simp] theorem State.setEngine_boot (s : State) (e : Nat) (x : Engine) : (s.setEngine e x).boot = s.boot := rfl
@[simp] theorem State.setEngine_get (s : State) (e : Nat) (x : Engine) (f : FN) (i j : Nat) :
    (s.setEngine e x).get f i j = s.get f i j := rfl
@[simp] theorem State.setEngine_flag (s : State) (e : Nat) (x : Engine) (f : FN) (i j : Nat) :
    (s.setEngine e x).flag f i j = s.flag f i j := rfl
@[simp] theorem State.setEngine_eff (s : State) (e : Nat) (x : Engine) (f : FN) (i j : Nat) :
    (s.setEngine e x).eff f i j = s.eff f i j := rfl

/-! ### State.setPond -/

@[simp] theorem State.setPond_inForce (s : State) (p : Nat) (x : Pond) : (s.setPond p x).inForce = s.inForce := rfl
@[simp] theorem State.setPond_timer (s : State) (p : Nat) (x : Pond) : (s.setPond p x).timer = s.timer := rfl
@[simp] theorem State.setPond_aonTime (s : State) (p : Nat) (x : Pond) : (s.setPond p x).aonTime = s.aonTime := rfl
@[simp] theorem State.setPond_freeCtr (s : State) (p : Nat) (x : Pond) : (s.setPond p x).freeCtr = s.freeCtr := rfl
@[simp] theorem State.setPond_out (s : State) (p : Nat) (x : Pond) : (s.setPond p x).out = s.out := rfl
@[simp] theorem State.setPond_collector (s : State) (p : Nat) (x : Pond) : (s.setPond p x).collector = s.collector := rfl
@[simp] theorem State.setPond_events (s : State) (p : Nat) (x : Pond) : (s.setPond p x).events = s.events := rfl
@[simp] theorem State.setPond_counters (s : State) (p : Nat) (x : Pond) : (s.setPond p x).counters = s.counters := rfl
@[simp] theorem State.setPond_lake (s : State) (p : Nat) (x : Pond) : (s.setPond p x).lake = s.lake := rfl
@[simp] theorem State.setPond_eddies (s : State) (p : Nat) (x : Pond) : (s.setPond p x).eddies = s.eddies := rfl
@[simp] theorem State.setPond_stalls (s : State) (p : Nat) (x : Pond) : (s.setPond p x).stalls = s.stalls := rfl
@[simp] theorem State.setPond_scratch (s : State) (p : Nat) (x : Pond) : (s.setPond p x).scratch = s.scratch := rfl
@[simp] theorem State.setPond_packs (s : State) (p : Nat) (x : Pond) : (s.setPond p x).packs = s.packs := rfl
@[simp] theorem State.setPond_dram (s : State) (p : Nat) (x : Pond) : (s.setPond p x).dram = s.dram := rfl
@[simp] theorem State.setPond_vlink (s : State) (p : Nat) (x : Pond) : (s.setPond p x).vlink = s.vlink := rfl
@[simp] theorem State.setPond_dredge (s : State) (p : Nat) (x : Pond) : (s.setPond p x).dredge = s.dredge := rfl
@[simp] theorem State.setPond_retire (s : State) (p : Nat) (x : Pond) : (s.setPond p x).retire = s.retire := rfl
@[simp] theorem State.setPond_flash (s : State) (p : Nat) (x : Pond) : (s.setPond p x).flash = s.flash := rfl
@[simp] theorem State.setPond_cal (s : State) (p : Nat) (x : Pond) : (s.setPond p x).cal = s.cal := rfl
@[simp] theorem State.setPond_image (s : State) (p : Nat) (x : Pond) : (s.setPond p x).image = s.image := rfl
@[simp] theorem State.setPond_weirs (s : State) (p : Nat) (x : Pond) : (s.setPond p x).weirs = s.weirs := rfl
@[simp] theorem State.setPond_pcie (s : State) (p : Nat) (x : Pond) : (s.setPond p x).pcie = s.pcie := rfl
@[simp] theorem State.setPond_jobUnit (s : State) (p : Nat) (x : Pond) : (s.setPond p x).jobUnit = s.jobUnit := rfl
@[simp] theorem State.setPond_seals (s : State) (p : Nat) (x : Pond) : (s.setPond p x).seals = s.seals := rfl
@[simp] theorem State.setPond_planSlots (s : State) (p : Nat) (x : Pond) : (s.setPond p x).planSlots = s.planSlots := rfl
@[simp] theorem State.setPond_trust (s : State) (p : Nat) (x : Pond) : (s.setPond p x).trust = s.trust := rfl
@[simp] theorem State.setPond_fuses (s : State) (p : Nat) (x : Pond) : (s.setPond p x).fuses = s.fuses := rfl
@[simp] theorem State.setPond_bist (s : State) (p : Nat) (x : Pond) : (s.setPond p x).bist = s.bist := rfl
@[simp] theorem State.setPond_thermal (s : State) (p : Nat) (x : Pond) : (s.setPond p x).thermal = s.thermal := rfl
@[simp] theorem State.setPond_boot (s : State) (p : Nat) (x : Pond) : (s.setPond p x).boot = s.boot := rfl

/-! ### State.setRing -/

@[simp] theorem State.setRing_regs (s : State) (q : Nat) (r : Ring) : (s.setRing q r).regs = s.regs := rfl
@[simp] theorem State.setRing_inForce (s : State) (q : Nat) (r : Ring) : (s.setRing q r).inForce = s.inForce := rfl
@[simp] theorem State.setRing_timer (s : State) (q : Nat) (r : Ring) : (s.setRing q r).timer = s.timer := rfl
@[simp] theorem State.setRing_aonTime (s : State) (q : Nat) (r : Ring) : (s.setRing q r).aonTime = s.aonTime := rfl
@[simp] theorem State.setRing_freeCtr (s : State) (q : Nat) (r : Ring) : (s.setRing q r).freeCtr = s.freeCtr := rfl
@[simp] theorem State.setRing_out (s : State) (q : Nat) (r : Ring) : (s.setRing q r).out = s.out := rfl
@[simp] theorem State.setRing_collector (s : State) (q : Nat) (r : Ring) : (s.setRing q r).collector = s.collector := rfl
@[simp] theorem State.setRing_events (s : State) (q : Nat) (r : Ring) : (s.setRing q r).events = s.events := rfl
@[simp] theorem State.setRing_counters (s : State) (q : Nat) (r : Ring) : (s.setRing q r).counters = s.counters := rfl
@[simp] theorem State.setRing_lake (s : State) (q : Nat) (r : Ring) : (s.setRing q r).lake = s.lake := rfl
@[simp] theorem State.setRing_eddies (s : State) (q : Nat) (r : Ring) : (s.setRing q r).eddies = s.eddies := rfl
@[simp] theorem State.setRing_stalls (s : State) (q : Nat) (r : Ring) : (s.setRing q r).stalls = s.stalls := rfl
@[simp] theorem State.setRing_scratch (s : State) (q : Nat) (r : Ring) : (s.setRing q r).scratch = s.scratch := rfl
@[simp] theorem State.setRing_packs (s : State) (q : Nat) (r : Ring) : (s.setRing q r).packs = s.packs := rfl
@[simp] theorem State.setRing_dram (s : State) (q : Nat) (r : Ring) : (s.setRing q r).dram = s.dram := rfl
@[simp] theorem State.setRing_vlink (s : State) (q : Nat) (r : Ring) : (s.setRing q r).vlink = s.vlink := rfl
@[simp] theorem State.setRing_dredge (s : State) (q : Nat) (r : Ring) : (s.setRing q r).dredge = s.dredge := rfl
@[simp] theorem State.setRing_retire (s : State) (q : Nat) (r : Ring) : (s.setRing q r).retire = s.retire := rfl
@[simp] theorem State.setRing_flash (s : State) (q : Nat) (r : Ring) : (s.setRing q r).flash = s.flash := rfl
@[simp] theorem State.setRing_cal (s : State) (q : Nat) (r : Ring) : (s.setRing q r).cal = s.cal := rfl
@[simp] theorem State.setRing_image (s : State) (q : Nat) (r : Ring) : (s.setRing q r).image = s.image := rfl
@[simp] theorem State.setRing_weirs (s : State) (q : Nat) (r : Ring) : (s.setRing q r).weirs = s.weirs := rfl
@[simp] theorem State.setRing_pcie (s : State) (q : Nat) (r : Ring) : (s.setRing q r).pcie = s.pcie := rfl
@[simp] theorem State.setRing_ponds (s : State) (q : Nat) (r : Ring) : (s.setRing q r).ponds = s.ponds := rfl
@[simp] theorem State.setRing_seals (s : State) (q : Nat) (r : Ring) : (s.setRing q r).seals = s.seals := rfl
@[simp] theorem State.setRing_planSlots (s : State) (q : Nat) (r : Ring) : (s.setRing q r).planSlots = s.planSlots := rfl
@[simp] theorem State.setRing_trust (s : State) (q : Nat) (r : Ring) : (s.setRing q r).trust = s.trust := rfl
@[simp] theorem State.setRing_fuses (s : State) (q : Nat) (r : Ring) : (s.setRing q r).fuses = s.fuses := rfl
@[simp] theorem State.setRing_bist (s : State) (q : Nat) (r : Ring) : (s.setRing q r).bist = s.bist := rfl
@[simp] theorem State.setRing_thermal (s : State) (q : Nat) (r : Ring) : (s.setRing q r).thermal = s.thermal := rfl
@[simp] theorem State.setRing_boot (s : State) (q : Nat) (r : Ring) : (s.setRing q r).boot = s.boot := rfl
@[simp] theorem State.setRing_get (s : State) (q : Nat) (r : Ring) (f : FN) (i j : Nat) :
    (s.setRing q r).get f i j = s.get f i j := rfl
@[simp] theorem State.setRing_flag (s : State) (q : Nat) (r : Ring) (f : FN) (i j : Nat) :
    (s.setRing q r).flag f i j = s.flag f i j := rfl
@[simp] theorem State.setRing_eff (s : State) (q : Nat) (r : Ring) (f : FN) (i j : Nat) :
    (s.setRing q r).eff f i j = s.eff f i j := rfl

/-! ### State.putJob -/

@[simp] theorem State.putJob_regs (s : State) (x : Job) : (s.putJob x).regs = s.regs := rfl
@[simp] theorem State.putJob_inForce (s : State) (x : Job) : (s.putJob x).inForce = s.inForce := rfl
@[simp] theorem State.putJob_timer (s : State) (x : Job) : (s.putJob x).timer = s.timer := rfl
@[simp] theorem State.putJob_aonTime (s : State) (x : Job) : (s.putJob x).aonTime = s.aonTime := rfl
@[simp] theorem State.putJob_freeCtr (s : State) (x : Job) : (s.putJob x).freeCtr = s.freeCtr := rfl
@[simp] theorem State.putJob_out (s : State) (x : Job) : (s.putJob x).out = s.out := rfl
@[simp] theorem State.putJob_collector (s : State) (x : Job) : (s.putJob x).collector = s.collector := rfl
@[simp] theorem State.putJob_events (s : State) (x : Job) : (s.putJob x).events = s.events := rfl
@[simp] theorem State.putJob_counters (s : State) (x : Job) : (s.putJob x).counters = s.counters := rfl
@[simp] theorem State.putJob_lake (s : State) (x : Job) : (s.putJob x).lake = s.lake := rfl
@[simp] theorem State.putJob_eddies (s : State) (x : Job) : (s.putJob x).eddies = s.eddies := rfl
@[simp] theorem State.putJob_stalls (s : State) (x : Job) : (s.putJob x).stalls = s.stalls := rfl
@[simp] theorem State.putJob_scratch (s : State) (x : Job) : (s.putJob x).scratch = s.scratch := rfl
@[simp] theorem State.putJob_packs (s : State) (x : Job) : (s.putJob x).packs = s.packs := rfl
@[simp] theorem State.putJob_dram (s : State) (x : Job) : (s.putJob x).dram = s.dram := rfl
@[simp] theorem State.putJob_vlink (s : State) (x : Job) : (s.putJob x).vlink = s.vlink := rfl
@[simp] theorem State.putJob_dredge (s : State) (x : Job) : (s.putJob x).dredge = s.dredge := rfl
@[simp] theorem State.putJob_retire (s : State) (x : Job) : (s.putJob x).retire = s.retire := rfl
@[simp] theorem State.putJob_flash (s : State) (x : Job) : (s.putJob x).flash = s.flash := rfl
@[simp] theorem State.putJob_cal (s : State) (x : Job) : (s.putJob x).cal = s.cal := rfl
@[simp] theorem State.putJob_image (s : State) (x : Job) : (s.putJob x).image = s.image := rfl
@[simp] theorem State.putJob_weirs (s : State) (x : Job) : (s.putJob x).weirs = s.weirs := rfl
@[simp] theorem State.putJob_pcie (s : State) (x : Job) : (s.putJob x).pcie = s.pcie := rfl
@[simp] theorem State.putJob_ponds (s : State) (x : Job) : (s.putJob x).ponds = s.ponds := rfl
@[simp] theorem State.putJob_seals (s : State) (x : Job) : (s.putJob x).seals = s.seals := rfl
@[simp] theorem State.putJob_planSlots (s : State) (x : Job) : (s.putJob x).planSlots = s.planSlots := rfl
@[simp] theorem State.putJob_trust (s : State) (x : Job) : (s.putJob x).trust = s.trust := rfl
@[simp] theorem State.putJob_fuses (s : State) (x : Job) : (s.putJob x).fuses = s.fuses := rfl
@[simp] theorem State.putJob_bist (s : State) (x : Job) : (s.putJob x).bist = s.bist := rfl
@[simp] theorem State.putJob_thermal (s : State) (x : Job) : (s.putJob x).thermal = s.thermal := rfl
@[simp] theorem State.putJob_boot (s : State) (x : Job) : (s.putJob x).boot = s.boot := rfl
@[simp] theorem State.putJob_get (s : State) (x : Job) (f : FN) (i j : Nat) :
    (s.putJob x).get f i j = s.get f i j := rfl
@[simp] theorem State.putJob_flag (s : State) (x : Job) (f : FN) (i j : Nat) :
    (s.putJob x).flag f i j = s.flag f i j := rfl
@[simp] theorem State.putJob_eff (s : State) (x : Job) (f : FN) (i j : Nat) :
    (s.putJob x).eff f i j = s.eff f i j := rfl

/-! ### State.addJob -/

@[simp] theorem State.addJob_regs (s : State) (x : Job) : (s.addJob x).regs = s.regs := rfl
@[simp] theorem State.addJob_inForce (s : State) (x : Job) : (s.addJob x).inForce = s.inForce := rfl
@[simp] theorem State.addJob_timer (s : State) (x : Job) : (s.addJob x).timer = s.timer := rfl
@[simp] theorem State.addJob_aonTime (s : State) (x : Job) : (s.addJob x).aonTime = s.aonTime := rfl
@[simp] theorem State.addJob_freeCtr (s : State) (x : Job) : (s.addJob x).freeCtr = s.freeCtr := rfl
@[simp] theorem State.addJob_out (s : State) (x : Job) : (s.addJob x).out = s.out := rfl
@[simp] theorem State.addJob_collector (s : State) (x : Job) : (s.addJob x).collector = s.collector := rfl
@[simp] theorem State.addJob_events (s : State) (x : Job) : (s.addJob x).events = s.events := rfl
@[simp] theorem State.addJob_counters (s : State) (x : Job) : (s.addJob x).counters = s.counters := rfl
@[simp] theorem State.addJob_lake (s : State) (x : Job) : (s.addJob x).lake = s.lake := rfl
@[simp] theorem State.addJob_eddies (s : State) (x : Job) : (s.addJob x).eddies = s.eddies := rfl
@[simp] theorem State.addJob_stalls (s : State) (x : Job) : (s.addJob x).stalls = s.stalls := rfl
@[simp] theorem State.addJob_scratch (s : State) (x : Job) : (s.addJob x).scratch = s.scratch := rfl
@[simp] theorem State.addJob_packs (s : State) (x : Job) : (s.addJob x).packs = s.packs := rfl
@[simp] theorem State.addJob_dram (s : State) (x : Job) : (s.addJob x).dram = s.dram := rfl
@[simp] theorem State.addJob_vlink (s : State) (x : Job) : (s.addJob x).vlink = s.vlink := rfl
@[simp] theorem State.addJob_dredge (s : State) (x : Job) : (s.addJob x).dredge = s.dredge := rfl
@[simp] theorem State.addJob_retire (s : State) (x : Job) : (s.addJob x).retire = s.retire := rfl
@[simp] theorem State.addJob_flash (s : State) (x : Job) : (s.addJob x).flash = s.flash := rfl
@[simp] theorem State.addJob_cal (s : State) (x : Job) : (s.addJob x).cal = s.cal := rfl
@[simp] theorem State.addJob_image (s : State) (x : Job) : (s.addJob x).image = s.image := rfl
@[simp] theorem State.addJob_weirs (s : State) (x : Job) : (s.addJob x).weirs = s.weirs := rfl
@[simp] theorem State.addJob_pcie (s : State) (x : Job) : (s.addJob x).pcie = s.pcie := rfl
@[simp] theorem State.addJob_ponds (s : State) (x : Job) : (s.addJob x).ponds = s.ponds := rfl
@[simp] theorem State.addJob_seals (s : State) (x : Job) : (s.addJob x).seals = s.seals := rfl
@[simp] theorem State.addJob_planSlots (s : State) (x : Job) : (s.addJob x).planSlots = s.planSlots := rfl
@[simp] theorem State.addJob_trust (s : State) (x : Job) : (s.addJob x).trust = s.trust := rfl
@[simp] theorem State.addJob_fuses (s : State) (x : Job) : (s.addJob x).fuses = s.fuses := rfl
@[simp] theorem State.addJob_bist (s : State) (x : Job) : (s.addJob x).bist = s.bist := rfl
@[simp] theorem State.addJob_thermal (s : State) (x : Job) : (s.addJob x).thermal = s.thermal := rfl
@[simp] theorem State.addJob_boot (s : State) (x : Job) : (s.addJob x).boot = s.boot := rfl
@[simp] theorem State.addJob_get (s : State) (x : Job) (f : FN) (i j : Nat) :
    (s.addJob x).get f i j = s.get f i j := rfl
@[simp] theorem State.addJob_flag (s : State) (x : Job) (f : FN) (i j : Nat) :
    (s.addJob x).flag f i j = s.flag f i j := rfl
@[simp] theorem State.addJob_eff (s : State) (x : Job) (f : FN) (i j : Nat) :
    (s.addJob x).eff f i j = s.eff f i j := rfl

/-! ### State.dropJob -/

@[simp] theorem State.dropJob_regs (s : State) (q slot : Nat) : (s.dropJob q slot).regs = s.regs := rfl
@[simp] theorem State.dropJob_inForce (s : State) (q slot : Nat) : (s.dropJob q slot).inForce = s.inForce := rfl
@[simp] theorem State.dropJob_timer (s : State) (q slot : Nat) : (s.dropJob q slot).timer = s.timer := rfl
@[simp] theorem State.dropJob_aonTime (s : State) (q slot : Nat) : (s.dropJob q slot).aonTime = s.aonTime := rfl
@[simp] theorem State.dropJob_freeCtr (s : State) (q slot : Nat) : (s.dropJob q slot).freeCtr = s.freeCtr := rfl
@[simp] theorem State.dropJob_out (s : State) (q slot : Nat) : (s.dropJob q slot).out = s.out := rfl
@[simp] theorem State.dropJob_collector (s : State) (q slot : Nat) : (s.dropJob q slot).collector = s.collector := rfl
@[simp] theorem State.dropJob_events (s : State) (q slot : Nat) : (s.dropJob q slot).events = s.events := rfl
@[simp] theorem State.dropJob_counters (s : State) (q slot : Nat) : (s.dropJob q slot).counters = s.counters := rfl
@[simp] theorem State.dropJob_lake (s : State) (q slot : Nat) : (s.dropJob q slot).lake = s.lake := rfl
@[simp] theorem State.dropJob_eddies (s : State) (q slot : Nat) : (s.dropJob q slot).eddies = s.eddies := rfl
@[simp] theorem State.dropJob_stalls (s : State) (q slot : Nat) : (s.dropJob q slot).stalls = s.stalls := rfl
@[simp] theorem State.dropJob_scratch (s : State) (q slot : Nat) : (s.dropJob q slot).scratch = s.scratch := rfl
@[simp] theorem State.dropJob_packs (s : State) (q slot : Nat) : (s.dropJob q slot).packs = s.packs := rfl
@[simp] theorem State.dropJob_dram (s : State) (q slot : Nat) : (s.dropJob q slot).dram = s.dram := rfl
@[simp] theorem State.dropJob_vlink (s : State) (q slot : Nat) : (s.dropJob q slot).vlink = s.vlink := rfl
@[simp] theorem State.dropJob_dredge (s : State) (q slot : Nat) : (s.dropJob q slot).dredge = s.dredge := rfl
@[simp] theorem State.dropJob_retire (s : State) (q slot : Nat) : (s.dropJob q slot).retire = s.retire := rfl
@[simp] theorem State.dropJob_flash (s : State) (q slot : Nat) : (s.dropJob q slot).flash = s.flash := rfl
@[simp] theorem State.dropJob_cal (s : State) (q slot : Nat) : (s.dropJob q slot).cal = s.cal := rfl
@[simp] theorem State.dropJob_image (s : State) (q slot : Nat) : (s.dropJob q slot).image = s.image := rfl
@[simp] theorem State.dropJob_weirs (s : State) (q slot : Nat) : (s.dropJob q slot).weirs = s.weirs := rfl
@[simp] theorem State.dropJob_pcie (s : State) (q slot : Nat) : (s.dropJob q slot).pcie = s.pcie := rfl
@[simp] theorem State.dropJob_ponds (s : State) (q slot : Nat) : (s.dropJob q slot).ponds = s.ponds := rfl
@[simp] theorem State.dropJob_seals (s : State) (q slot : Nat) : (s.dropJob q slot).seals = s.seals := rfl
@[simp] theorem State.dropJob_planSlots (s : State) (q slot : Nat) : (s.dropJob q slot).planSlots = s.planSlots := rfl
@[simp] theorem State.dropJob_trust (s : State) (q slot : Nat) : (s.dropJob q slot).trust = s.trust := rfl
@[simp] theorem State.dropJob_fuses (s : State) (q slot : Nat) : (s.dropJob q slot).fuses = s.fuses := rfl
@[simp] theorem State.dropJob_bist (s : State) (q slot : Nat) : (s.dropJob q slot).bist = s.bist := rfl
@[simp] theorem State.dropJob_thermal (s : State) (q slot : Nat) : (s.dropJob q slot).thermal = s.thermal := rfl
@[simp] theorem State.dropJob_boot (s : State) (q slot : Nat) : (s.dropJob q slot).boot = s.boot := rfl
@[simp] theorem State.dropJob_get (s : State) (q slot : Nat) (f : FN) (i j : Nat) :
    (s.dropJob q slot).get f i j = s.get f i j := rfl
@[simp] theorem State.dropJob_flag (s : State) (q slot : Nat) (f : FN) (i j : Nat) :
    (s.dropJob q slot).flag f i j = s.flag f i j := rfl
@[simp] theorem State.dropJob_eff (s : State) (q slot : Nat) (f : FN) (i j : Nat) :
    (s.dropJob q slot).eff f i j = s.eff f i j := rfl

/-! ### State.setEddy -/

@[simp] theorem State.setEddy_regs (s : State) (e w : Nat) (x : Eddy) : (s.setEddy e w x).regs = s.regs := rfl
@[simp] theorem State.setEddy_inForce (s : State) (e w : Nat) (x : Eddy) : (s.setEddy e w x).inForce = s.inForce := rfl
@[simp] theorem State.setEddy_timer (s : State) (e w : Nat) (x : Eddy) : (s.setEddy e w x).timer = s.timer := rfl
@[simp] theorem State.setEddy_aonTime (s : State) (e w : Nat) (x : Eddy) : (s.setEddy e w x).aonTime = s.aonTime := rfl
@[simp] theorem State.setEddy_freeCtr (s : State) (e w : Nat) (x : Eddy) : (s.setEddy e w x).freeCtr = s.freeCtr := rfl
@[simp] theorem State.setEddy_out (s : State) (e w : Nat) (x : Eddy) : (s.setEddy e w x).out = s.out := rfl
@[simp] theorem State.setEddy_collector (s : State) (e w : Nat) (x : Eddy) : (s.setEddy e w x).collector = s.collector := rfl
@[simp] theorem State.setEddy_events (s : State) (e w : Nat) (x : Eddy) : (s.setEddy e w x).events = s.events := rfl
@[simp] theorem State.setEddy_counters (s : State) (e w : Nat) (x : Eddy) : (s.setEddy e w x).counters = s.counters := rfl
@[simp] theorem State.setEddy_lake (s : State) (e w : Nat) (x : Eddy) : (s.setEddy e w x).lake = s.lake := rfl
@[simp] theorem State.setEddy_stalls (s : State) (e w : Nat) (x : Eddy) : (s.setEddy e w x).stalls = s.stalls := rfl
@[simp] theorem State.setEddy_scratch (s : State) (e w : Nat) (x : Eddy) : (s.setEddy e w x).scratch = s.scratch := rfl
@[simp] theorem State.setEddy_packs (s : State) (e w : Nat) (x : Eddy) : (s.setEddy e w x).packs = s.packs := rfl
@[simp] theorem State.setEddy_dram (s : State) (e w : Nat) (x : Eddy) : (s.setEddy e w x).dram = s.dram := rfl
@[simp] theorem State.setEddy_vlink (s : State) (e w : Nat) (x : Eddy) : (s.setEddy e w x).vlink = s.vlink := rfl
@[simp] theorem State.setEddy_dredge (s : State) (e w : Nat) (x : Eddy) : (s.setEddy e w x).dredge = s.dredge := rfl
@[simp] theorem State.setEddy_retire (s : State) (e w : Nat) (x : Eddy) : (s.setEddy e w x).retire = s.retire := rfl
@[simp] theorem State.setEddy_flash (s : State) (e w : Nat) (x : Eddy) : (s.setEddy e w x).flash = s.flash := rfl
@[simp] theorem State.setEddy_cal (s : State) (e w : Nat) (x : Eddy) : (s.setEddy e w x).cal = s.cal := rfl
@[simp] theorem State.setEddy_image (s : State) (e w : Nat) (x : Eddy) : (s.setEddy e w x).image = s.image := rfl
@[simp] theorem State.setEddy_weirs (s : State) (e w : Nat) (x : Eddy) : (s.setEddy e w x).weirs = s.weirs := rfl
@[simp] theorem State.setEddy_pcie (s : State) (e w : Nat) (x : Eddy) : (s.setEddy e w x).pcie = s.pcie := rfl
@[simp] theorem State.setEddy_jobUnit (s : State) (e w : Nat) (x : Eddy) : (s.setEddy e w x).jobUnit = s.jobUnit := rfl
@[simp] theorem State.setEddy_ponds (s : State) (e w : Nat) (x : Eddy) : (s.setEddy e w x).ponds = s.ponds := rfl
@[simp] theorem State.setEddy_seals (s : State) (e w : Nat) (x : Eddy) : (s.setEddy e w x).seals = s.seals := rfl
@[simp] theorem State.setEddy_planSlots (s : State) (e w : Nat) (x : Eddy) : (s.setEddy e w x).planSlots = s.planSlots := rfl
@[simp] theorem State.setEddy_trust (s : State) (e w : Nat) (x : Eddy) : (s.setEddy e w x).trust = s.trust := rfl
@[simp] theorem State.setEddy_fuses (s : State) (e w : Nat) (x : Eddy) : (s.setEddy e w x).fuses = s.fuses := rfl
@[simp] theorem State.setEddy_bist (s : State) (e w : Nat) (x : Eddy) : (s.setEddy e w x).bist = s.bist := rfl
@[simp] theorem State.setEddy_thermal (s : State) (e w : Nat) (x : Eddy) : (s.setEddy e w x).thermal = s.thermal := rfl
@[simp] theorem State.setEddy_boot (s : State) (e w : Nat) (x : Eddy) : (s.setEddy e w x).boot = s.boot := rfl
@[simp] theorem State.setEddy_get (s : State) (e w : Nat) (x : Eddy) (f : FN) (i j : Nat) :
    (s.setEddy e w x).get f i j = s.get f i j := rfl
@[simp] theorem State.setEddy_flag (s : State) (e w : Nat) (x : Eddy) (f : FN) (i j : Nat) :
    (s.setEddy e w x).flag f i j = s.flag f i j := rfl
@[simp] theorem State.setEddy_eff (s : State) (e w : Nat) (x : Eddy) (f : FN) (i j : Nat) :
    (s.setEddy e w x).eff f i j = s.eff f i j := rfl

/-! ### State.setPlanSlot -/

@[simp] theorem State.setPlanSlot_regs (s : State) (f k : Nat) (x : PlanSlot) : (s.setPlanSlot f k x).regs = s.regs := rfl
@[simp] theorem State.setPlanSlot_inForce (s : State) (f k : Nat) (x : PlanSlot) : (s.setPlanSlot f k x).inForce = s.inForce := rfl
@[simp] theorem State.setPlanSlot_timer (s : State) (f k : Nat) (x : PlanSlot) : (s.setPlanSlot f k x).timer = s.timer := rfl
@[simp] theorem State.setPlanSlot_aonTime (s : State) (f k : Nat) (x : PlanSlot) : (s.setPlanSlot f k x).aonTime = s.aonTime := rfl
@[simp] theorem State.setPlanSlot_freeCtr (s : State) (f k : Nat) (x : PlanSlot) : (s.setPlanSlot f k x).freeCtr = s.freeCtr := rfl
@[simp] theorem State.setPlanSlot_out (s : State) (f k : Nat) (x : PlanSlot) : (s.setPlanSlot f k x).out = s.out := rfl
@[simp] theorem State.setPlanSlot_collector (s : State) (f k : Nat) (x : PlanSlot) : (s.setPlanSlot f k x).collector = s.collector := rfl
@[simp] theorem State.setPlanSlot_events (s : State) (f k : Nat) (x : PlanSlot) : (s.setPlanSlot f k x).events = s.events := rfl
@[simp] theorem State.setPlanSlot_counters (s : State) (f k : Nat) (x : PlanSlot) : (s.setPlanSlot f k x).counters = s.counters := rfl
@[simp] theorem State.setPlanSlot_lake (s : State) (f k : Nat) (x : PlanSlot) : (s.setPlanSlot f k x).lake = s.lake := rfl
@[simp] theorem State.setPlanSlot_eddies (s : State) (f k : Nat) (x : PlanSlot) : (s.setPlanSlot f k x).eddies = s.eddies := rfl
@[simp] theorem State.setPlanSlot_stalls (s : State) (f k : Nat) (x : PlanSlot) : (s.setPlanSlot f k x).stalls = s.stalls := rfl
@[simp] theorem State.setPlanSlot_scratch (s : State) (f k : Nat) (x : PlanSlot) : (s.setPlanSlot f k x).scratch = s.scratch := rfl
@[simp] theorem State.setPlanSlot_packs (s : State) (f k : Nat) (x : PlanSlot) : (s.setPlanSlot f k x).packs = s.packs := rfl
@[simp] theorem State.setPlanSlot_dram (s : State) (f k : Nat) (x : PlanSlot) : (s.setPlanSlot f k x).dram = s.dram := rfl
@[simp] theorem State.setPlanSlot_vlink (s : State) (f k : Nat) (x : PlanSlot) : (s.setPlanSlot f k x).vlink = s.vlink := rfl
@[simp] theorem State.setPlanSlot_dredge (s : State) (f k : Nat) (x : PlanSlot) : (s.setPlanSlot f k x).dredge = s.dredge := rfl
@[simp] theorem State.setPlanSlot_retire (s : State) (f k : Nat) (x : PlanSlot) : (s.setPlanSlot f k x).retire = s.retire := rfl
@[simp] theorem State.setPlanSlot_flash (s : State) (f k : Nat) (x : PlanSlot) : (s.setPlanSlot f k x).flash = s.flash := rfl
@[simp] theorem State.setPlanSlot_cal (s : State) (f k : Nat) (x : PlanSlot) : (s.setPlanSlot f k x).cal = s.cal := rfl
@[simp] theorem State.setPlanSlot_image (s : State) (f k : Nat) (x : PlanSlot) : (s.setPlanSlot f k x).image = s.image := rfl
@[simp] theorem State.setPlanSlot_weirs (s : State) (f k : Nat) (x : PlanSlot) : (s.setPlanSlot f k x).weirs = s.weirs := rfl
@[simp] theorem State.setPlanSlot_pcie (s : State) (f k : Nat) (x : PlanSlot) : (s.setPlanSlot f k x).pcie = s.pcie := rfl
@[simp] theorem State.setPlanSlot_jobUnit (s : State) (f k : Nat) (x : PlanSlot) : (s.setPlanSlot f k x).jobUnit = s.jobUnit := rfl
@[simp] theorem State.setPlanSlot_ponds (s : State) (f k : Nat) (x : PlanSlot) : (s.setPlanSlot f k x).ponds = s.ponds := rfl
@[simp] theorem State.setPlanSlot_seals (s : State) (f k : Nat) (x : PlanSlot) : (s.setPlanSlot f k x).seals = s.seals := rfl
@[simp] theorem State.setPlanSlot_trust (s : State) (f k : Nat) (x : PlanSlot) : (s.setPlanSlot f k x).trust = s.trust := rfl
@[simp] theorem State.setPlanSlot_fuses (s : State) (f k : Nat) (x : PlanSlot) : (s.setPlanSlot f k x).fuses = s.fuses := rfl
@[simp] theorem State.setPlanSlot_bist (s : State) (f k : Nat) (x : PlanSlot) : (s.setPlanSlot f k x).bist = s.bist := rfl
@[simp] theorem State.setPlanSlot_thermal (s : State) (f k : Nat) (x : PlanSlot) : (s.setPlanSlot f k x).thermal = s.thermal := rfl
@[simp] theorem State.setPlanSlot_boot (s : State) (f k : Nat) (x : PlanSlot) : (s.setPlanSlot f k x).boot = s.boot := rfl
@[simp] theorem State.setPlanSlot_get (s : State) (a k : Nat) (x : PlanSlot) (f : FN) (i j : Nat) :
    (s.setPlanSlot a k x).get f i j = s.get f i j := rfl
@[simp] theorem State.setPlanSlot_flag (s : State) (a k : Nat) (x : PlanSlot) (f : FN) (i j : Nat) :
    (s.setPlanSlot a k x).flag f i j = s.flag f i j := rfl
@[simp] theorem State.setPlanSlot_eff (s : State) (a k : Nat) (x : PlanSlot) (f : FN) (i j : Nat) :
    (s.setPlanSlot a k x).eff f i j = s.eff f i j := rfl

/-! ### State.setSeal -/

@[simp] theorem State.setSeal_regs (s : State) (f : Nat) (x : SealFn) : (s.setSeal f x).regs = s.regs := rfl
@[simp] theorem State.setSeal_inForce (s : State) (f : Nat) (x : SealFn) : (s.setSeal f x).inForce = s.inForce := rfl
@[simp] theorem State.setSeal_timer (s : State) (f : Nat) (x : SealFn) : (s.setSeal f x).timer = s.timer := rfl
@[simp] theorem State.setSeal_aonTime (s : State) (f : Nat) (x : SealFn) : (s.setSeal f x).aonTime = s.aonTime := rfl
@[simp] theorem State.setSeal_freeCtr (s : State) (f : Nat) (x : SealFn) : (s.setSeal f x).freeCtr = s.freeCtr := rfl
@[simp] theorem State.setSeal_out (s : State) (f : Nat) (x : SealFn) : (s.setSeal f x).out = s.out := rfl
@[simp] theorem State.setSeal_collector (s : State) (f : Nat) (x : SealFn) : (s.setSeal f x).collector = s.collector := rfl
@[simp] theorem State.setSeal_events (s : State) (f : Nat) (x : SealFn) : (s.setSeal f x).events = s.events := rfl
@[simp] theorem State.setSeal_counters (s : State) (f : Nat) (x : SealFn) : (s.setSeal f x).counters = s.counters := rfl
@[simp] theorem State.setSeal_lake (s : State) (f : Nat) (x : SealFn) : (s.setSeal f x).lake = s.lake := rfl
@[simp] theorem State.setSeal_eddies (s : State) (f : Nat) (x : SealFn) : (s.setSeal f x).eddies = s.eddies := rfl
@[simp] theorem State.setSeal_stalls (s : State) (f : Nat) (x : SealFn) : (s.setSeal f x).stalls = s.stalls := rfl
@[simp] theorem State.setSeal_scratch (s : State) (f : Nat) (x : SealFn) : (s.setSeal f x).scratch = s.scratch := rfl
@[simp] theorem State.setSeal_packs (s : State) (f : Nat) (x : SealFn) : (s.setSeal f x).packs = s.packs := rfl
@[simp] theorem State.setSeal_dram (s : State) (f : Nat) (x : SealFn) : (s.setSeal f x).dram = s.dram := rfl
@[simp] theorem State.setSeal_vlink (s : State) (f : Nat) (x : SealFn) : (s.setSeal f x).vlink = s.vlink := rfl
@[simp] theorem State.setSeal_dredge (s : State) (f : Nat) (x : SealFn) : (s.setSeal f x).dredge = s.dredge := rfl
@[simp] theorem State.setSeal_retire (s : State) (f : Nat) (x : SealFn) : (s.setSeal f x).retire = s.retire := rfl
@[simp] theorem State.setSeal_flash (s : State) (f : Nat) (x : SealFn) : (s.setSeal f x).flash = s.flash := rfl
@[simp] theorem State.setSeal_cal (s : State) (f : Nat) (x : SealFn) : (s.setSeal f x).cal = s.cal := rfl
@[simp] theorem State.setSeal_image (s : State) (f : Nat) (x : SealFn) : (s.setSeal f x).image = s.image := rfl
@[simp] theorem State.setSeal_weirs (s : State) (f : Nat) (x : SealFn) : (s.setSeal f x).weirs = s.weirs := rfl
@[simp] theorem State.setSeal_pcie (s : State) (f : Nat) (x : SealFn) : (s.setSeal f x).pcie = s.pcie := rfl
@[simp] theorem State.setSeal_jobUnit (s : State) (f : Nat) (x : SealFn) : (s.setSeal f x).jobUnit = s.jobUnit := rfl
@[simp] theorem State.setSeal_ponds (s : State) (f : Nat) (x : SealFn) : (s.setSeal f x).ponds = s.ponds := rfl
@[simp] theorem State.setSeal_planSlots (s : State) (f : Nat) (x : SealFn) : (s.setSeal f x).planSlots = s.planSlots := rfl
@[simp] theorem State.setSeal_trust (s : State) (f : Nat) (x : SealFn) : (s.setSeal f x).trust = s.trust := rfl
@[simp] theorem State.setSeal_fuses (s : State) (f : Nat) (x : SealFn) : (s.setSeal f x).fuses = s.fuses := rfl
@[simp] theorem State.setSeal_bist (s : State) (f : Nat) (x : SealFn) : (s.setSeal f x).bist = s.bist := rfl
@[simp] theorem State.setSeal_thermal (s : State) (f : Nat) (x : SealFn) : (s.setSeal f x).thermal = s.thermal := rfl
@[simp] theorem State.setSeal_boot (s : State) (f : Nat) (x : SealFn) : (s.setSeal f x).boot = s.boot := rfl
@[simp] theorem State.setSeal_get (s : State) (a : Nat) (x : SealFn) (f : FN) (i j : Nat) :
    (s.setSeal a x).get f i j = s.get f i j := rfl
@[simp] theorem State.setSeal_flag (s : State) (a : Nat) (x : SealFn) (f : FN) (i j : Nat) :
    (s.setSeal a x).flag f i j = s.flag f i j := rfl
@[simp] theorem State.setSeal_eff (s : State) (a : Nat) (x : SealFn) (f : FN) (i j : Nat) :
    (s.setSeal a x).eff f i j = s.eff f i j := rfl

/-! ### State.setConn -/

@[simp] theorem State.setConn_regs (s : State) (t : Transport) (c : SpdmConn) : (s.setConn t c).regs = s.regs := rfl
@[simp] theorem State.setConn_inForce (s : State) (t : Transport) (c : SpdmConn) : (s.setConn t c).inForce = s.inForce := rfl
@[simp] theorem State.setConn_timer (s : State) (t : Transport) (c : SpdmConn) : (s.setConn t c).timer = s.timer := rfl
@[simp] theorem State.setConn_aonTime (s : State) (t : Transport) (c : SpdmConn) : (s.setConn t c).aonTime = s.aonTime := rfl
@[simp] theorem State.setConn_freeCtr (s : State) (t : Transport) (c : SpdmConn) : (s.setConn t c).freeCtr = s.freeCtr := rfl
@[simp] theorem State.setConn_out (s : State) (t : Transport) (c : SpdmConn) : (s.setConn t c).out = s.out := rfl
@[simp] theorem State.setConn_collector (s : State) (t : Transport) (c : SpdmConn) : (s.setConn t c).collector = s.collector := rfl
@[simp] theorem State.setConn_events (s : State) (t : Transport) (c : SpdmConn) : (s.setConn t c).events = s.events := rfl
@[simp] theorem State.setConn_counters (s : State) (t : Transport) (c : SpdmConn) : (s.setConn t c).counters = s.counters := rfl
@[simp] theorem State.setConn_lake (s : State) (t : Transport) (c : SpdmConn) : (s.setConn t c).lake = s.lake := rfl
@[simp] theorem State.setConn_eddies (s : State) (t : Transport) (c : SpdmConn) : (s.setConn t c).eddies = s.eddies := rfl
@[simp] theorem State.setConn_stalls (s : State) (t : Transport) (c : SpdmConn) : (s.setConn t c).stalls = s.stalls := rfl
@[simp] theorem State.setConn_scratch (s : State) (t : Transport) (c : SpdmConn) : (s.setConn t c).scratch = s.scratch := rfl
@[simp] theorem State.setConn_packs (s : State) (t : Transport) (c : SpdmConn) : (s.setConn t c).packs = s.packs := rfl
@[simp] theorem State.setConn_dram (s : State) (t : Transport) (c : SpdmConn) : (s.setConn t c).dram = s.dram := rfl
@[simp] theorem State.setConn_vlink (s : State) (t : Transport) (c : SpdmConn) : (s.setConn t c).vlink = s.vlink := rfl
@[simp] theorem State.setConn_dredge (s : State) (t : Transport) (c : SpdmConn) : (s.setConn t c).dredge = s.dredge := rfl
@[simp] theorem State.setConn_retire (s : State) (t : Transport) (c : SpdmConn) : (s.setConn t c).retire = s.retire := rfl
@[simp] theorem State.setConn_flash (s : State) (t : Transport) (c : SpdmConn) : (s.setConn t c).flash = s.flash := rfl
@[simp] theorem State.setConn_cal (s : State) (t : Transport) (c : SpdmConn) : (s.setConn t c).cal = s.cal := rfl
@[simp] theorem State.setConn_image (s : State) (t : Transport) (c : SpdmConn) : (s.setConn t c).image = s.image := rfl
@[simp] theorem State.setConn_weirs (s : State) (t : Transport) (c : SpdmConn) : (s.setConn t c).weirs = s.weirs := rfl
@[simp] theorem State.setConn_pcie (s : State) (t : Transport) (c : SpdmConn) : (s.setConn t c).pcie = s.pcie := rfl
@[simp] theorem State.setConn_jobUnit (s : State) (t : Transport) (c : SpdmConn) : (s.setConn t c).jobUnit = s.jobUnit := rfl
@[simp] theorem State.setConn_ponds (s : State) (t : Transport) (c : SpdmConn) : (s.setConn t c).ponds = s.ponds := rfl
@[simp] theorem State.setConn_seals (s : State) (t : Transport) (c : SpdmConn) : (s.setConn t c).seals = s.seals := rfl
@[simp] theorem State.setConn_planSlots (s : State) (t : Transport) (c : SpdmConn) : (s.setConn t c).planSlots = s.planSlots := rfl
@[simp] theorem State.setConn_fuses (s : State) (t : Transport) (c : SpdmConn) : (s.setConn t c).fuses = s.fuses := rfl
@[simp] theorem State.setConn_bist (s : State) (t : Transport) (c : SpdmConn) : (s.setConn t c).bist = s.bist := rfl
@[simp] theorem State.setConn_thermal (s : State) (t : Transport) (c : SpdmConn) : (s.setConn t c).thermal = s.thermal := rfl
@[simp] theorem State.setConn_boot (s : State) (t : Transport) (c : SpdmConn) : (s.setConn t c).boot = s.boot := rfl
@[simp] theorem State.setConn_get (s : State) (t : Transport) (c : SpdmConn) (f : FN) (i j : Nat) :
    (s.setConn t c).get f i j = s.get f i j := rfl
@[simp] theorem State.setConn_flag (s : State) (t : Transport) (c : SpdmConn) (f : FN) (i j : Nat) :
    (s.setConn t c).flag f i j = s.flag f i j := rfl
@[simp] theorem State.setConn_eff (s : State) (t : Transport) (c : SpdmConn) (f : FN) (i j : Nat) :
    (s.setConn t c).eff f i j = s.eff f i j := rfl

/-! ### State.setStream -/

@[simp] theorem State.setStream_regs (s : State) (n : Nat) (x : IdeStream) : (s.setStream n x).regs = s.regs := rfl
@[simp] theorem State.setStream_inForce (s : State) (n : Nat) (x : IdeStream) : (s.setStream n x).inForce = s.inForce := rfl
@[simp] theorem State.setStream_timer (s : State) (n : Nat) (x : IdeStream) : (s.setStream n x).timer = s.timer := rfl
@[simp] theorem State.setStream_aonTime (s : State) (n : Nat) (x : IdeStream) : (s.setStream n x).aonTime = s.aonTime := rfl
@[simp] theorem State.setStream_freeCtr (s : State) (n : Nat) (x : IdeStream) : (s.setStream n x).freeCtr = s.freeCtr := rfl
@[simp] theorem State.setStream_out (s : State) (n : Nat) (x : IdeStream) : (s.setStream n x).out = s.out := rfl
@[simp] theorem State.setStream_collector (s : State) (n : Nat) (x : IdeStream) : (s.setStream n x).collector = s.collector := rfl
@[simp] theorem State.setStream_events (s : State) (n : Nat) (x : IdeStream) : (s.setStream n x).events = s.events := rfl
@[simp] theorem State.setStream_counters (s : State) (n : Nat) (x : IdeStream) : (s.setStream n x).counters = s.counters := rfl
@[simp] theorem State.setStream_lake (s : State) (n : Nat) (x : IdeStream) : (s.setStream n x).lake = s.lake := rfl
@[simp] theorem State.setStream_eddies (s : State) (n : Nat) (x : IdeStream) : (s.setStream n x).eddies = s.eddies := rfl
@[simp] theorem State.setStream_stalls (s : State) (n : Nat) (x : IdeStream) : (s.setStream n x).stalls = s.stalls := rfl
@[simp] theorem State.setStream_scratch (s : State) (n : Nat) (x : IdeStream) : (s.setStream n x).scratch = s.scratch := rfl
@[simp] theorem State.setStream_packs (s : State) (n : Nat) (x : IdeStream) : (s.setStream n x).packs = s.packs := rfl
@[simp] theorem State.setStream_dram (s : State) (n : Nat) (x : IdeStream) : (s.setStream n x).dram = s.dram := rfl
@[simp] theorem State.setStream_vlink (s : State) (n : Nat) (x : IdeStream) : (s.setStream n x).vlink = s.vlink := rfl
@[simp] theorem State.setStream_dredge (s : State) (n : Nat) (x : IdeStream) : (s.setStream n x).dredge = s.dredge := rfl
@[simp] theorem State.setStream_retire (s : State) (n : Nat) (x : IdeStream) : (s.setStream n x).retire = s.retire := rfl
@[simp] theorem State.setStream_flash (s : State) (n : Nat) (x : IdeStream) : (s.setStream n x).flash = s.flash := rfl
@[simp] theorem State.setStream_cal (s : State) (n : Nat) (x : IdeStream) : (s.setStream n x).cal = s.cal := rfl
@[simp] theorem State.setStream_image (s : State) (n : Nat) (x : IdeStream) : (s.setStream n x).image = s.image := rfl
@[simp] theorem State.setStream_weirs (s : State) (n : Nat) (x : IdeStream) : (s.setStream n x).weirs = s.weirs := rfl
@[simp] theorem State.setStream_pcie (s : State) (n : Nat) (x : IdeStream) : (s.setStream n x).pcie = s.pcie := rfl
@[simp] theorem State.setStream_jobUnit (s : State) (n : Nat) (x : IdeStream) : (s.setStream n x).jobUnit = s.jobUnit := rfl
@[simp] theorem State.setStream_ponds (s : State) (n : Nat) (x : IdeStream) : (s.setStream n x).ponds = s.ponds := rfl
@[simp] theorem State.setStream_seals (s : State) (n : Nat) (x : IdeStream) : (s.setStream n x).seals = s.seals := rfl
@[simp] theorem State.setStream_planSlots (s : State) (n : Nat) (x : IdeStream) : (s.setStream n x).planSlots = s.planSlots := rfl
@[simp] theorem State.setStream_fuses (s : State) (n : Nat) (x : IdeStream) : (s.setStream n x).fuses = s.fuses := rfl
@[simp] theorem State.setStream_bist (s : State) (n : Nat) (x : IdeStream) : (s.setStream n x).bist = s.bist := rfl
@[simp] theorem State.setStream_thermal (s : State) (n : Nat) (x : IdeStream) : (s.setStream n x).thermal = s.thermal := rfl
@[simp] theorem State.setStream_boot (s : State) (n : Nat) (x : IdeStream) : (s.setStream n x).boot = s.boot := rfl
@[simp] theorem State.setStream_get (s : State) (n : Nat) (x : IdeStream) (f : FN) (i j : Nat) :
    (s.setStream n x).get f i j = s.get f i j := rfl
@[simp] theorem State.setStream_flag (s : State) (n : Nat) (x : IdeStream) (f : FN) (i j : Nat) :
    (s.setStream n x).flag f i j = s.flag f i j := rfl
@[simp] theorem State.setStream_eff (s : State) (n : Nat) (x : IdeStream) (f : FN) (i j : Nat) :
    (s.setStream n x).eff f i j = s.eff f i j := rfl

/-! ### State.setTarnWord -/

@[simp] theorem State.setTarnWord_regs (s : State) (a v : Nat) : (s.setTarnWord a v).regs = s.regs := rfl
@[simp] theorem State.setTarnWord_inForce (s : State) (a v : Nat) : (s.setTarnWord a v).inForce = s.inForce := rfl
@[simp] theorem State.setTarnWord_timer (s : State) (a v : Nat) : (s.setTarnWord a v).timer = s.timer := rfl
@[simp] theorem State.setTarnWord_aonTime (s : State) (a v : Nat) : (s.setTarnWord a v).aonTime = s.aonTime := rfl
@[simp] theorem State.setTarnWord_freeCtr (s : State) (a v : Nat) : (s.setTarnWord a v).freeCtr = s.freeCtr := rfl
@[simp] theorem State.setTarnWord_out (s : State) (a v : Nat) : (s.setTarnWord a v).out = s.out := rfl
@[simp] theorem State.setTarnWord_collector (s : State) (a v : Nat) : (s.setTarnWord a v).collector = s.collector := rfl
@[simp] theorem State.setTarnWord_events (s : State) (a v : Nat) : (s.setTarnWord a v).events = s.events := rfl
@[simp] theorem State.setTarnWord_counters (s : State) (a v : Nat) : (s.setTarnWord a v).counters = s.counters := rfl
@[simp] theorem State.setTarnWord_lake (s : State) (a v : Nat) : (s.setTarnWord a v).lake = s.lake := rfl
@[simp] theorem State.setTarnWord_eddies (s : State) (a v : Nat) : (s.setTarnWord a v).eddies = s.eddies := rfl
@[simp] theorem State.setTarnWord_stalls (s : State) (a v : Nat) : (s.setTarnWord a v).stalls = s.stalls := rfl
@[simp] theorem State.setTarnWord_scratch (s : State) (a v : Nat) : (s.setTarnWord a v).scratch = s.scratch := rfl
@[simp] theorem State.setTarnWord_packs (s : State) (a v : Nat) : (s.setTarnWord a v).packs = s.packs := rfl
@[simp] theorem State.setTarnWord_dram (s : State) (a v : Nat) : (s.setTarnWord a v).dram = s.dram := rfl
@[simp] theorem State.setTarnWord_vlink (s : State) (a v : Nat) : (s.setTarnWord a v).vlink = s.vlink := rfl
@[simp] theorem State.setTarnWord_dredge (s : State) (a v : Nat) : (s.setTarnWord a v).dredge = s.dredge := rfl
@[simp] theorem State.setTarnWord_retire (s : State) (a v : Nat) : (s.setTarnWord a v).retire = s.retire := rfl
@[simp] theorem State.setTarnWord_flash (s : State) (a v : Nat) : (s.setTarnWord a v).flash = s.flash := rfl
@[simp] theorem State.setTarnWord_cal (s : State) (a v : Nat) : (s.setTarnWord a v).cal = s.cal := rfl
@[simp] theorem State.setTarnWord_image (s : State) (a v : Nat) : (s.setTarnWord a v).image = s.image := rfl
@[simp] theorem State.setTarnWord_weirs (s : State) (a v : Nat) : (s.setTarnWord a v).weirs = s.weirs := rfl
@[simp] theorem State.setTarnWord_pcie (s : State) (a v : Nat) : (s.setTarnWord a v).pcie = s.pcie := rfl
@[simp] theorem State.setTarnWord_jobUnit (s : State) (a v : Nat) : (s.setTarnWord a v).jobUnit = s.jobUnit := rfl
@[simp] theorem State.setTarnWord_ponds (s : State) (a v : Nat) : (s.setTarnWord a v).ponds = s.ponds := rfl
@[simp] theorem State.setTarnWord_seals (s : State) (a v : Nat) : (s.setTarnWord a v).seals = s.seals := rfl
@[simp] theorem State.setTarnWord_planSlots (s : State) (a v : Nat) : (s.setTarnWord a v).planSlots = s.planSlots := rfl
@[simp] theorem State.setTarnWord_fuses (s : State) (a v : Nat) : (s.setTarnWord a v).fuses = s.fuses := rfl
@[simp] theorem State.setTarnWord_bist (s : State) (a v : Nat) : (s.setTarnWord a v).bist = s.bist := rfl
@[simp] theorem State.setTarnWord_thermal (s : State) (a v : Nat) : (s.setTarnWord a v).thermal = s.thermal := rfl
@[simp] theorem State.setTarnWord_boot (s : State) (a v : Nat) : (s.setTarnWord a v).boot = s.boot := rfl
@[simp] theorem State.setTarnWord_get (s : State) (x v : Nat) (f : FN) (i j : Nat) :
    (s.setTarnWord x v).get f i j = s.get f i j := rfl
@[simp] theorem State.setTarnWord_flag (s : State) (x v : Nat) (f : FN) (i j : Nat) :
    (s.setTarnWord x v).flag f i j = s.flag f i j := rfl
@[simp] theorem State.setTarnWord_eff (s : State) (x v : Nat) (f : FN) (i j : Nat) :
    (s.setTarnWord x v).eff f i j = s.eff f i j := rfl

/-! ### State.putSession -/

@[simp] theorem State.putSession_regs (s : State) (x : SpdmSession) : (s.putSession x).regs = s.regs := rfl
@[simp] theorem State.putSession_inForce (s : State) (x : SpdmSession) : (s.putSession x).inForce = s.inForce := rfl
@[simp] theorem State.putSession_timer (s : State) (x : SpdmSession) : (s.putSession x).timer = s.timer := rfl
@[simp] theorem State.putSession_aonTime (s : State) (x : SpdmSession) : (s.putSession x).aonTime = s.aonTime := rfl
@[simp] theorem State.putSession_freeCtr (s : State) (x : SpdmSession) : (s.putSession x).freeCtr = s.freeCtr := rfl
@[simp] theorem State.putSession_out (s : State) (x : SpdmSession) : (s.putSession x).out = s.out := rfl
@[simp] theorem State.putSession_collector (s : State) (x : SpdmSession) : (s.putSession x).collector = s.collector := rfl
@[simp] theorem State.putSession_events (s : State) (x : SpdmSession) : (s.putSession x).events = s.events := rfl
@[simp] theorem State.putSession_counters (s : State) (x : SpdmSession) : (s.putSession x).counters = s.counters := rfl
@[simp] theorem State.putSession_lake (s : State) (x : SpdmSession) : (s.putSession x).lake = s.lake := rfl
@[simp] theorem State.putSession_eddies (s : State) (x : SpdmSession) : (s.putSession x).eddies = s.eddies := rfl
@[simp] theorem State.putSession_stalls (s : State) (x : SpdmSession) : (s.putSession x).stalls = s.stalls := rfl
@[simp] theorem State.putSession_scratch (s : State) (x : SpdmSession) : (s.putSession x).scratch = s.scratch := rfl
@[simp] theorem State.putSession_packs (s : State) (x : SpdmSession) : (s.putSession x).packs = s.packs := rfl
@[simp] theorem State.putSession_dram (s : State) (x : SpdmSession) : (s.putSession x).dram = s.dram := rfl
@[simp] theorem State.putSession_vlink (s : State) (x : SpdmSession) : (s.putSession x).vlink = s.vlink := rfl
@[simp] theorem State.putSession_dredge (s : State) (x : SpdmSession) : (s.putSession x).dredge = s.dredge := rfl
@[simp] theorem State.putSession_retire (s : State) (x : SpdmSession) : (s.putSession x).retire = s.retire := rfl
@[simp] theorem State.putSession_flash (s : State) (x : SpdmSession) : (s.putSession x).flash = s.flash := rfl
@[simp] theorem State.putSession_cal (s : State) (x : SpdmSession) : (s.putSession x).cal = s.cal := rfl
@[simp] theorem State.putSession_image (s : State) (x : SpdmSession) : (s.putSession x).image = s.image := rfl
@[simp] theorem State.putSession_weirs (s : State) (x : SpdmSession) : (s.putSession x).weirs = s.weirs := rfl
@[simp] theorem State.putSession_pcie (s : State) (x : SpdmSession) : (s.putSession x).pcie = s.pcie := rfl
@[simp] theorem State.putSession_jobUnit (s : State) (x : SpdmSession) : (s.putSession x).jobUnit = s.jobUnit := rfl
@[simp] theorem State.putSession_ponds (s : State) (x : SpdmSession) : (s.putSession x).ponds = s.ponds := rfl
@[simp] theorem State.putSession_seals (s : State) (x : SpdmSession) : (s.putSession x).seals = s.seals := rfl
@[simp] theorem State.putSession_planSlots (s : State) (x : SpdmSession) : (s.putSession x).planSlots = s.planSlots := rfl
@[simp] theorem State.putSession_fuses (s : State) (x : SpdmSession) : (s.putSession x).fuses = s.fuses := rfl
@[simp] theorem State.putSession_bist (s : State) (x : SpdmSession) : (s.putSession x).bist = s.bist := rfl
@[simp] theorem State.putSession_thermal (s : State) (x : SpdmSession) : (s.putSession x).thermal = s.thermal := rfl
@[simp] theorem State.putSession_boot (s : State) (x : SpdmSession) : (s.putSession x).boot = s.boot := rfl
@[simp] theorem State.putSession_get (s : State) (x : SpdmSession) (f : FN) (i j : Nat) :
    (s.putSession x).get f i j = s.get f i j := rfl
@[simp] theorem State.putSession_flag (s : State) (x : SpdmSession) (f : FN) (i j : Nat) :
    (s.putSession x).flag f i j = s.flag f i j := rfl
@[simp] theorem State.putSession_eff (s : State) (x : SpdmSession) (f : FN) (i j : Nat) :
    (s.putSession x).eff f i j = s.eff f i j := rfl

/-! ### State.setPortBucket -/

@[simp] theorem State.setPortBucket_regs (s : State) (p : Nat) (v : Int) : (s.setPortBucket p v).regs = s.regs := rfl
@[simp] theorem State.setPortBucket_inForce (s : State) (p : Nat) (v : Int) : (s.setPortBucket p v).inForce = s.inForce := rfl
@[simp] theorem State.setPortBucket_timer (s : State) (p : Nat) (v : Int) : (s.setPortBucket p v).timer = s.timer := rfl
@[simp] theorem State.setPortBucket_aonTime (s : State) (p : Nat) (v : Int) : (s.setPortBucket p v).aonTime = s.aonTime := rfl
@[simp] theorem State.setPortBucket_freeCtr (s : State) (p : Nat) (v : Int) : (s.setPortBucket p v).freeCtr = s.freeCtr := rfl
@[simp] theorem State.setPortBucket_out (s : State) (p : Nat) (v : Int) : (s.setPortBucket p v).out = s.out := rfl
@[simp] theorem State.setPortBucket_collector (s : State) (p : Nat) (v : Int) : (s.setPortBucket p v).collector = s.collector := rfl
@[simp] theorem State.setPortBucket_events (s : State) (p : Nat) (v : Int) : (s.setPortBucket p v).events = s.events := rfl
@[simp] theorem State.setPortBucket_counters (s : State) (p : Nat) (v : Int) : (s.setPortBucket p v).counters = s.counters := rfl
@[simp] theorem State.setPortBucket_lake (s : State) (p : Nat) (v : Int) : (s.setPortBucket p v).lake = s.lake := rfl
@[simp] theorem State.setPortBucket_eddies (s : State) (p : Nat) (v : Int) : (s.setPortBucket p v).eddies = s.eddies := rfl
@[simp] theorem State.setPortBucket_stalls (s : State) (p : Nat) (v : Int) : (s.setPortBucket p v).stalls = s.stalls := rfl
@[simp] theorem State.setPortBucket_scratch (s : State) (p : Nat) (v : Int) : (s.setPortBucket p v).scratch = s.scratch := rfl
@[simp] theorem State.setPortBucket_packs (s : State) (p : Nat) (v : Int) : (s.setPortBucket p v).packs = s.packs := rfl
@[simp] theorem State.setPortBucket_dram (s : State) (p : Nat) (v : Int) : (s.setPortBucket p v).dram = s.dram := rfl
@[simp] theorem State.setPortBucket_vlink (s : State) (p : Nat) (v : Int) : (s.setPortBucket p v).vlink = s.vlink := rfl
@[simp] theorem State.setPortBucket_dredge (s : State) (p : Nat) (v : Int) : (s.setPortBucket p v).dredge = s.dredge := rfl
@[simp] theorem State.setPortBucket_retire (s : State) (p : Nat) (v : Int) : (s.setPortBucket p v).retire = s.retire := rfl
@[simp] theorem State.setPortBucket_flash (s : State) (p : Nat) (v : Int) : (s.setPortBucket p v).flash = s.flash := rfl
@[simp] theorem State.setPortBucket_cal (s : State) (p : Nat) (v : Int) : (s.setPortBucket p v).cal = s.cal := rfl
@[simp] theorem State.setPortBucket_image (s : State) (p : Nat) (v : Int) : (s.setPortBucket p v).image = s.image := rfl
@[simp] theorem State.setPortBucket_pcie (s : State) (p : Nat) (v : Int) : (s.setPortBucket p v).pcie = s.pcie := rfl
@[simp] theorem State.setPortBucket_jobUnit (s : State) (p : Nat) (v : Int) : (s.setPortBucket p v).jobUnit = s.jobUnit := rfl
@[simp] theorem State.setPortBucket_ponds (s : State) (p : Nat) (v : Int) : (s.setPortBucket p v).ponds = s.ponds := rfl
@[simp] theorem State.setPortBucket_seals (s : State) (p : Nat) (v : Int) : (s.setPortBucket p v).seals = s.seals := rfl
@[simp] theorem State.setPortBucket_planSlots (s : State) (p : Nat) (v : Int) : (s.setPortBucket p v).planSlots = s.planSlots := rfl
@[simp] theorem State.setPortBucket_trust (s : State) (p : Nat) (v : Int) : (s.setPortBucket p v).trust = s.trust := rfl
@[simp] theorem State.setPortBucket_fuses (s : State) (p : Nat) (v : Int) : (s.setPortBucket p v).fuses = s.fuses := rfl
@[simp] theorem State.setPortBucket_bist (s : State) (p : Nat) (v : Int) : (s.setPortBucket p v).bist = s.bist := rfl
@[simp] theorem State.setPortBucket_thermal (s : State) (p : Nat) (v : Int) : (s.setPortBucket p v).thermal = s.thermal := rfl
@[simp] theorem State.setPortBucket_boot (s : State) (p : Nat) (v : Int) : (s.setPortBucket p v).boot = s.boot := rfl
@[simp] theorem State.setPortBucket_get (s : State) (p : Nat) (v : Int) (f : FN) (i j : Nat) :
    (s.setPortBucket p v).get f i j = s.get f i j := rfl
@[simp] theorem State.setPortBucket_flag (s : State) (p : Nat) (v : Int) (f : FN) (i j : Nat) :
    (s.setPortBucket p v).flag f i j = s.flag f i j := rfl
@[simp] theorem State.setPortBucket_eff (s : State) (p : Nat) (v : Int) (f : FN) (i j : Nat) :
    (s.setPortBucket p v).eff f i j = s.eff f i j := rfl

/-! ### State.setGrpBucket -/

@[simp] theorem State.setGrpBucket_regs (s : State) (g v : Nat) : (s.setGrpBucket g v).regs = s.regs := rfl
@[simp] theorem State.setGrpBucket_inForce (s : State) (g v : Nat) : (s.setGrpBucket g v).inForce = s.inForce := rfl
@[simp] theorem State.setGrpBucket_timer (s : State) (g v : Nat) : (s.setGrpBucket g v).timer = s.timer := rfl
@[simp] theorem State.setGrpBucket_aonTime (s : State) (g v : Nat) : (s.setGrpBucket g v).aonTime = s.aonTime := rfl
@[simp] theorem State.setGrpBucket_freeCtr (s : State) (g v : Nat) : (s.setGrpBucket g v).freeCtr = s.freeCtr := rfl
@[simp] theorem State.setGrpBucket_out (s : State) (g v : Nat) : (s.setGrpBucket g v).out = s.out := rfl
@[simp] theorem State.setGrpBucket_collector (s : State) (g v : Nat) : (s.setGrpBucket g v).collector = s.collector := rfl
@[simp] theorem State.setGrpBucket_events (s : State) (g v : Nat) : (s.setGrpBucket g v).events = s.events := rfl
@[simp] theorem State.setGrpBucket_counters (s : State) (g v : Nat) : (s.setGrpBucket g v).counters = s.counters := rfl
@[simp] theorem State.setGrpBucket_lake (s : State) (g v : Nat) : (s.setGrpBucket g v).lake = s.lake := rfl
@[simp] theorem State.setGrpBucket_eddies (s : State) (g v : Nat) : (s.setGrpBucket g v).eddies = s.eddies := rfl
@[simp] theorem State.setGrpBucket_stalls (s : State) (g v : Nat) : (s.setGrpBucket g v).stalls = s.stalls := rfl
@[simp] theorem State.setGrpBucket_scratch (s : State) (g v : Nat) : (s.setGrpBucket g v).scratch = s.scratch := rfl
@[simp] theorem State.setGrpBucket_packs (s : State) (g v : Nat) : (s.setGrpBucket g v).packs = s.packs := rfl
@[simp] theorem State.setGrpBucket_dram (s : State) (g v : Nat) : (s.setGrpBucket g v).dram = s.dram := rfl
@[simp] theorem State.setGrpBucket_vlink (s : State) (g v : Nat) : (s.setGrpBucket g v).vlink = s.vlink := rfl
@[simp] theorem State.setGrpBucket_dredge (s : State) (g v : Nat) : (s.setGrpBucket g v).dredge = s.dredge := rfl
@[simp] theorem State.setGrpBucket_retire (s : State) (g v : Nat) : (s.setGrpBucket g v).retire = s.retire := rfl
@[simp] theorem State.setGrpBucket_flash (s : State) (g v : Nat) : (s.setGrpBucket g v).flash = s.flash := rfl
@[simp] theorem State.setGrpBucket_cal (s : State) (g v : Nat) : (s.setGrpBucket g v).cal = s.cal := rfl
@[simp] theorem State.setGrpBucket_image (s : State) (g v : Nat) : (s.setGrpBucket g v).image = s.image := rfl
@[simp] theorem State.setGrpBucket_pcie (s : State) (g v : Nat) : (s.setGrpBucket g v).pcie = s.pcie := rfl
@[simp] theorem State.setGrpBucket_jobUnit (s : State) (g v : Nat) : (s.setGrpBucket g v).jobUnit = s.jobUnit := rfl
@[simp] theorem State.setGrpBucket_ponds (s : State) (g v : Nat) : (s.setGrpBucket g v).ponds = s.ponds := rfl
@[simp] theorem State.setGrpBucket_seals (s : State) (g v : Nat) : (s.setGrpBucket g v).seals = s.seals := rfl
@[simp] theorem State.setGrpBucket_planSlots (s : State) (g v : Nat) : (s.setGrpBucket g v).planSlots = s.planSlots := rfl
@[simp] theorem State.setGrpBucket_trust (s : State) (g v : Nat) : (s.setGrpBucket g v).trust = s.trust := rfl
@[simp] theorem State.setGrpBucket_fuses (s : State) (g v : Nat) : (s.setGrpBucket g v).fuses = s.fuses := rfl
@[simp] theorem State.setGrpBucket_bist (s : State) (g v : Nat) : (s.setGrpBucket g v).bist = s.bist := rfl
@[simp] theorem State.setGrpBucket_thermal (s : State) (g v : Nat) : (s.setGrpBucket g v).thermal = s.thermal := rfl
@[simp] theorem State.setGrpBucket_boot (s : State) (g v : Nat) : (s.setGrpBucket g v).boot = s.boot := rfl
@[simp] theorem State.setGrpBucket_get (s : State) (g v : Nat) (f : FN) (i j : Nat) :
    (s.setGrpBucket g v).get f i j = s.get f i j := rfl
@[simp] theorem State.setGrpBucket_flag (s : State) (g v : Nat) (f : FN) (i j : Nat) :
    (s.setGrpBucket g v).flag f i j = s.flag f i j := rfl
@[simp] theorem State.setGrpBucket_eff (s : State) (g v : Nat) (f : FN) (i j : Nat) :
    (s.setGrpBucket g v).eff f i j = s.eff f i j := rfl

/-! ### State.flashPut -/

@[simp] theorem State.flashPut_regs (s : State) (a : Nat) (bytes : List Byte) : (s.flashPut a bytes).regs = s.regs := rfl
@[simp] theorem State.flashPut_inForce (s : State) (a : Nat) (bytes : List Byte) : (s.flashPut a bytes).inForce = s.inForce := rfl
@[simp] theorem State.flashPut_timer (s : State) (a : Nat) (bytes : List Byte) : (s.flashPut a bytes).timer = s.timer := rfl
@[simp] theorem State.flashPut_aonTime (s : State) (a : Nat) (bytes : List Byte) : (s.flashPut a bytes).aonTime = s.aonTime := rfl
@[simp] theorem State.flashPut_freeCtr (s : State) (a : Nat) (bytes : List Byte) : (s.flashPut a bytes).freeCtr = s.freeCtr := rfl
@[simp] theorem State.flashPut_out (s : State) (a : Nat) (bytes : List Byte) : (s.flashPut a bytes).out = s.out := rfl
@[simp] theorem State.flashPut_collector (s : State) (a : Nat) (bytes : List Byte) : (s.flashPut a bytes).collector = s.collector := rfl
@[simp] theorem State.flashPut_events (s : State) (a : Nat) (bytes : List Byte) : (s.flashPut a bytes).events = s.events := rfl
@[simp] theorem State.flashPut_counters (s : State) (a : Nat) (bytes : List Byte) : (s.flashPut a bytes).counters = s.counters := rfl
@[simp] theorem State.flashPut_lake (s : State) (a : Nat) (bytes : List Byte) : (s.flashPut a bytes).lake = s.lake := rfl
@[simp] theorem State.flashPut_eddies (s : State) (a : Nat) (bytes : List Byte) : (s.flashPut a bytes).eddies = s.eddies := rfl
@[simp] theorem State.flashPut_stalls (s : State) (a : Nat) (bytes : List Byte) : (s.flashPut a bytes).stalls = s.stalls := rfl
@[simp] theorem State.flashPut_scratch (s : State) (a : Nat) (bytes : List Byte) : (s.flashPut a bytes).scratch = s.scratch := rfl
@[simp] theorem State.flashPut_packs (s : State) (a : Nat) (bytes : List Byte) : (s.flashPut a bytes).packs = s.packs := rfl
@[simp] theorem State.flashPut_dram (s : State) (a : Nat) (bytes : List Byte) : (s.flashPut a bytes).dram = s.dram := rfl
@[simp] theorem State.flashPut_vlink (s : State) (a : Nat) (bytes : List Byte) : (s.flashPut a bytes).vlink = s.vlink := rfl
@[simp] theorem State.flashPut_dredge (s : State) (a : Nat) (bytes : List Byte) : (s.flashPut a bytes).dredge = s.dredge := rfl
@[simp] theorem State.flashPut_retire (s : State) (a : Nat) (bytes : List Byte) : (s.flashPut a bytes).retire = s.retire := rfl
@[simp] theorem State.flashPut_cal (s : State) (a : Nat) (bytes : List Byte) : (s.flashPut a bytes).cal = s.cal := rfl
@[simp] theorem State.flashPut_image (s : State) (a : Nat) (bytes : List Byte) : (s.flashPut a bytes).image = s.image := rfl
@[simp] theorem State.flashPut_weirs (s : State) (a : Nat) (bytes : List Byte) : (s.flashPut a bytes).weirs = s.weirs := rfl
@[simp] theorem State.flashPut_pcie (s : State) (a : Nat) (bytes : List Byte) : (s.flashPut a bytes).pcie = s.pcie := rfl
@[simp] theorem State.flashPut_jobUnit (s : State) (a : Nat) (bytes : List Byte) : (s.flashPut a bytes).jobUnit = s.jobUnit := rfl
@[simp] theorem State.flashPut_ponds (s : State) (a : Nat) (bytes : List Byte) : (s.flashPut a bytes).ponds = s.ponds := rfl
@[simp] theorem State.flashPut_seals (s : State) (a : Nat) (bytes : List Byte) : (s.flashPut a bytes).seals = s.seals := rfl
@[simp] theorem State.flashPut_planSlots (s : State) (a : Nat) (bytes : List Byte) : (s.flashPut a bytes).planSlots = s.planSlots := rfl
@[simp] theorem State.flashPut_trust (s : State) (a : Nat) (bytes : List Byte) : (s.flashPut a bytes).trust = s.trust := rfl
@[simp] theorem State.flashPut_fuses (s : State) (a : Nat) (bytes : List Byte) : (s.flashPut a bytes).fuses = s.fuses := rfl
@[simp] theorem State.flashPut_bist (s : State) (a : Nat) (bytes : List Byte) : (s.flashPut a bytes).bist = s.bist := rfl
@[simp] theorem State.flashPut_thermal (s : State) (a : Nat) (bytes : List Byte) : (s.flashPut a bytes).thermal = s.thermal := rfl
@[simp] theorem State.flashPut_boot (s : State) (a : Nat) (bytes : List Byte) : (s.flashPut a bytes).boot = s.boot := rfl
@[simp] theorem State.flashPut_get (s : State) (a : Nat) (bytes : List Byte) (f : FN) (i j : Nat) :
    (s.flashPut a bytes).get f i j = s.get f i j := rfl
@[simp] theorem State.flashPut_flag (s : State) (a : Nat) (bytes : List Byte) (f : FN) (i j : Nat) :
    (s.flashPut a bytes).flag f i j = s.flag f i j := rfl
@[simp] theorem State.flashPut_eff (s : State) (a : Nat) (bytes : List Byte) (f : FN) (i j : Nat) :
    (s.flashPut a bytes).eff f i j = s.eff f i j := rfl

/-! ### State.flashErase -/

@[simp] theorem State.flashErase_regs (s : State) (a n : Nat) : (s.flashErase a n).regs = s.regs := rfl
@[simp] theorem State.flashErase_inForce (s : State) (a n : Nat) : (s.flashErase a n).inForce = s.inForce := rfl
@[simp] theorem State.flashErase_timer (s : State) (a n : Nat) : (s.flashErase a n).timer = s.timer := rfl
@[simp] theorem State.flashErase_aonTime (s : State) (a n : Nat) : (s.flashErase a n).aonTime = s.aonTime := rfl
@[simp] theorem State.flashErase_freeCtr (s : State) (a n : Nat) : (s.flashErase a n).freeCtr = s.freeCtr := rfl
@[simp] theorem State.flashErase_out (s : State) (a n : Nat) : (s.flashErase a n).out = s.out := rfl
@[simp] theorem State.flashErase_collector (s : State) (a n : Nat) : (s.flashErase a n).collector = s.collector := rfl
@[simp] theorem State.flashErase_events (s : State) (a n : Nat) : (s.flashErase a n).events = s.events := rfl
@[simp] theorem State.flashErase_counters (s : State) (a n : Nat) : (s.flashErase a n).counters = s.counters := rfl
@[simp] theorem State.flashErase_lake (s : State) (a n : Nat) : (s.flashErase a n).lake = s.lake := rfl
@[simp] theorem State.flashErase_eddies (s : State) (a n : Nat) : (s.flashErase a n).eddies = s.eddies := rfl
@[simp] theorem State.flashErase_stalls (s : State) (a n : Nat) : (s.flashErase a n).stalls = s.stalls := rfl
@[simp] theorem State.flashErase_scratch (s : State) (a n : Nat) : (s.flashErase a n).scratch = s.scratch := rfl
@[simp] theorem State.flashErase_packs (s : State) (a n : Nat) : (s.flashErase a n).packs = s.packs := rfl
@[simp] theorem State.flashErase_dram (s : State) (a n : Nat) : (s.flashErase a n).dram = s.dram := rfl
@[simp] theorem State.flashErase_vlink (s : State) (a n : Nat) : (s.flashErase a n).vlink = s.vlink := rfl
@[simp] theorem State.flashErase_dredge (s : State) (a n : Nat) : (s.flashErase a n).dredge = s.dredge := rfl
@[simp] theorem State.flashErase_retire (s : State) (a n : Nat) : (s.flashErase a n).retire = s.retire := rfl
@[simp] theorem State.flashErase_cal (s : State) (a n : Nat) : (s.flashErase a n).cal = s.cal := rfl
@[simp] theorem State.flashErase_image (s : State) (a n : Nat) : (s.flashErase a n).image = s.image := rfl
@[simp] theorem State.flashErase_weirs (s : State) (a n : Nat) : (s.flashErase a n).weirs = s.weirs := rfl
@[simp] theorem State.flashErase_pcie (s : State) (a n : Nat) : (s.flashErase a n).pcie = s.pcie := rfl
@[simp] theorem State.flashErase_jobUnit (s : State) (a n : Nat) : (s.flashErase a n).jobUnit = s.jobUnit := rfl
@[simp] theorem State.flashErase_ponds (s : State) (a n : Nat) : (s.flashErase a n).ponds = s.ponds := rfl
@[simp] theorem State.flashErase_seals (s : State) (a n : Nat) : (s.flashErase a n).seals = s.seals := rfl
@[simp] theorem State.flashErase_planSlots (s : State) (a n : Nat) : (s.flashErase a n).planSlots = s.planSlots := rfl
@[simp] theorem State.flashErase_trust (s : State) (a n : Nat) : (s.flashErase a n).trust = s.trust := rfl
@[simp] theorem State.flashErase_fuses (s : State) (a n : Nat) : (s.flashErase a n).fuses = s.fuses := rfl
@[simp] theorem State.flashErase_bist (s : State) (a n : Nat) : (s.flashErase a n).bist = s.bist := rfl
@[simp] theorem State.flashErase_thermal (s : State) (a n : Nat) : (s.flashErase a n).thermal = s.thermal := rfl
@[simp] theorem State.flashErase_boot (s : State) (a n : Nat) : (s.flashErase a n).boot = s.boot := rfl
@[simp] theorem State.flashErase_get (s : State) (a n : Nat) (f : FN) (i j : Nat) :
    (s.flashErase a n).get f i j = s.get f i j := rfl
@[simp] theorem State.flashErase_flag (s : State) (a n : Nat) (f : FN) (i j : Nat) :
    (s.flashErase a n).flag f i j = s.flag f i j := rfl
@[simp] theorem State.flashErase_eff (s : State) (a n : Nat) (f : FN) (i j : Nat) :
    (s.flashErase a n).eff f i j = s.eff f i j := rfl

end Sys2Proof.Machine
end

