-- ==== Sys2Proof/Tests/Slice0.lean ====
section
/-! SUPPORT. The model's own tests: ill-formed commands refused, worked examples of the spec, and for every statement of
Certificates/Slice0/Obligations.lean a state and operands that meet the hypotheses of each of its clauses
(`witness_<statement>`). -/

open Sys2Proof Sys2Proof.Machine

namespace Sys2Proof.Tests

set_option Elab.async false

/-! ### Helper states -/

/-- Fields set one after another. -/
def put (s : State) (fs : List (FN × Nat × Nat)) : State := fs.foldl (fun s x => s.set x.1 x.2.1 x.2.2) s

/-- What a command leaves, `s` where it does not complete. -/
def after (c : Instr) (s : State) : State := match exec c s with
  | .next t => t
  | _ => s

/-- Does a command complete, with `p` of what it leaves? -/
def leaves (c : Instr) (s : State) (p : State → Bool) : Bool := match exec c s with
  | .next t => p t
  | _ => false

/-- Is a command refused as ill-formed? -/
def refuses (c : Instr) : Bool := match exec c State.reset with
  | .refused (.illFormed _) => true
  | _ => false

/-- READY, with the link up, PF0's BARs enabled, VDD_AUX in range. -/
def live : State :=
  let s := put State.reset [(.bootStatusState, 1, 0), (.pcxLinkStatusDlUp, 1, 0), (.cfgMse, 1, 0), (.cfgBme, 1, 0)]
  { s with boot := { s.boot with aux := true, perst := false } }

/-- Ring pair 0 of PF0 allocated with 16 entries and enabled. -/
def ring0 : State := put live [(.jobRqCfgAlloc, 1, 0), (.jobRqCfgLog2size, 4, 0), (.jobRqCtrlEn, 1, 0)]

/-- The fabric of pond 0 on. -/
def pond0 (s : State) : State := s.set .pwrDomState 2 48

/-- A descriptor's bytes: type, cookie 0, ring lap 0, fields as given. -/
def desc (type : Nat) (fields : List (Nat × List Byte)) : List Byte :=
  fields.foldl (fun d x => d.take x.1 ++ x.2 ++ d.drop (x.1 + x.2.length)) (leBytes 1 type ++ zeros 127)

/-- A job of ring pair 0, slot 0. -/
def job (type : Nat) (d : List Byte) : Job := { ring := 0, slot := 0, gen := 0, func := 0, type, desc := d, fetchSeq := 0 }

def withJob (s : State) (j : Job) : State := { s with jobUnit := { s.jobUnit with jobs := [j] } }

/-- A line of PC 0 at address 0, in way 0. -/
def line0 (valid dirty : Bool) : LakeLine :=
  { slice := 0, set := 0, way := 0, tag := 0, s0 := { valid, dirty, poison := false, data := zeros 64 }, s1 := emptySector }

def withLine (s : State) (l : LakeLine) : State := { s with lake := { s.lake with lines := [l] } }

/-! ### Witnesses: the queue, memory, registers, host access, counters -/

theorem witness_StepRunsFrontCommand : { live with pending := [.weirTick] }.pending = .weirTick :: [] := rfl

theorem witness_StepKeepsQueue : ∃ t, step { live with pending := [.weirTick] } = .next t := ⟨_, rfl⟩

theorem witness_FusesNeverClear : (∃ t, step { live with pending := [.weirTick] } = .next t) ∧ 32767 < 32768 :=
  ⟨⟨_, rfl⟩, by decide⟩

theorem witness_CanonicalForms : live.memWf = true ∧ live.regsWf = true ∧
    ∃ t, step { live with pending := [.weirTick] } = .next t := ⟨by decide +kernel, by decide +kernel, _, rfl⟩

theorem witness_CommandsComplete : (Instr.weirRelease 58).wf = true ∧ (Instr.weirRelease 59).wf = false := by decide

theorem witness_MemoryAndRegisterLaws : Mem.wf 0 [(3, 7#8)] = true ∧ FN.weirPortRateRate.inst 58 0 = true ∧
    live.regsWf = true ∧ (FN.weirPortRateRate, 57, 0) ≠ (FN.weirPortRateRate, 58, 0) := by decide +kernel

theorem witness_ClassBFields : FN.pmcBwCfgWindowUs.inst 0 0 = true := by decide +kernel

theorem witness_RegisterAccess : live.linkHeld = false ∧ (live.set .pcxLinkStatusLtssm 4).linkHeld = true ∧
    (live.set .pcxLinkStatusLtssm 5).get .pcxLinkStatusLtssm = ltssmL1 ∧
    (live.set .pcxLinkStatusLtssm 5).linkHeld = true ∧ live.hostReady 0 = true ∧ ((live.received 2).regFields 0 0x161000).isEmpty = false ∧
    live.dlUp = true ∧ 0 < [9, 0, 0, 0].length ∧ 0x161000 % 8 + [9, 0, 0, 0].length ≤ 8 ∧ 8 < 6 % 8 + [9, 0, 0, 0].length ∧
    2040 + 8 ≤ 2048 ∧ 2040 % 64 + 8 ≤ 64 ∧ [9, 0, 0].length < 4 ∧ 5 % 8 + [9, 0, 0].length ≤ 8 ∧ live.pcie.identity = [] := by
  decide +kernel

/-- Functions 0 and 1 exist, and VF 1's counters are its own or handed to user code. -/
def vf1 : State := put live [(.cfgVfEnable, 1, 0), (.cfgNumVfs, 1, 0), (.cfgMse, 1, 1), (.cfgBme, 1, 1)]

theorem witness_Counters : live.linkHeld = false ∧ live.counts 0 0 = false ∧ (live.set .pmcSelEn 1 0).counts 0 0 = true ∧
    live.hostReady 0 = true ∧ vf1.hostReady 1 = true ∧ vf1.userRead 1 = false ∧
    (vf1.set .pmcUserReadLoMask 2).hostReady 1 = true ∧ (vf1.set .pmcUserReadLoMask 2).userRead 1 = true ∧
    (vf1.set .pmcUserReadLoMask 2).vfCount48 1 0 + 1 < 2 ^ 48 ∧ live.count48 0 + 1 < 2 ^ 48 := by decide +kernel

theorem witness_TimerAndBandwidth : live.hostReady 0 = true := by decide +kernel

/-! ### Witnesses: on-chip blocks, the plan port, Weirs -/

def oneEvent : State := { live with events := { live.events with entries := [{ ring := 0, event := 1, func := 0, arg := 0, time := 0 }] } }

/-- A read of port 3 that carries packet 0 of its Pack queue. -/
def word0 : PortReq := { port := 3, group := 5, rt := false, units := 1, pc := 0, a := 0, op := .read, packet := some 0 }

/-- Pack queue 3, with the credits and words given, flushing up to packet 1 or not. -/
def packed (flush : Bool) (credits : Nat) (held : List PortReq) : State :=
  { live with packs := [{ queue := 3, credits, nextId := 1, flush, boundary := 1, held }] }

theorem witness_EventPopAndPackFlush : live.linkHeld = false ∧ live.hostReady 0 = true ∧ live.ringEntries 0 = [] ∧
    (oneEvent.ringEntries 0).length = 1 ∧ oneEvent.hostReady 0 = true ∧ ((packed true 5 []).pack 3).flush = true ∧
    (packed true 5 []).packWords 3 (fun k => decide (k < 1)) = [] ∧
    (packed true 5 [word0]).packWords 3 (fun k => decide (k < 1)) ≠ [] ∧ ((packed false 5 []).pack 3).flush = false ∧
    word0.packet = some 0 ∧ ((packed false 0 []).pack 3).credits = 0 ∧ 0 < ((packed false 5 []).pack 3).credits ∧
    ((packed false 5 []).pack 3).held = [] := by decide +kernel

/-- The Lake flushing with one write-back under way to line 0 of PC 0. -/
def lastWriteBack : State := { live.set .lakeStatusFlushing 1 with
  lake := { live.lake with wbuf := [{ pc := 0, a := 0, data := zeros 64, poison := false }] }
  dram := { live.dram with queue := [dramReqOf 0 0 64 true false false 0] } }

theorem witness_LakeFlushes : (withLine live (line0 true true)).lake.lines = [line0 true true] ∧
    (line0 true true).set = lakeSet 0 ∧ (line0 true true).tag = lakeTag 0 ∧
    (withLine live (line0 true true)).hostReady 0 = true ∧
    (withLine live (line0 true true)).flag .lakeStatusFlushing = false ∧
    (live.set .lakeStatusFlushing 1).flag .lakeStatusFlushing = true ∧
    (live.set .lakeStatusFlushing 1).dram.queue ++ (live.set .lakeStatusFlushing 1).dram.waiting ++
      (live.set .lakeStatusFlushing 1).dram.held = [] ∧
    lastWriteBack.flag .lakeStatusFlushing = true ∧ lastWriteBack.dram.waiting = [] ∧ lastWriteBack.dram.held = [] ∧
    lastWriteBack.dram.queue.all (fun r => r.write && !r.durable && r.pc == 0 && r.addr / 64 == 0) = true ∧
    lastWriteBack.lake.wbuf.all (fun x => !x.clean) = true ∧ lastWriteBack.pcGone 0 = false := by decide +kernel

/-- Window 0 of engine 0: 64 bytes, `n` of them filled. -/
def window (n : Nat) : State := live.setEddy 0 0 { base := 0, len := 64, en := true, tail := n }

theorem witness_EddyWindows : Instr.wf (.eddyEnable 0 0 0 64 true) = true ∧ (live.eddy 0 0).en = false ∧
    (∀ v < 4, v ≠ 0 → (live.eddy 0 v).en = true →
      Eddy.meets { live.eddy 0 0 with base := 0, len := 64, en := true } (live.eddy 0 v) = false) ∧
    (window 32).stalls = [] ∧ ((window 32).eddy 0 0).en = true ∧ 32 ≤ ((window 32).eddy 0 0).fill ∧
    ((window 32).eddy 0 0).fill + 32 ≤ ((window 32).eddy 0 0).len ∧ 16 + 16 ≤ ((window 32).eddy 0 0).fill := by
  decide +kernel

def stalled (w : Option (List Byte)) (ok : Bool) : State :=
  { window 32 with stalls := [{ engine := 0, window := 0, offset := 0, len := 33, write := w, parityOk := ok }] }

theorem witness_EddyMisuse : ((window 32).eddy 0 0).en = true ∧ ((window 32).eddy 0 0).fill < 33 ∧
    ((window 32).eddy 0 0).len < ((window 32).eddy 0 0).fill + 33 ∧ ((window 32).eddy 0 0).fill < 16 + 17 ∧
    ((window 32).eddy 0 0).len - ((window 32).eddy 0 0).fill < 0 + (zeros 33).length ∧
    (∀ ok, (stalled none ok).stalls.length = 1) ∧ ((stalled none true).eddy 0 0).fill + 1 ≤ ((stalled none true).eddy 0 0).len ∧
    1 ≤ ((stalled (some (zeros 33)) true).eddy 0 0).fill ∧ ((stalled none false).eddy 0 0).tail + 1 < 64 ∧
    0 + 33 ≤ Eddy.fill { (stalled none false).eddy 0 0 with tail := 33 } ∧ 0 + 32 ≤ ((window 32).eddy 0 0).fill ∧
    ((window 32).eddy 0 0).fill + 0 + (zeros 32).length ≤ ((window 32).eddy 0 0).len ∧
    Instr.wf (.eddyEnable 0 1 0 64 true) = true ∧ Instr.wf (.eddyEnable 0 0 0 64 true) = true ∧ ((window 32).eddy 0 1).en = false ∧
    Eddy.meets { (window 32).eddy 0 1 with base := 0, len := 64, en := true } ((window 32).eddy 0 0) = true ∧
    (window 32).engOnline 0 = true ∧ eddyBase 32 = ((window 32).eddy 0 0).base ∧ eddyLen 96 = ((window 32).eddy 0 0).len ∧
    eddyBase 64 ≠ ((window 32).eddy 0 0).base ∧ ((window 32).eddy 0 0).len ≤ 524288 := by decide +kernel

/-- Plan slot 0 of PF0 with a plan of profile 0 running, its image loaded with one profile. -/
def planning : State := live.setPlanSlot 0 0 { running := some { profile := 0, present := 0, wanted := 0, off := 128, len := 4 } }

theorem witness_PlanPort : live.linkHeld = false ∧ planning.linkHeld = false ∧ live.hostReady 0 = true ∧ (live.planSlot 0 0).running = none ∧ live.quiesced = false ∧
    (live.profile (live.planSlot 0 0).profile).isSome = true ∧ 128 ≤ 128 ∧ 128 < 128 + 4 ∧ 128 % 64 + 4 ≤ 64 ∧
    planning.hostReady 0 = true ∧ (planning.planSlot 0 0).running.isSome = true ∧ (planning.profile 0).isSome = true ∧
    132 % 64 + 4 ≤ 64 ∧ ¬(132 ≤ 128 ∧ 128 < 132 + 4) ∧ planOutputs 132 4 = true ∧ planOutputs 0 4 = false := by decide +kernel

def request (rt : Bool) : PortReq := { port := 3, group := 5, rt, units := 1, pc := 0, a := 0, op := .read }

def atPort (rt : Bool) (tokens : Int) : State :=
  { live with weirs := { live.weirs with queue := [request rt], bucket := [(3, tokens)], grpBucket := [(5, 512)] } }

/-- 64 line reads of engine 3 out. -/
def readsFull : State := { atPort false 512 with
  dram := { live.dram with queue := List.replicate 64 { dramReqOf 0 0 5 false false false 0 with port := 3 } } }

/-- A zero-length BAR2 read, and no write before it. -/
def fence54 : PortReq := { port := 54, group := 0, rt := true, units := 0, pc := 0, a := 0, op := .fence }

def zeroRead : State := { live with weirs := { live.weirs with queue := [fence54] } }

theorem witness_WeirTokens : (atPort false 0).portHead 3 = some (request false) ∧
    (atPort false 0).heldForToken (request false) = true ∧ (atPort true 0).heldForToken (request true) = false ∧
    (atPort false 512).portHead 3 = some (request false) ∧ (atPort false 512).heldForToken (request false) = false ∧
    (atPort false 512).inheritsRt (request false) = false ∧ (atPort false 512).portClosed (request false) = false ∧
    (atPort true 0).portClosed (request true) = false ∧ (request false).op ≠ .fence ∧ (request false).packet = none ∧
    readsFull.portHead 3 = some (request false) ∧ readsFull.portClosed (request false) = true ∧
    zeroRead.portHead 54 = some fence54 ∧ fence54.op = .fence ∧ (request true).rt = true ∧
    (atPort true 0).weirs.queue = [request true] ∧ (atPort true 0).fenced (request true) = false ∧
    ((atPort false 512).set .weirGrpCfgAdmitted 1 5).flag .weirGrpCfgAdmitted 5 = true ∧
    256 * (request false).units ≤ (atPort false 512).grpBucket 5 := by decide +kernel

/-- A read of PC 0, bank 0, row 0. -/
def dramRead : DramReq := dramReqOf 0 0 5 false false false 0

def queued (l : List DramReq) : State := { live with dram := { live.dram with queue := l } }

/-- A request held at its slice. -/
def atSlice : State := { live with lake := { live.lake with held := [request false] } }

theorem witness_WeirWindows : (queued [dramRead]).dram.queue = [] ++ dramRead :: [] ∧ dramRead.pc = 0 ∧ dramRead.rt = false ∧
    dramRead.guar = false ∧ dramRead.prio = 0 ∧ dramRead.aged = false ∧ dramRead.group < 65 ∧
    atSlice.dram.queue ++ atSlice.dram.waiting ++ atSlice.dram.held = [] ∧
    atSlice.lake.held = [] ++ request false :: [] ∧ (request false).guar = false ∧ (request false).aged = false := by
  decide +kernel

/-! ### Witnesses: stack memory, the Lake, integrity -/

def bank0 (s : State) (b : Bank) : State := s.setBank 0 0 b

theorem witness_ControllerArbitrate : (live.set .drcPcStateState 2).get .drcPcStateState ≠ 0 ∧
    (bank0 live { urgent := true, debt := 8 }).get .drcPcStateState = 0 ∧
    (bank0 live { urgent := true, debt := 8 }).laneHold 0 = false ∧
    ((bank0 live { urgent := true, debt := 8 }).bank 0 0).urgent = true ∧
    (let s := bank0 live { acts := live.get .drcRfmRfmTh }
     s.get .drcPcStateState = 0 ∧ s.laneHold 0 = false ∧ (s.bank 0 0).urgent = false ∧ s.dram.queue = [] ∧
     s.get .drcRfmRfmTh ≤ (s.bank 0 0).acts) ∧
    (let s := queued [dramRead]
     s.get .drcPcStateState = 0 ∧ s.laneHold 0 = false ∧ (s.bank 0 0).urgent = false ∧
     s.dram.queue.any (fun r => r.pc == 0 && r.bank == 0 && s.effRt r) = false ∧
     (s.bank 0 0).acts < s.get .drcRfmRfmTh ∧ dramRead.bank = 0 ∧ dramRead.write = false ∧ s.dram.waiting = [] ∧
     s.dram.draining = []) := by decide +kernel

/-- Channel 0 in one STATE. -/
def channel0 (st : Nat) : State := (live.set .drcPcStateState st 0).set .drcPcStateState st 1

def residing : State :=
  { channel0 2 with dram := { (channel0 2).dram with srCause := [(0, .idle)], held := [dramRead] } }

def residingIdle : State := { residing with dram := { residing.dram with held := [] } }

theorem witness_Refresh : live.get .drcPcStateState = 0 ∧ live.laneHold 0 = false ∧
    live.dram.queue.any (fun r => r.pc == 0 && r.bank == 0) = false ∧
    (queued [dramRead]).dram.queue.any (fun r => r.pc == 0 && r.bank == 0) = true ∧
    ((queued [dramRead]).bank 0 0).debt < 8 ∧ (channel0 0).channelPcs 0 = [0, 1] ∧
    ((channel0 0).set .drcCtrlSrAuto 1).flag .drcCtrlSrAuto = true ∧ (channel0 0).dram.queue = [] ∧
    (channel0 1).get .drcPcStateState 0 = 1 ∧ (channel0 1).get .drcPcStateState 1 = 1 ∧ (channel0 1).channelPcs 0 = [0, 1] ∧
    residing.get .drcPcStateState 1 = 2 ∧ residing.channelPcs 0 = [0, 1] ∧ assoc residing.dram.srCause 0 = some .idle ∧
    residing.dram.held.any (fun r => r.pc / 2 == 0) = true ∧
    (channel0 2).get .drcPcStateState 0 ≠ 0 ∧ (channel0 2).pcGone 0 = false ∧ residingIdle.get .drcPcStateState 0 = 2 ∧
    residingIdle.get .drcPcStateState 1 = 2 ∧ assoc residingIdle.dram.srCause 0 = some .idle ∧ residingIdle.dram.held = [] ∧
    (channel0 3).get .drcPcStateState 1 = 3 ∧ (channel0 3).dram.held = [] := by decide +kernel

def waking : State := { live with lake := { live.lake with waking := [2] } }

theorem witness_LakeAccesses : (withLine (live.set .lakeStatusQuadOn 15) (line0 true false)).lakeFind 0 0 = some (line0 true false) ∧
    ((line0 true false).sector (lakeSector 0)).valid = true ∧ 63 % 64 + [1].length ≤ 64 ∧
    (withLine (live.set .lakeStatusQuadOn 15) (line0 true false)).quadReady 0 = true ∧
    (withLine (live.set .lakeStatusQuadOn 15) (line0 true false)).pcGone 0 = false ∧
    (live.set .lakeStatusQuadOn 0).quadReady 0 = false ∧ (live.set .engStateState 1 0).engOnline 0 = true ∧
    (live.set .engStateState 1 0).readsOut 0 < 64 ∧ (live.set .engStateState 3 0).engOnline 0 = false ∧
    64 ≤ readsFull.readsOut 3 ∧
    waking.lake.waking.contains 2 = true ∧ waking.lake.held = [] ∧ waking.lake.decodes = [] ∧
    (withLine live (line0 true true)).lake.lines = [line0 true true] ∧ (line0 true true).set = lakeSet 0 ∧
    (line0 true true).tag = lakeTag 0 ∧ ((line0 true true).sector (lakeSector 0)).dirty = true ∧
    (withLine live (line0 true true)).pcGone 0 = false := by decide +kernel

/-- Basin 1 of PF0: 64 KiB of PC 0, grain 256 bytes; enabled where `en`. -/
def basin1 (en : Nat) : State := put live [(.drcBasinPcmaskLoMask, 1, 1), (.drcBasinLocExt, 1, 1), (.drcBasinCfgGrain, 8, 1),
  (.drcBasinCfgOwner, 0, 1), (.drcBasinCfgEn, en, 1)]

def basinWaits : State := { (basin1 0).setB .drcBasinCfgEn 1 1 with dram := { live.dram with owners := [(1, 5)] } }

def basinFills : State := { basin1 1 with dram := { live.dram with filling := [1] } }

/-- A job of PF0 with a buffer in basin 1. -/
def basinUsed (s : State) : State :=
  withJob s { job 1 (desc 1 []) with bufs := [(64, [{ addr := 0, len := 64, space := 1, basin := 1, attr := 0 }])] }

theorem witness_Basins : (basin1 0).flag .drcBasinCfgJournal 1 = false ∧ (basin1 0).hostReady 0 = true ∧
    (basin1 0).flag .drcBasinCfgEn 1 = false ∧ (basin1 1).flag .drcBasinCfgEn 1 = true ∧ (basin1 1).hostReady 0 = true ∧
    (basinUsed basinWaits).basinBusy 1 = true ∧ basinWaits.basinBusy 1 = false ∧
    basinWaits.flag .drcBasinCfgEn 1 = true ∧ basinWaits.eff .drcBasinCfgEn 1 = 0 ∧ basinWaits.basinOwner 1 = some 5 ∧
    basinWaits.get .drcBasinCfgOwner 1 = 0 ∧ basinFills.dram.filling.contains 1 = true ∧
    basinFills.flag .drcBasinCfgJournal 1 = false := by decide +kernel

theorem witness_LineDecode : (zeros 72).length = 72 ∧ (withLine live (line0 true false)).lakeFind 0 0 = some (line0 true false) ∧
    ((line0 true false).sector (lakeSector 0)).dirty = false ∧ (withLine live (line0 true false)).buffered 0 0 = false ∧
    ((withLine live (line0 true false)).set .lakeStatusQuadOn 0).quadReady 0 = false ∧
    (let s := (withLine live (line0 true false)).set .lakeStatusQuadOn 15
     s.quadReady 0 = true ∧ s.pcGone 0 = false ∧ (s.set .drcPcStateState 5).quadReady 0 = true ∧
     (s.set .drcPcStateState 5).pcGone 0 = true) := by decide +kernel

def repair0 : LaneRepair := { ca := false, unit := 0, lane := 3, tsv := 3 }

def shiftWaits : State := { live with vlink := { live.vlink with waiting := [repair0] } }

def shiftRuns : State := { live with vlink := { live.vlink with running := [repair0] } }

theorem witness_LanesAndClocks : shiftWaits.vlink.waiting = [repair0] ∧ shiftWaits.slotMayStart 0 [0] = true ∧
    shiftRuns.vlink.running = [repair0] ∧ (shiftRuns.badTsvs 0).length < 4 ∧ live.hostReady 0 = true ∧
    live.pcGone 0 = false ∧ 3 ∉ live.erased 0 ∧ live.repairing false 0 3 = false ∧
    (live.repairs false 0).length < live.get .vlkPcSpares 0 ∧ repair0.tsv = tsvOfLane 76 (live.badTsvs 0) 3 ∧
    repair0.tsv = tsvOfLane 76 (shiftRuns.badTsvs 0) 3 ∧
    live.shiftedLately 0 3 = false ∧
    live.laneFaulty (live.vlink.caErr.filter (fun x => live.timer < x.2.2.2 + live.laneWin) ++ [(0, 3, 9, live.timer)]) 0 3 =
      false ∧
    live.get .drcPcStateState 0 < 4 ∧ (live.set .drcPcStateState 4).get .drcPcStateState 0 = 4 ∧
    live.railIgnored (evChErr 0) = false := by decide +kernel

def copying : State := { live with retire := { live.retire with
  running := some { typ := 0, active := false, unit := 0, bank := 0, row := 7, spare := 0, seq := 1 }
  reads := [(lineKey 0 (addrOfRow 0 0 7 3), true)] } }

theorem witness_Retirement : assoc copying.retire.reads (lineKey 0 (addrOfRow 0 0 7 3)) = some true ∧ live.hostReady 0 = true ∧ (0x80010000#32).getLsbD 31 = true ∧
    (0x80010000#32).toNat / 2 ^ 16 % 4 = 1 ∧ (live.set .integRetStatusBusy 1).flag .integRetStatusBusy = true ∧
    (live.set .integRetStatusBusy 1).hostReady 0 = true ∧ live.flag .integRetStatusBusy = false ∧
    live.get .integRetRowRow < 49152 ∧ live.pcGone 0 = false ∧ live.sparesTaken 0 0 = [] ∧
    copying.retire.running.isSome = true ∧ copying.slotMayStart 0 [0] = true ∧ (0x80020000#32).getLsbD 31 = true ∧
    (0x80020000#32).toNat / 2 ^ 16 % 4 = 2 ∧ live.get .drcPcStateState 0 ≠ 4 ∧
    (∀ b < 64, live.flag .drcBasinCfgEn b = true → bitAt (live.basinMask b) 0 = false) ∧
    (basin1 1).flag .drcBasinCfgEn 1 = true ∧ bitAt ((basin1 1).basinMask 1) 0 = true ∧
    (basin1 1).flag .drcBasinCfgJournal 1 = false ∧ (basin1 1).flag .integRetStatusBusy = false := by decide +kernel

/-- The repair record of blank flash is free from its first entry on. -/
theorem witness_Retirement_record : live.repairFree.isSome = true := by decide +kernel

def pass (kind : PassKind) (done piece : Nat) : Pass :=
  { passOf kind 0 0 0xFF 0 128 0 with done, piece }

def passes (cur : Option PassKind) (p : Pass) : State :=
  { live with dredge := { live.dredge with passes := [p], current := cur } }

theorem witness_Dredge : (passes none (pass .register 0 0)).working = true ∧ (passes none (pass .register 0 0)).dredge.current = none ∧
    (pass .register 0 0).done < (pass .register 0 0).length ∧ (pass .register 0 0).kind = .register ∧
    (pass .register 0 0).stopped = false ∧ (passes (some .register) (pass .register 0 128)).dredge.current = some .register ∧
    (pass .register 0 128).done < (pass .register 0 128).piece ∧
    (passes (some .register) (pass .register 0 128)).pcGone 0 = false ∧
    ((passes (some .register) (pass .register 0 128)).passLine (pass .register 0 128)).1 = 0 ∧
    (passes (some .register) (pass .register 0 128)).lakeFind 0 0 = none ∧ live.dredge.passes = [] ∧ live.hostReady 0 = true ∧
    (live.set .integDrLenLoLen 1).get .integDrLenLoLen = 1 ∧ (live.set .integDrLenLoLen 1).hostReady 0 = true ∧
    live.get .integDrLenLoLen = 0 ∧ (passes none (pass .register 0 0)).hostReady 0 = true ∧
    (pass .register 128 128).length ≤ (pass .register 128 128).done ∧ (pass .round 128 128).kind = .round ∧
    (pass .round 128 128).length ≤ (pass .round 128 128).done ∧
    (passes none (pass .round 128 128)).dredge.owedFor = none := by decide +kernel

/-- One wrong symbol of a burst decodes CORRECTED. -/
theorem witness_Dredge_corrected :
    ((passes (some .register) (pass .register 0 128)).decodeLine 0 0 (leBytes 1 1 ++ zeros 71) (zeros 72)).outcome = .corrected := by
  decide +kernel

/-! ### Witnesses: heat, calibration, faults, starts, flash, sideband -/

theorem witness_Temperatures : live.boot.aux = true ∧ live.boot.run = none ∧ live.flag .thmSensFailed 3 = false ∧ live.flag .thmSensStale 3 = false ∧
    (-320 : Int) ≤ sint16 400 ∧ sint16 400 ≤ 1200 ∧ (List.replicate 17 ([] : List Nat)).length = 17 ∧
    live.workingSensors 2 ≠ [] := by decide +kernel

/-- Every layer of both domains below its throttle level less the hysteresis. -/
def cool (s : State) : Bool := [false, true].all (fun dram =>
  (domainLayers dram).all (fun l => decide (s.gov l < (s.levels l).2.1 - (s.levels l).2.2.2)))

/-- Thermal SHUTDOWN; GOV of layer 0 as given. -/
def shut (gov : Nat) : State := put live [(.thmStatusTstate, 3, 0), (.thmLayerGGov, gov, 0)]

theorem witness_ThrottleAndPowerCap : (live.set .thmStatusTstate 1).tstate = 1 ∧ live.tstate ≠ 1 ∧ (shut 0).tstate = 3 ∧
    (shut 0).hostReady 0 = true ∧
    cool (shut 0) = true ∧ cool (shut 900) = false ∧ (shut 900).hostReady 0 = true ∧
    10 * live.get .pwrCapLimit < 65535 * 10 ∧ (live.set .pwrStatusCapped 1).flag .pwrStatusCapped = true ∧
    2 * 0 < 19 * live.get .pwrCapLimit := by decide +kernel

def target : CalTarget := { kind := 1, index := 0, trim := 5, temp := 0, dflt := true }

def calibrating : State := { live with cal := { live.cal with targets := [target], waiting := [(1, 0)], running := [] } }

def calRuns : State := { live with cal := { live.cal with targets := [target], running := [(1, 0)] } }

def calWrites : State := { live with cal := { live.cal with targets := [target], writing := some (0, 9) } }

theorem witness_Calibration : (calLayer 1 0).isSome = true ∧ calibrating.calTarget 1 0 = some target ∧
    calibrating.hostReady 0 = true ∧ (1, 0) ∈ calibrating.cal.waiting ∧ calibrating.calDeferred (1, 0) = false ∧
    calibrating.calChannelBusy (1, 0) = false ∧ (1, 0) ∈ calRuns.cal.running ∧ calRuns.calTarget 1 0 = some target ∧
    calWrites.cal.writing = some (0, 9) ∧ calWrites.portFirst = false ∧
    { live with boot := { live.boot with flashOp := some { op := 1, addr := 0, data := [] } } }.portFirst = true := by
  decide +kernel

def report (source arg : Nat) : Report :=
  { source, cls := .c, cause := 0, func := 0xFF, arg, loc := 0, detail := 0, invalid := false }

theorem witness_FaultReport : live.boot.aux = true ∧ reportClass (report 5 1) = some .c ∧ live.railIgnored 5 = false ∧
    live.get .fltQueueCount < 64 ∧ live.get .fltStateState = 0 ∧
    (List.range 320).any (fun n => decide (118 ≤ n) && n != 257 && n != evLcsTamper && reportClass (report n 0) == some .u) = true ∧
    (List.range 320).any (fun n => decide (118 ≤ n) && n != 257 && n != evLcsTamper && reportClass (report n 0) == some .f) = true := by
  decide +kernel

def containing : State :=
  { live.set .fltStateState 1 with collector := { live.collector with running := some { seq := 1, slot := some 0, source := 40 } } }

def quieting : State := { live.set .fltStateState 2 with collector := { live.collector with quiet := true } }

theorem witness_FaultCollector : containing.get .fltStateState = 1 ∧ containing.collector.running.isSome = true ∧
    containing.collector.waiting = [] ∧ quieting.get .fltStateState = 2 ∧ quieting.collector.quiet = true ∧
    quieting.collector.recoveries = [] ∧ (live.set .fltStateState 3).get .fltStateState = 3 ∧ live.hostReady 0 = true ∧
    (live.set .lcsStateState 1).lc = lcMfg ∧ (live.set .lcsStateState 1).hostReady 0 = true ∧
    (live.set .lcsStateState 1).railIgnored 7 = false ∧ (live.set .lcsStateState 1).get .fltQueueCount < 64 ∧
    (live.set .lcsStateState 3).lc = lcDeployed := by decide +kernel

theorem witness_ClocksAndRails : live.boot.aux = true ∧ live.railIgnored evClkXtalFail = false ∧
    live.railIgnored evClkPllUnlock = false ∧ { live with boot := { live.boot with crystal := true } }.boot.crystal = true ∧
    live.boot.flashOp = none ∧ live.trust.mbox = none := by decide +kernel

def env : StartEnv :=
  { coreRails := true, stackRails := true, crystalOk := false, pllOk := true, sfdpValid := true, spiMode := 0, strap := 0,
    train := { working := 65535, reversed := false, inverted := 0, rate := 6, flit := true, precodeTx := 0, recoveries := 0 },
    badTsvs := [], badCaTsvs := [], failedClocks := [], bistFails := [], bistUs := 0, trims := [],
    govs := List.replicate 18 200, verifyMs := 0, elapsedMs := 0, margins := [], bistCorrected := [], logOk := true }

/-- PERST# asserted, before a start. -/
def perst : State := { put State.reset [] with boot := { State.reset.boot with aux := true, perst := true, coldNext := false } }

theorem witness_Starts : env.govs.length = 18 ∧ (State.reset.boot.aux = false ∨ State.reset.boot.coldNext = true) ∧
    { env with coreRails := false }.coreRails = false ∧ env.coreRails = true ∧ env.crystalOk = false ∧
    (∀ l < 2, env.govs.getD l 0 ≤ 680) ∧ perst.boot.aux = true ∧ perst.boot.perst = true ∧ perst.boot.coldNext = false ∧
    perst.get .bootStatusState = 0 ∧ perst.boot.ramp = false ∧ env.late = none ∧ env.bistFails = [] ∧
    { perst with boot := { perst.boot with ramp := true } }.boot.run = none := by decide +kernel

/-- PERST# was asserted with the stack to be kept, slot A in force. -/
def keeping : State :=
  let s := put State.reset [(.bootStatusStackValid, 1, 0), (.pcxLinkCfgMaxWidth, 16, 0), (.pcxLinkCfgMaxRate, 6, 0)]
  { s with
    boot := { s.boot with aux := true, perst := true, coldNext := false, retain := true, slot := some 0 }
    dram := { s.dram with lost := false }
    pcie := { s.pcie with identity := zeros 16 } }

theorem witness_WarmStartReady : (let e : StartEnv := { env with crystalOk := true }
    e.govs.length = 18 ∧ e.late = none ∧ e.crystalOk = true ∧ e.pllOk = true ∧ keeping.stackKeeps e = true ∧ e.train.rate ≠ 0 ∧
    trainWidth e.train.working (keeping.get .pcxLinkCfgMaxWidth) e.train.reversed ≠ 0) ∧ keeping.boot.aux = true ∧
    keeping.boot.perst = true ∧ keeping.boot.ramp = false ∧ keeping.boot.coldNext = false ∧ keeping.chooseSlot.2 = some 0 ∧
    keeping.mustReload (some 0) = false ∧ keeping.lcNow ≠ lcScrapped ∧ keeping.pcie.identity ≠ [] ∧
    keeping.anyEngine = true ∧ (∀ p < 64, keeping.get .drcPcStateState p ≠ 5) ∧
    (∃ p < 64, keeping.get .drcPcStateState p ≠ 4) := by decide +kernel

def startWaits (w : StartWait) : State := { live with boot := { live.boot with run := some { wait := w, env, warm := false } } }

/-- A configuration request before step 7 has ended. -/
theorem witness_RegisterAccess_retry : (startWaits .image).dlUp = true ∧
    (startWaits .image).boot.run = some { wait := .image, env, warm := false } := by decide +kernel

theorem witness_LinkLossAndWaits : live.boot.ramp = false ∧ ((startWaits .image).boot.run.map (·.wait)) = some .image ∧
    { startWaits .link with boot := { (startWaits .link).boot with perst := true } }.boot.perst = true ∧
    (startWaits .link).boot.perst = false ∧ live.lc ≠ lcScrapped ∧ (live.set .lcsStateState 5).lc = lcScrapped ∧
    live.boot.aux = true ∧ live.boot.perst = false ∧ live.dlUp = true ∧ live.boot.run = none ∧
    ((startWaits .link).boot.run.map (·.wait)) = some .link ∧
    ((startWaits .stackRails).boot.run.map (·.wait)) = some .stackRails := by decide +kernel

def flashing (op : Nat) : State := { live with boot := { live.boot with flashOp := some { op, addr := 0, data := zeros 256 } } }

theorem witness_Flash : live.hostReady 0 = true ∧ live.flag .bootFlStatusBusy = false ∧ live.flashMay 1 (live.get .bootFlAddrAddr) = true ∧
    live.flashMay 2 (live.get .bootFlAddrAddr) = true ∧ live.get .bootFlAddrAddr % 4096 = 0 ∧
    live.flashMay 3 (live.get .bootFlAddrAddr) = true ∧
    (live.set .bootFlStatusBusy 1).flag .bootFlStatusBusy = true ∧ (live.set .bootFlStatusBusy 1).hostReady 0 = true ∧
    (live.set .bootFlAddrAddr 0x8000).flashMay 2 0x8000 = false ∧
    (live.set .bootFlAddrAddr 1).flashMay 2 1 = true ∧ (live.set .bootFlAddrAddr 1).get .bootFlAddrAddr % 256 ≠ 0 ∧
    (flashing 1).boot.flashOp.isSome = true ∧ (flashing 2).boot.flashOp.isSome = true ∧
    (flashing 3).boot.flashOp.isSome = true ∧ ((flashing 3).boot.flashOp.map (·.behind)) = some false ∧
    (let s := { flashing 1 with
       boot := { live.boot with flashOp := some { op := 1, addr := 0, data := [], behind := true } }
       cal := { live.cal with writing := some (0, 1) } }
     ∃ x ∈ s.boot.flashOp, (x.behind && s.cal.writing.isSome) = true) := by decide +kernel

def sideband : State := { live with boot := { live.boot with sideband := { live.boot.sideband with up := true, i3c := true } } }

def testing : State :=
  { live.set .bistStatusState 2 with bist := some { tests := 2, full := false, inst := 1 } }

/-- A run of tests 1 and 2 of which 1 has finished. -/
def testingTwo : State :=
  { live.set .bistStatusState 2 with bist := some { tests := 6, full := false, inst := 1, finished := 2 } }

theorem witness_SidebandAndBist_partial : testingTwo.get .bistStatusState = bistRunning ∧ testingTwo.hostReady 0 = true ∧
    testingTwo.bist = some { tests := 6, full := false, inst := 1, finished := 2 } ∧
    leaves (.bistDone { tests := 2, fails := [] } 7) testingTwo (fun t => t.bist.isSome) = true ∧
    bitAt 6 2 = true ∧ bitAt 2 2 = false ∧ bitAt 2 1 = true := by
  decide +kernel

theorem witness_SidebandAndBist : sideband.boot.aux = true ∧ sideband.boot.sideband.up = true ∧ 0x10000 / 65536 = 1 ∧
    0x20000 / 65536 = 2 ∧ flashListed 0 256 = true ∧ flashListed 0x4000 1 = false ∧ sideband.boot.flashOp = none ∧
    sideband.cal.writing = none ∧ { sideband.cal with writing := some (0, 1) }.writing.isSome = true ∧
    sideband.boot.sideband.i3c = true ∧
    { sideband.boot.sideband with i3c := false }.i3c = false ∧ live.boot.sideband.up = false ∧
    sideband.railIgnored evSbErr = false ∧ testing.bist.isSome = true ∧ live.bist = none ∧
    testing.get .bistStatusState = bistRunning ∧ testing.hostReady 0 = true ∧ live.hostReady 0 = true := by decide +kernel

/-! ### Witnesses: ponds, engines, power domains -/

def engine0 (st : Nat) (x : Engine) : State := ((pond0 live).set .engStateState st 0 |>.set .pwrDomState 2 0).setEngine 0 x

def token : Token := { ring := 0, slot := 0, jgen := 0, kind := 4, unit := 0 }

def copyJob : Job := { job 1 (desc 1 [(32, [64])]) with bufs := [
  (64, [{ addr := 0x1000, len := 64, space := 0, basin := 0, attr := 0 }]),
  (80, [{ addr := 0x2000, len := 64, space := 0, basin := 0, attr := 0 }])] }

def pushing : State := withJob (pond0 ring0) copyJob

def popping (t : Token) : State := (engine0 1 {}).setPond 0 { deque := [t] }

/-- Pond 0 empty with engine 0 free, pond 1 with one entry. -/
def thieving : State := ((engine0 1 {}).set .pwrDomState 2 49).setPond 1 { deque := [token.marked] }

theorem witness_Deques : pushing.working = true ∧ pushing.pondOn 0 = true ∧ (pushing.pond 0).deque.length < 496 ∧
    pushing.jobUnit.jobs = [copyJob] ∧ pushing.nextToken copyJob 0 = some token ∧
    pushing.entriesOf 0 0 < pushing.get .engCfgJobTaskCap ∧ (∀ k ∈ [token, token.marked],
      (popping k).mayPop 0 = true ∧ ((popping k).pond 0).deque.find? ((popping k).mayRun 0) = some k) ∧
    token.marked.good = true ∧ token.good = false ∧ thieving.pondOn 0 = true ∧ (thieving.pond 0).deque = [] ∧
    (∃ k < 8, thieving.mayPop (8 * 0 + k) = true) ∧ 1 = (0 + (thieving.pond 0).rot + 1) % 6 ∧ thieving.pondServes 1 = true ∧
    thieving.flag .engPondCtrlStealEn 1 = true ∧ thieving.flag .engPondCtrlStealEn 0 = true ∧
    thieving.pondTemp 0 - 4 * thieving.get .engCfgStealTdelta ≤ thieving.pondTemp 1 ∧ (thieving.pond 1).deque ≠ [] ∧
    (thieving.pond 1).deque.all Token.good = true := by decide +kernel

def running : Running := { tok := token, pond := 0, digest := false }

def fencedEngine : State := withJob ((engine0 3 { fenced := [running] })) copyJob

/-- A task runs; the head of its engine's port waits for a token. -/
def tokenWaits : State := { engine0 2 { tasks := [running] } with
  weirs := { live.weirs with queue := [{ request false with port := 0 }], bucket := [(0, 0)] } }

theorem witness_Engines : (engine0 2 { tasks := [running] }).engOnline 0 = true ∧
    ((engine0 2 { tasks := [running] }).engine 0).tasks.any (fun x => x.digest == false) = true ∧
    (engine0 2 { tasks := [running] }).shutdown = false ∧
    (engine0 2 { tasks := [running] }).flag .cfgBme ((engine0 2 { tasks := [running] }).ringFunc 0) = true ∧
    ((engine0 2 { tasks := [running] }).portHead 0).any (engine0 2 { tasks := [running] }).heldForToken = false ∧
    (tokenWaits.portHead 0).any tokenWaits.heldForToken = true ∧ tokenWaits.engOnline 0 = true ∧
    fencedEngine.engineQuiet 0 = true ∧ { engine0 3 {} with weirs := tokenWaits.weirs }.engineQuiet 0 = false ∧ (fencedEngine.engine 0).fenced = [running] ∧
    fencedEngine.findJob 0 0 = some copyJob ∧ copyJob.halted = false ∧ token.attempt < 2 ∧
    (engine0 3 {}).engState 0 = engFenced ∧ ((engine0 3 {}).engine 0).fenced = [] ∧
    (engine0 3 {}).recentFences 0 < (engine0 3 {}).get .engCfgRejoinLimit ∧
    (let s := { engine0 3 {} with boot := { live.boot with coreOk := true, coreVolt := true } }
     s.engState 0 = engFenced ∧ s.boot.coreVolt = true ∧ s.govInLimits 0 = true ∧ s.bistTests 0 = false) ∧
    (engine0 3 {}).boot.coreVolt = false ∧
    (let s := engine0 3 { fences := List.replicate 15 0 }; s.get .engCfgRejoinLimit ≤ s.recentFences 0) ∧
    (engine0 3 {}).hostReady 0 = true ∧ (engine0 4 {}).engState 0 = engTesting ∧
    (∀ d < 54, (engine0 4 {}).flag .pwrDomOffReq d = false) ∧ (engine0 4 {}).flag .engCtrlOfflineReq 0 = false ∧
    (let s := { engine0 4 {} with boot := { live.boot with coreOk := true, coreVolt := true } }
     s.engState 0 = engTesting ∧ s.boot.coreVolt = true ∧ s.govInLimits 0 = true ∧ s.dom 0 ≠ domWaking ∧
     s.dom (48 + 0 / 8) ≠ domDraining) ∧ (engine0 4 {}).boot.coreVolt = false ∧
    ((engine0 4 {}).set .pwrDomState 1 0).dom 0 = domWaking ∧ ((engine0 3 {}).engine 0).repairOff = false ∧
    (engine0 4 {}).dom 0 = domOn ∧ ((engine0 4 {}).engine 0).repairOff = false ∧ (engine0 1 {}).engOnline 0 = true ∧
    ((engine0 1 {}).engine 0).tasks = [] ∧ (engine0 1 {}).dom 0 = domOn ∧ (engine0 1 {}).hostReady 0 = true ∧
    (engine0 5 {}).engState 0 = engOffline ∧ ((engine0 5 {}).engine 0).failed = false := by decide +kernel

def engineOff : State := put live [(.pwrDomState, 0, 0), (.engStateState, 0, 0)]

def pondDrains : State := put live ((48, 3) :: (List.range 8).map (fun k => (k, 0)) |>.map (fun x => (FN.pwrDomState, x.2, x.1)))

theorem witness_PowerDomains : live.hostReady 0 = true ∧ live.dom 0 = domOn ∧ live.spare 0 = true ∧
    live.engOnline 0 = true ∧ (live.engine 0).tasks = [] ∧ engineOff.dom 0 = domOff ∧ engineOff.engState 0 = engOff ∧
    engineOff.dom 48 = domOn ∧ engineOff.hostReady 0 = true ∧ (engineOff.set .pwrDomState 1 0).dom 0 = domWaking ∧
    ((engineOff.set .pwrDomState 1 0).set .pwrDomState 0 48).dom 48 < domOn ∧
    (engineOff.set .pwrDomState 1 0).engState 0 = engOff ∧ (engineOff.set .pwrDomState 1 0).flag .pwrDomOffReq 0 = false ∧
    (engineOff.set .pwrDomState 1 0).mayTest 0 = false ∧
    { engineOff.set .pwrDomState 1 0 with boot := { live.boot with coreOk := true, coreVolt := true } }.mayTest 0 = true ∧
    (engineOff.engine 0).failed = false ∧ (engineOff.engine 0).repairOff = false ∧ pondDrains.dom 48 = domDraining ∧
    (pondDrains.pond 0).deque = [] ∧ ∀ k < 8, pondDrains.dom (8 * 0 + k) = domOff := by decide +kernel

/-! ### Witnesses: jobs and tasks -/

/-- Ring 0 with one descriptor made valid and room in the ring. -/
def posted : State := ring0.set .jobRqDbSqTail 1

theorem witness_Doorbells : live.barOpen 0 = true ∧ live.ready = true ∧ (live.set .bootStatusState 0).ready = false ∧
    (live.set .bootStatusState 0).barOpen 0 = true ∧ ring0.barOpen 0 = true ∧ ring0.ready = true ∧ ring0.inHold = false ∧
    ring0.fatal = false ∧ ring0.ringPair 0 0 = some 0 ∧ 15 < ring0.ringSize 0 ∧ ring0.ringSize 0 ≤ 16 := by decide +kernel

theorem witness_DescriptorFetch : posted.fetchWanted 0 = true ∧ posted.nextTag.isSome = true ∧
    posted.outstanding 0 < posted.ringSize 0 - 1 ∧ posted.get .jobRqSqHead 0 < posted.ringSize 0 ∧ posted.ringSize 0 ≤ 65536 ∧
    (let s := posted.set .jobRqDbCqHead 1
     s.fetchWanted 0 = true ∧ s.nextTag.isSome = true ∧ s.ringSize 0 - 1 ≤ s.outstanding 0) := by decide +kernel

/-- One descriptor on its way. -/
def coming : State := ring0.setRing 0 { fetches := [{ slot := 0, gen := 0, seq := 0 }] }

def fetch0 : Fetch := { slot := 0, gen := 0, seq := 0 }

/-- Host memory of `n` bytes at `a`, as a buffer field. -/
def hostBuf (a n : Nat) : List Byte := leBytes 8 a ++ leBytes 4 n ++ zeros 4

def copyDesc : List Byte := desc 1 [(32, leBytes 8 64), (64, hostBuf 0x1000 64), (80, hostBuf 0x2000 64)]

def scrubDesc : List Byte := desc 11 [(40, leBytes 8 64), (48, [0xFF]), (80, hostBuf 0x2000 64)]

def queryDesc : List Byte := desc 9 [(80, hostBuf 0x2000 704)]

/-- An ENCODE of one byte of function 0: profile 0, S 4,096, its shard table fetched, the log enabled, a key loaded. -/
def encodeDesc : List Byte := desc 3 [(32, leBytes 8 1), (40, [0]), (42, [1]), (64, hostBuf 0x1000 1), (80, hostBuf 0x2000 (16 * 18))]

theorem witness_DescriptorArrives : (coming.ring 0).fetches = [fetch0] ∧ copyDesc.length = 128 ∧
    (copyDesc.headD 0).toNat = 1 ∧ (coming.checks 0 fetch0 copyDesc []).fail = none ∧ coming.shutdown = false ∧
    coming.fatal = false ∧ coming.d3hot = false ∧ coming.fenceOpen 0 = false ∧
    (withJob coming (job 10 [])).fenceOpen 0 = true ∧ ((withJob coming (job 10 [])).checks 0 fetch0 copyDesc []).fail = none ∧
    (coming.checks 0 fetch0 (desc 1 []) []).fail = some .badDescriptor ∧
    (coming.checks 0 fetch0 (desc 10 []) []).fail = none ∧ (coming.checks 0 fetch0 scrubDesc []).fail = none ∧
    (coming.checks 0 fetch0 queryDesc []).fail = none ∧
    (coming.checks 0 fetch0 (desc 3 []) []).fail = some .badDescriptor ∧ ((desc 0 []).headD 0).toNat = 0 := by
  decide +kernel

def onEngine : State := withJob (engine0 2 { tasks := [running] }) copyJob

/-- A unit of the copy written; its flushing read at the host, of shard 4, outstanding where `reads`. -/
def copyRun : UnitRun := { unit := 0, written := true, flushes := [(false, 0x203F, 0, 0xFF)] }

def written (reads : Bool) : State :=
  let s := withJob live { copyJob with units := 1, runs := [copyRun] }
  if reads then { s with pcie := { s.pcie with
    tags := [{ tag := 0, func := 0, addr := 0x203F, len := 1, peer := false, held := false, use := .flush 0 0 0 0 4 }] } }
  else s

theorem witness_TasksAndUnits :
    (∀ r ∈ (onEngine.engine 0).tasks, r.answers false ⟨0, 0, 0, 1, 4⟩ 0 = false ∧ r.answers false ⟨0, 0, 1, 0, 4⟩ 0 = false ∧
      r.answers false ⟨0, 0, 0, 0, 5⟩ 0 = false) ∧
    (onEngine.engine 0).stale = [] ∧ (onEngine.findJob 0 0).any (fun j => j.gen == 0) = true ∧
    (onEngine.findJob 0 0).any (fun j => j.gen == 1) = false ∧
    (∀ fenced, ((engine0 1 { stale := [(running, fenced)] }).engine 0).stale = [(running, fenced)]) ∧
    running.answers false ⟨0, 0, 0, 0, 4⟩ 0 = true ∧ (onEngine.engine 0).tasks = [running] ∧ running.digest = false ∧
    onEngine.pcie.lost = [] ∧
    running.tok.kind = 4 ∧ running.tok.unit = 0 ∧ onEngine.findJob 0 0 = some copyJob ∧ copyJob.gen = running.tok.jgen ∧
    copyJob.bufs.length = 2 ∧ 0 < dLen copyJob.desc ∧ dLen copyJob.desc ≤ 128 ∧ dLen copyJob.desc ≤ 64 ∧
    0x2000 % 4096 + dLen copyJob.desc ≤ 4096 ∧ onEngine.mayIssue 0 = true := by decide +kernel

/-- A unit's durability point, with a flushing read of it under way and without. -/
theorem witness_TasksAndUnits_durable (reads : Bool) : let j := { copyJob with units := 1, runs := [copyRun] }
    (written reads).findJob 0 0 = some j ∧ j.outRun = none ∧ j.run 0 = some copyRun ∧ copyRun.written = true ∧
    copyRun.durable = false ∧ copyRun.verify = 0 ∧ j.progress ≤ 0 ∧ j.doneSet = [] ∧ j.status = none ∧
    ((written reads).flushReads j 0).length = if reads then 1 else 0 := by
  cases reads <;> decide +kernel

def ended : Job := { copyJob with stage := .closing }

theorem witness_JobCompletes : (withJob ring0 copyJob).noCompletions = false ∧ (withJob ring0 copyJob).findJob 0 0 = some copyJob ∧
    (withJob ring0 copyJob).jobEnded copyJob = false ∧ (withJob ring0 ended).noCompletions = false ∧
    (withJob ring0 ended).findJob 0 0 = some ended ∧ (withJob ring0 ended).jobEnded ended = true ∧ ended.owesReceipt = false ∧
    (withJob ring0 ended).mayIssue ((withJob ring0 ended).ringFunc 0) = true ∧ (withJob ring0 ended).ringSize 0 ≤ 65536 ∧
    (withJob ring0 ended).get .jobRqCqTail 0 < (withJob ring0 ended).ringSize 0 ∧
    (let s := (ring0.set .jobRqIrqCoalUs 5).setRing 0 { unsig := 1 }
     s.get .jobRqIrqCoalUs 0 ≠ 0 ∧ (s.ring 0).unsig ≠ 0 ∧ s.flag .cfgMsixEn (s.ringFunc 0) = false ∧
     (s.set .cfgMsixEn 1 0).flag .cfgMsixEn (s.ringFunc 0) = true) ∧ (ring0.ring 0).unsig = 0 := by decide +kernel

/-- Ring 0 disabled, slot 3 held INTERRUPTED. -/
def holding : State := (ring0.set .jobRqCtrlEn 0 0).setRing 0 { interrupted := [3] }

theorem witness_CancelAndRings : ring0.hostReady 0 = true ∧ ring0.ringOwn 0 0 = true ∧ (0x80000000#32).getLsbD 31 = true ∧
    ring0.findJob 0 0 = none ∧ (withJob ring0 copyJob).findJob 0 0 = some copyJob ∧ copyJob.gen ≠ 1 ∧ copyJob.gen = 0 ∧
    { copyJob with units := 1 }.allDone = false ∧ copyJob.stage ≠ .signing ∧ ring0.flag .jobRqCtrlEn 0 = true ∧
    holding.hostReady 0 = true ∧ holding.ringOwn 0 0 = true ∧ holding.flag .jobRqCtrlEn 0 = false ∧
    holding.mayIssue 0 = true ∧ (holding.ring 0).interrupted = [3] ∧ fieldAt (holding.recRead 0 3 0 1024) 6 1 = 0 ∧
    (let s := put holding [(.drcBasinCfgJournal, 1, 0), (.drcBasinCfgEn, 1, 0), (.drcBasinPcmaskLoMask, 1, 0),
       (.drcBasinLocExt, 8192, 0), (.drcBasinCfgGrain, 8, 0)]
     let x := s.locate 0 (s.recordOffset 0 3 + 6)
     0 < fieldAt (({ s with dram := { s.dram with mem := [(memKey x.1 x.2, 1#8)] } }).recRead 0 3 0 1024) 6 1) ∧
    ring0.ringIdle 0 = false ∧ (ring0.set .jobRqCtrlEn 0 0).ringIdle 0 = true ∧
    (ring0.set .jobRqCtrlEn 0 0).hostReady 0 = true ∧ (ring0.set .jobRqCtrlEn 0 0).ringOwn 0 0 = true := by decide +kernel

theorem witness_FunctionReset : live.funcExists 0 = true ∧ vf1.funcExists 1 = true ∧ ring0.ringAlloc 0 = true ∧
    ring0.ringFunc 0 = 0 ∧ vf1.ringFunc 5 ≠ 1 := by decide +kernel

/-! ### Witnesses: sealing -/

def sealJob : Job := job 8 (desc 8 [(32, [7])])

/-- PF0's receipt log of 64 slots, enabled. -/
def logged (s : State) : State := put s [(.sealLogCfgLog2size, 6, 0), (.sealLogCfgLogEn, 1, 0)]

def snap : Snapshot := { epoch := 0, slot := 0, ver := 1, salt := 0, enc := false }

def encoded : Job := { job 3 encodeDesc with stage := .closing, snap := some snap }

/-- The SEAL of ring 0 beside another job. -/
def sealBeside (x : Job) : State := { ring0 with jobUnit := { ring0.jobUnit with jobs := [x, sealJob] } }

theorem witness_SealAndFenceStart : (withJob ring0 sealJob).findJob 0 0 = some sealJob ∧ sealJob.stage = .started ∧
    sealJob.stopped = false ∧ (withJob ring0 sealJob).sealWaits sealJob = false ∧ (withJob ring0 sealJob).shutdown = false ∧
    (withJob ring0 sealJob).epoch 0 ≤ dLen sealJob.desc ∧ dLen sealJob.desc < (ring0.setEpoch 0 9).epoch 0 ∧
    (sealBeside { encoded with slot := 1, receipt := true }).sealWaits sealJob = true ∧
    (sealBeside { encoded with slot := 1, receipt := true }).findJob 0 0 = some sealJob ∧
    (let s := withJob ring0 (job 10 [])
     (∀ x ∈ s.jobUnit.jobs, s.fenceScope (job 10 []) x.ring = true → seqBefore x.fetchSeq (job 10 []).fetchSeq = false) ∧
     s.jobUnit.rings = []) ∧
    (let f : Job := { job 10 [] with slot := 1, fetchSeq := 1 }
     let s := { ring0 with jobUnit := { ring0.jobUnit with jobs := [copyJob, f] } }
     s.findJob 0 1 = some f ∧ ∃ x ∈ s.jobUnit.jobs, s.fenceScope f x.ring = true ∧ seqBefore x.fetchSeq f.fetchSeq = true) ∧
    (let s := withJob (ring0.setRing 0 { interrupted := [3] }) (job 10 [])
     ∃ x ∈ s.jobUnit.rings, s.fenceScope (job 10 []) x.1 = true ∧ x.2.interrupted ≠ []) := by
  decide +kernel

/-- PF0's receipt log full, the record of the SEAL of slot 0 waiting for a slot. -/
def recordHeld : State := (logged (withJob ring0 sealJob)).setSeal 0 { used := 64, records := [(zeros 240, some (0, 0, 0))] }

theorem witness_ReceiptLog : (withJob ring0 encoded).findJob 0 0 = some encoded ∧
    (withJob ring0 encoded).jobEnded encoded = true ∧ encoded.owesReceipt = true ∧
    ((withJob ring0 encoded).seal 0).records = [] ∧ (withJob ring0 encoded).logFree 0 = false ∧
    (logged (withJob ring0 encoded)).logFree 0 = true ∧ ((logged (withJob ring0 encoded)).jobProfile encoded).isSome = true ∧
    (logged ring0).mayIssue 0 = true ∧ (logged ring0).get .sealOpenEntries 0 + 1 < 16777216 ∧
    (logged ring0).get .sealLogPtrTail 0 < (logged ring0).logSize 0 ∧ (logged ring0).logSize 0 ≤ 65536 ∧
    live.hostReady 0 = true ∧ live.get .sealLogCfgLog2size 0 < 6 ∧ (logged live).hostReady 0 = true ∧
    6 ≤ (logged live).get .sealLogCfgLog2size 0 ∧ 5 < (logged live).logSize 0 ∧ ((logged live).seal 0).records = [] ∧
    (let s := recordHeld
     s.hostReady 0 = true ∧ 6 ≤ s.get .sealLogCfgLog2size 0 ∧ 5 < s.logSize 0 ∧
     0 < (5 + s.logSize 0 - s.get .sealLogHeadHead 0) % s.logSize 0 ∧
     (5 + s.logSize 0 - s.get .sealLogHeadHead 0) % s.logSize 0 ≤ (s.seal 0).used ∧ (s.seal 0).used ≤ s.logSize 0 ∧
     s.logOn 0 = true ∧ s.mayIssue 0 = true ∧ (s.seal 0).records = [(zeros 240, some (0, 0, sealJob.gen))] ∧
     s.findJob 0 0 = some sealJob ∧ sealJob.status = none ∧ s.get .sealLogPtrTail 0 < s.logSize 0 ∧
     s.get .sealLogCfgLog2size 0 ≤ 16) ∧
    (withJob live sealJob).logBusy 0 = true ∧ live.logBusy 0 = false := by decide +kernel

theorem witness_EpochAndKeys : live.hostReady 0 = true ∧ (live.seal 0).staged + 2 ^ 32 * 0 < (live.setEpoch 0 5).epoch 0 ∧
    (live.setEpoch 0 5).hostReady 0 = true ∧ (live.seal 0).staged + 2 ^ 32 * 0 = live.epoch 0 ∧
    live.epoch 0 < (live.seal 0).staged + 2 ^ 32 * 1 ∧ (live.seal 0).staged < 2 ^ 32 ∧
    (let s := live.set .sealKeyState 4 0 0
     s.keyState 0 0 = keyUnloading ∧ s.keyHeld 0 0 = false ∧
     (withJob s { copyJob with keys := [0] }).keyHeld 0 0 = true) := by decide +kernel

def batch : Batch := { seq := 0, epoch := 0, entries := 0, root := zeros 48, chainId := zeros 16, start := true, auto := false,
                       job := none }

def closed : State := (logged live).setSeal 0 { started := true, closing := [batch], prev := zeros 48 }

def closedBySeal : State :=
  (withJob (logged live) sealJob).setSeal 0 { started := true, closing := [{ batch with job := some (0, 0, 0) }], prev := zeros 48 }

def signing : State := { live with trust := { live.trust with signer := [{ transport := .mctp, code := 3, content := [] }] } }

/-- READY in a life cycle, with a UDS, the Tarn's private keys and PF0's owner valid. -/
def cycle (lc : Nat) : State :=
  let s := put live [(.lcsStateState, lc, 0), (.lcsStateOwnerOk, 1, 0)]
  { s with trust := { s.trust with
    uds := some (zeros 32), nonce := some (zeros 32), held := some { cdi := zeros 48, wrap := zeros 48 } } }

theorem witness_Signatures : (closed.seal 0).closing = [batch] ∧ (closed.seal 0).records = [] ∧ closed.logFree 0 = true ∧
    closed.mayIssue 0 = true ∧ (closedBySeal.seal 0).closing = [{ batch with job := some (0, 0, sealJob.gen) }] ∧
    closedBySeal.findJob 0 0 = some sealJob ∧ signing.trust.signer.length = 1 ∧ signing.batchWaited = false ∧
    (cycle 2).cdi = some (zeros 48) ∧ { (cycle 2) with trust := { (cycle 2).trust with signer := signing.trust.signer } }.cdi.isSome =
      true ∧
    (let s := (logged signing).setSeal 0 { started := true, closing := [{ batch with waited := true }], prev := zeros 48 }
     s.batchWaited = true ∧ s.trust.signer ≠ []) := by decide +kernel

/-! ### Witnesses: the mailbox, tamper, SPDM and IDE -/

theorem witness_MailboxCommands : (cycle 2).hostReady 0 = true ∧ (live.set .lcsMboxStatusBusy 1).hostReady 0 = true ∧
    (live.set .lcsMboxStatusBusy 1).flag .lcsMboxStatusBusy = true ∧ (cycle 2).flag .lcsMboxStatusBusy = false ∧
    (cycle 2).keysAllowed = true ∧ (cycle 2).trust.held = some { cdi := zeros 48, wrap := zeros 48 } ∧
    (let input := leBytes 1 0 ++ leBytes 1 7 ++ zeros 186
     input.length = 188 ∧ zeroIn input 2 4 = true ∧ fieldAt input 0 1 ≤ (cycle 2).vfCount ∧ fieldAt input 1 1 < 8 ∧
     (cycle 2).keyState 0 7 = keyEmpty ∧ (cycle 2).keySlotOf 0 (fieldAt input 18 2) = none) ∧
    (let s := withJob ((cycle 2).set .sealKeyState 2 0 0) { copyJob with keys := [0] }
     s.hostReady 0 = true ∧ s.keyHeld 0 0 = true ∧ s.keyState 0 0 ≠ keyEmpty ∧ s.keyHeld 0 1 = false ∧
     s.keyState 0 1 ≠ keyUnloading) ∧
    (let input := leBytes 2 1022 ++ zeros 10
     let s := cycle 1
     s.hostReady 0 = true ∧ input.length = 12 ∧ zeroIn input 3 4 = true ∧ fieldAt input 0 2 % 2 = 0 ∧
     fieldAt input 0 2 < 1024 ∧ fieldAt input 2 1 ≤ 1 ∧ s.bistAccepted (fieldAt input 0 2) = true ∧ s.bist = none ∧
     s.ringsQuiet = true) ∧
    0xFF ∉ knownCmds := by decide +kernel

theorem witness_SignedAndDone : (∃ key, (cycle 1).ownerKey = some key) ∧ (∃ key, (cycle 1).signerKey = some key) :=
  ⟨⟨_, rfl⟩, _, rfl⟩

theorem witness_SignedAndDone_states : (cycle 1).trust.nonce = some (zeros 32) ∧ (cycle 1).govInLimits 0 = true ∧
    (cycle 1).hostReady 0 = true ∧ (cycle 1).flag .lcsMboxStatusBusy = false ∧
    (let input := leBytes 1 1 ++ zeros 99
     let s := (cycle 1).set .lcsArbFwSvn 1
     input.length = 100 ∧ zeroIn input 1 4 = true ∧ s.lc = lcMfg ∧ s.arbShadow < fieldAt input 0 1 ∧
     fieldAt input 0 1 ≤ s.get .lcsArbFwSvn) ∧
    (zeros 100).length = 100 ∧ zeroIn (zeros 100) 0 4 = true ∧ (cycle 1).flag .otpRegionLocked 0 = false ∧
    (∀ k < 32, (cycle 1).arrayByte k = 0) ∧ (cycle 1).otpOpen 0 = true ∧ (cycle 1).otpOpen 4 = true ∧
    (cycle 1).otpRange 0x020 1 = true ∧ (cycle 1).otpRange 0x01F 1 = false ∧
    (let input := leBytes 1 lcMfg ++ zeros 147
     input.length = 148 ∧ (cycle 0).lcTarget (fieldAt input 0 1) = true ∧ (cycle 0).signerKey.isSome = true) ∧
    (zeros 144).length = 144 ∧ (cycle 2).lc = lcProvisioned ∧ (cycle 2).ownerNow ≠ some 3 ∧
    (let s := { live with trust := { live.trust with mbox := some { cmd := 0x31, result := 0, output := [], otp := none } } }
     s.trust.mbox.isSome = true ∧ 0 ≠ 7 ∧ s.boot.perst = false ∧ s.boot.coldNext = false) ∧
    ({ cmd := 0x31, result := 0, output := [], otp := none, late := true } : MboxRun).late = true ∧
    perst.boot.perst = true ∧
    (∀ b ∈ [32767], b < 32768) := by decide +kernel

theorem witness_TamperAndQueues : live.lc = lcBlank ∧ (cycle 2).lc ≠ lcBlank ∧ (cycle 2).boot.aux = true ∧
    (cycle 2).railIgnored evLcsTamper = false ∧ { live.dram with zeroing := true }.zeroing = true ∧ live.dram.zeroing = false ∧
    (live.set .tarnStatusKeypathOpen 1).flag .tarnStatusKeypathOpen = true ∧ live.flag .tarnStatusKeypathOpen = false ∧
    portBMay 0xA000 true = true ∧ portBMay 0x2000 false = true ∧ portBMay 0x2000 true = false ∧ (1 : BitVec 64) ≠ 2 ∧
    live.boot.coreVolt = false ∧ { (cycle 2).boot with coreVolt := true }.coreVolt = true ∧ State.reset.boot.aux = false ∧
    (let s := { live with trust := { live.trust with mbox := some { cmd := 1, result := 0, output := [] } } }
     s.trust.mbox.map (·.otp) = some none) := by decide +kernel

/-- SPDM served over DOE with its state negotiated. -/
def negotiated (t : Transport) (s : State) : State :=
  s.setConn t { version := some 0x13, caps := true, algs := true, large := [1, 2] }

theorem witness_SpdmRequests : (cycle 2).spdmOpen .doe = true ∧ (cycle 2).trust.uds.isSome = true ∧
    sideband.spdmOpen .mctp = true ∧ ((cycle 2).conn .doe).caps = false ∧
    ((negotiated .doe (cycle 2)).conn .doe).caps = true ∧ ((negotiated .doe (cycle 2)).conn .doe).algs = true ∧
    ((negotiated .doe (cycle 2)).conn .doe).large ≠ [] ∧ (negotiated .doe (cycle 2)).flag .lcsStateCertOk = false ∧
    ((negotiated .doe (cycle 2)).set .lcsStateCertOk 1).flag .lcsStateCertOk = true ∧ (zeros 32).length = 32 ∧
    (cycle 2).trust.signer = [] ∧ (cycle 2).trust.requests = [] ∧ (cycle 2).trust.held.isSome = true ∧
    (let s := { cycle 2 with trust := { (cycle 2).trust with signer := [{ transport := .mctp, code := 3, content := [] }] } }
     s.spdmOpen .doe = true ∧ s.trust.signer ≠ []) := by decide +kernel

def session (est : Bool) : SpdmSession := { id := 1, transport := .doe, established := est, secret := zeros 48, updates := 0 }

def inSession (est : Bool) : State := { negotiated .doe (cycle 2) with trust := { (negotiated .doe (cycle 2)).trust with
  sessions := [session est], streams := [(3, { keys := [(16, zeros 32)], active := some 1, secure := true })] } }

theorem witness_SessionsAndIde : (inSession true).spdmOpen .doe = true ∧ ((inSession true).conn .doe).algs = true ∧
    (inSession true).trust.sessions.length < 4 ∧ (inSession true).trust.uds.isSome = true ∧
    (inSession true).session 1 = some (session true) ∧ (inSession false).session 1 = some (session false) ∧
    ((inSession true).stream 3).keys.any (fun k => k.1 / 16 == 1) = true ∧ ((inSession true).stream 3).active = some 1 ∧
    (zeros 32).length = 32 ∧ (inSession true).trust.held.isSome = true ∧ (inSession true).trust.signer = [] ∧
    (inSession true).trust.requests = [] := by decide +kernel

/-! ### Witnesses: PCI Express -/

def untrained : State :=
  let s := put live [(.pcxLinkStatusDlUp, 0, 0), (.pcxLinkCfgMaxWidth, 16, 0)]
  { s with image := [(0, [])], pcie := { s.pcie with identity := zeros 16 }, boot := { s.boot with plls := true } }

/-- Up in Flit mode at 16 lanes and 64.0 GT/s, with L0p. -/
def flit (width : Nat) : State :=
  let s := put live [(.pcxLinkStatusFlit, 1, 0), (.cfgL0pEn, 1, 0), (.pcxLinkStatusWidth, 16, 0), (.pcxLinkStatusRate, 6, 0),
    (.pcxLinkCfgL0pInit, 1, 0), (.pcxL0pMinWidth, 2, 0), (.cfgAspm, 2, 0), (.pcxLinkStatusLtssm, 3, 0)]
  { s with pcie := { s.pcie with identity := zeros 16, width } }

theorem witness_LinkTraining : untrained.boot.plls = true ∧ untrained.boot.aux = true ∧ untrained.boot.perst = false ∧ untrained.dlUp = false ∧
    untrained.pcie.identity ≠ [] ∧ untrained.boot.run = none ∧ env.train.rate ≠ 0 ∧ env.train.rate ≤ 6 ∧
    1 ≤ untrained.get .pcxLinkCfgMaxWidth ∧ bitAt env.train.working 0 = true ∧ bitAt 1 15 = false ∧
    (flit 16).dlUp = true ∧ (flit 16).l0pOn = true ∧ (flit 16).flag .pcxLinkCfgL0pInit = true ∧
    (flit 16).get .pcxL0pMinWidth < (flit 16).pcie.width ∧ (flit 2).pcie.width < (flit 2).get .pcxLinkStatusWidth ∧
    bitAt ((flit 16).get .cfgAspm) 1 = true ∧ (flit 16).pcie.tags = [] ∧ (flit 16).pcie.waiting = [] ∧
    (flit 16).owesCompletion = false ∧ (flit 16).requestQueued = false ∧
    ((flit 16).setPlanSlot 0 0 { running := some { profile := 0, present := 0, wanted := 0, off := 128, len := 4 } }).owesCompletion =
      true ∧ untrained.image.isEmpty = false ∧ bits 0x08 5 3 = 1 ∧ bits 0x18 5 3 = 3 ∧ bits 0x20 5 3 = 4 ∧ bits 0x10 5 3 = 2 ∧
    (flit 16).get .pcxLinkStatusLtssm = 3 ∧ ((flit 16).set .pcxLinkStatusLtssm 5).get .pcxLinkStatusLtssm = 5 ∧
    4 ≤ (flit 16).get .pcxLinkStatusRate ∧ ((flit 16).set .pcxLinkStatusRate 3).get .pcxLinkStatusRate < 4 := by
  decide +kernel

def held (s : State) : State := { s with pcie := { s.pcie with identity := zeros 16, held := [.msix 1 0 0 0] } }

theorem witness_PowerStatesAndEnables : (held live).linkHeld = false ∧ (held live).cfgOpen = true ∧ (held live).d3hot = false ∧
    (held live).noCompletions = false ∧ ((held live).set .cfgPmState 3).d3hot = true ∧
    ((held vf1).set .cfgPmState 3).cfgOpen = true ∧ outFunc (.msix 1 0 0 0) = some 1 ∧ (held vf1).linkHeld = false ∧ (held vf1).flag .cfgBme 1 = true ∧
    (held vf1).flag .cfgVfEnable = true ∧ (held vf1).funcExists 1 = true ∧ (held vf1).funcExists 2 = false ∧
    (held vf1).d3hot = false ∧ (held vf1).pcie.held = [.msix 1 0 0 0] ∧
    (let s := put (held vf1) [(.jobRqCfgAlloc, 1, 9), (.jobRqCfgFunc, 1, 9)]
     s.ringAlloc 9 = true ∧ s.ringFunc 9 = 1 ∧ 1 ≤ s.get .cfgNumVfs) := by decide +kernel

/-- Tag 255 reads a descriptor of ring 0. -/
def tagged (held : Bool) : State := { live with pcie := { live.pcie with
  tags := [{ tag := 255, func := 0, addr := 0, len := 128, peer := false, held, use := .descriptor 0 0 }], quarantine := [7] } }

theorem witness_TagsMsixDoe : live.pcie.tags = [] ∧ live.pcie.waiting = [] ∧ (tagged false).pcie.tags ≠ [] ∧
    (tagged false).pcie.quarantine.contains 7 = true ∧ (tagged false).pcie.waiting = [] ∧
    ((tagged false).pcie.tags.find? (·.tag == 255)).isSome = true ∧ (tagged false).pcie.tags.find? (·.tag == 254) = none ∧
    ((tagged true).pcie.tags.find? (·.tag == 255)).map (·.held) = some true ∧ live.flag .cfgCtoDisable = false ∧
    (live.set .cfgCtoDisable 1).flag .cfgCtoDisable = true ∧ live.hostReady 0 = true ∧ bitAt (live.get .msixPba 0 3) 31 = false ∧
    (let s := ((live.set .msixMask 1 0 127).set .msixPba (2 ^ 31) 0 3).set .cfgMsixEn 1
     s.hostReady 0 = true ∧ bitAt (s.get .msixPba 0 3) 31 = true ∧ s.flag .cfgMsixEn = true ∧
     s.flag .cfgMsixFuncMask = false) ∧
    (held live).cfgOpen = true ∧ (held live).flag .cfgDoeBusy = false ∧ spdmCodes.contains 0x84 = true ∧
    spdmCodes.contains 0xFD = false ∧ (cycle 2).trust.uds.isSome = true ∧ (cycle 2).trust.signer = [] ∧
    (held live).trust.requests = [] ∧ [(0 : Byte)].length < 2 := by decide +kernel

/-- Line 0 of basin 0, a basin of PF0 with 64 KiB of PC 0 at the start of BAR2, in the Lake. -/
def bar2 : State := put (withLine live (line0 true false)) [(.drcBasinCfgEn, 1, 0), (.drcBasinLocExt, 1, 0),
  (.drcBasinPcmaskLoMask, 1, 0), (.drcBasinCfgGrain, 8, 0)]

/-- Stream 3 Secure, its requester IDs 0x100 to 0x1FF. -/
def bar2Bound : State :=
  let s := put bar2 [(.cfgIdeRidValid, 0, 0)]
  { ((s.set .cfgIdeRidValid 1 0 3).set .cfgIdeRidBase 0x100 0 3).set .cfgIdeRidLimit 0x1FF 0 3 with
    trust := { s.trust with streams := [(3, { active := some 1, secure := true })] } }

/-- The read of `bar2` at its port. -/
def bar2Head : PortReq :=
  let x := bar2.locate 0 (56 - bar2.basinBase 0)
  { port := 54, group := 0, rt := true, units := 1, pc := x.1, a := x.2, op := .reply 0 8 }

def bar2Waits : State := { bar2.set .lakeStatusQuadOn 15 with
  weirs := { bar2.weirs with queue := [bar2Head] }, pcie := { bar2.pcie with replies := [{ read := 0, func := 0 }] } }

theorem witness_Bar2Requests_release : bar2Waits.portHead 54 = some bar2Head ∧ bar2Waits.quadReady bar2Head.pc = true ∧
    bar2Waits.linkHeld = false := by decide +kernel

theorem witness_Bar2Requests : bar2.barOpen 0 = true ∧ 0 < 8 ∧ (zeros 8).length = 8 ∧ 56 % 64 + 8 ≤ 64 ∧
    bar2.bar2Inside 0 56 8 = true ∧ (bar2.set .bootStatusState 0).ready = false ∧
    (bar2.set .bootStatusState 0).barOpen 0 = true ∧ (bar2.set .thmStatusTstate 3).shutdown = true ∧
    (bar2.set .thmStatusTstate 3).ready = true ∧ bar2.working = true ∧ bar2.bar2Basin 0 56 = some 0 ∧
    bar2.bar2Basin 0 65535 = some 0 ∧ bar2.bar2Basin 0 65536 = none ∧
    (let p := (bar2.locate 0 (56 - bar2.basinBase 0)).1
     let a := (bar2.locate 0 (56 - bar2.basinBase 0)).2
     bar2.lakeFind p a = some (line0 true false) ∧ ((line0 true false).sector (lakeSector a)).valid = true ∧
     bar2.pcGone p = false) ∧ 8 ≤ bar2.get .drcBasinCfgGrain 0 ∧ bar2.packs = [] ∧ bar2.inFlight = [] ∧
    bar2Bound.barOpen 0 = true ∧ (bar2Bound.stream 3).secure = true ∧ bar2Bound.flag .cfgIdeRidValid 0 3 = true ∧
    bar2Bound.get .cfgIdeRidBase 0 3 ≤ 0x1FF ∧ 0x1FF ≤ bar2Bound.get .cfgIdeRidLimit 0 3 := by decide +kernel


/-! ### WellFormed smoke: for each check a term that fails it, refused by its meaning -/

theorem smoke_host : [Instr.registerWrite .bar0 64 0 [1] ⟨.good, 0⟩, .rcRead 64 0 ⟨.bar0, 4, 0, 0, .good⟩,
    .doorbellSqTail 64 0 0, .doorbellCqHead 64 0 0, .flr 64,
    .msixUnmask 64 0, .msixUnmask 0 128, .msixUnmask 1 8, .atomicop 64 0, .atomicop 0 6, .busMasterEnable 64 true,
    .memorySpaceEnable 64 true, .marginCommand 16 0].all refuses = true := by decide +kernel

theorem smoke_domains : [Instr.forwardedClockFail 32, .lakeQuadWakeDone 4, .pondDomainOff 6, .offReq 64 true,
    .domainWakeDone 64].all refuses = true := by decide +kernel

theorem smoke_descriptors : [Instr.descriptorFetch 256, .descriptorFetchFail 256 .timeout,
    .descriptorTypeUndefined 0 (desc 1 []), .descriptorTypeUndefined 256 (desc 12 []), .copy 0 (desc 2 []) [],
    .copy 256 (desc 1 []) [], .copy 0 [1] [], .hash 0 (desc 1 []) [], .encode 0 (desc 1 []) [], .decode 0 (desc 1 []) [],
    .repair 0 (desc 1 []) [], .verify 0 (desc 1 []) [], .plan 0 (desc 1 []) [], .seal 0 (desc 1 []) [],
    .query 0 (desc 1 []) [], .fence 0 (desc 1 []) [], .scrub 0 (desc 1 []) []].all refuses = true := by decide +kernel

theorem smoke_jobs : [Instr.sealStart 256 0, .sealStart 0 65536, .fencePass 256 0, .fencePass 0 65536, .taskPush 6,
    .taskPop 48 true, .stealVisit 6 true, .taskResult 48 false ⟨0, 0, 0, 0, 0⟩ 0 [], .taskResult 0 false ⟨256, 0, 0, 0, 0⟩ 0 [],
    .taskResult 0 false ⟨0, 65536, 0, 0, 0⟩ 0 [], .unitDurable 256 0 0 none, .unitDurable 0 65536 0 none,
    .receiptEntryAdd 256 0 true, .receiptEntryAdd 0 65536 true, .jobComplete 256 0, .jobComplete 0 65536,
    .coalTimerExpire 256, .cancel 64 0 0, .cancel 0 256 0, .ringEn 64 0 true, .ringEn 0 256 true, .reset 64 0, .reset 0 256,
    .dropInt 64 0, .dropInt 0 256].all refuses = true := by decide +kernel

theorem smoke_engines : [Instr.taskDeadline 48 false, .engineInternalError 48 .checkLane, .fenceRequeue 48,
    .engineSelftestStart 48, .engineSelftestDone 48 true, .offlineReq 48 true, .selftest 48].all refuses = true := by
  decide +kernel

theorem smoke_sealing : [Instr.sealEpochLoWrite 64 0, .epochCommit 64 0, .logHeadWrite ⟨64, true⟩ 0, .sealEpochLoRead 64,
    .logEnEffect ⟨64, true⟩, .signatureDone (.batch 64) true, .keyUnloadComplete 64 0, .keyUnloadComplete 0 8].all refuses = true := by
  decide +kernel

def otpEnv : OtpEnv := { auxOk := true, failBit := none, margins := [] }

theorem smoke_mailbox : (let i := zeros 65536
    [Instr.getNonce i, .getWrapKey i, .keyLoad i, .keyUnload i, .bistRun i, .lcAdvance i otpEnv, .ownerChange i otpEnv,
    .arbAdvance i otpEnv, .udsGenerate i otpEnv, .otpProgram i otpEnv, .otpLock i otpEnv, .mboxUnknownCmd 3 i,
    .mboxUnknownCmd 256 []].all refuses) = true := by decide +kernel

theorem smoke_trust : refuses (.tarnCollision 524288 none none) = true := by decide +kernel

theorem smoke_memory : [Instr.tagQuarantineEnd 16384, .cplTimeout 16384, .completionReceived 16384 (.failed .timeout) .good,
    .basinEnWrite 64 true, .basinEnableEffect 64, .basinFillDone 64, .controllerArbitrate 64 0, .controllerArbitrate 0 32,
    .refreshDue 64 0, .refreshDue 0 32, .trefwEnd 64, .srIdleExpire 32, .srEntryDone 32, .srResidencyEnd 32, .srExitDone 32,
    .bar2Read 64 0 4 ⟨0, .good⟩, .bar2Write 64 0 [1] false .good].all refuses = true := by decide +kernel

theorem smoke_lake : [Instr.lakeRequest 59 0 0 0 .read, .lakeRequest 0 65 0 0 .read, .lakeRequest 58 65 0 0 (.write [1] false), .lakeRequest 0 0 64 0 .read,
    .lakeRequest 0 0 0 1610612736 .read, .lakeRequest 0 0 0 0 (.write [] false), .lakeRequest 0 0 0 63 (.write [1, 2] false),
    .durableWriteAck 64 0, .durableWriteAck 0 1610612736].all refuses = true := by decide +kernel

theorem smoke_integrity : (let z := zeros 72
    [Instr.lineDecode 64 0 0 z z, .lineDecode 0 64 0 z z, .lineDecode 0 0 1610612736 z z, .lineDecode 0 0 0 [] z,
    .lineDecode 0 0 0 z [], .laneShift 64, .laneShiftDone 64, .caParityError 32 0 0, .caParityError 0 24 0,
    .caParityError 0 0 49152, .dredgeLine [] z, .dredgeLine z []].all refuses) = true := by decide +kernel

theorem smoke_eddies : [Instr.eddyEnable 48 0 0 64 true, .eddyEnable 0 4 0 64 true, .clear 48 0, .clear 0 4, .eddyAccess 48 0 0 1 none true, .eddyAccess 0 4 0 1 none true,
    .consume 48 0 1, .consume 0 4 1, .commit 48 0 1, .commit 0 4 1].all refuses = true := by decide +kernel

theorem smoke_weirs : [Instr.evtPop0Read 8, .weirRelease 59, .latencySample 65 0, .agePromote 64 0].all refuses = true := by
  decide +kernel

theorem smoke_heat : [Instr.sensorSample 18 [], .sensorSample 0 [{ sensor := 104, value := none }], .modelUpdate 100 [],
    .calRunStart 0 0, .calRunStart 8 0, .calRunStart 1 256, .calRunEnd 0 0 0, .calRunEnd 8 0 0, .calRunEnd 1 256 0,
    .calRunEnd 1 0 65536].all refuses = true := by decide +kernel

theorem smoke_start : [Instr.faultReport [report 320 0], .flashRead 16777216 1, .flashRead 0 65536,
    .dynamicAddressAssign 128, .coldStart { env with govs := [] }, .warmStart { env with govs := [] },
    .linkDown { env with govs := [] }].all refuses = true := by decide +kernel

theorem smoke_counters_plan : [Instr.pmcClear 64 0 0, .pmcClear 0 64 0, .pmcClear 1 8 0, .pmcCntLoRead 64 0 0,
    .pmcCntLoRead 0 64 0, .pmcCntLoRead 1 8 0, .clearAll [(64, 1)], .planResultRead 64 0 128 4 0,
    .planResultRead 0 128 128 4 0, .planResultRead 1 8 128 4 0, .planResultRead 0 0 4096 4 0, .planLatch 64 0 0,
    .planLatch 0 128 0, .planLatch 1 8 0, .planLaneTimeout 64 0 0, .planLaneTimeout 0 128 0, .planSlotWrite 64 0 0 [1] false,
    .planSlotWrite 0 128 0 [1] false, .planSlotWrite 0 0 4096 [1] false].all refuses = true := by decide +kernel

/-! ### Worked examples of the spec -/

/-- R2, R5: WEIR and EVT registers at their offsets: a write of 9 at 0x16_1000 enables event ring routing (17_counters_registers.md). -/
theorem test_register_write : leaves (.registerWrite .bar0 0 0x161000 [9, 0, 0, 0] ⟨.good, 0⟩) live (fun t => t.get .evtRouteEn 0 == 1) =
    true := by decide +kernel

/-- A read of it answers the four bytes (00_scope.md). -/
theorem test_register_read : leaves (.rcRead 0 0x161000 ⟨.bar0, 4, 0, 0, .good⟩) (live.set .evtRouteEn 1)
    (fun t => t.out == [.data 0 [1, 0, 0, 0]]) = true := by decide +kernel

/-- The table of powers of 02_ripple_code.md. -/
theorem test_powers : [gfExp 0, gfExp 8, gfExp 13, gfExp 25, gfExp 38, gfExp 50] = [0x01, 0x1D, 0x87, 0x03, 0x94, 0x05] := by
  decide +kernel

def p0 : Profile := { num := 0, k := 12, r := 6, g := 2, ofs := 1 }

/-- Parity rows of profile 12.6.2 (02_ripple_code.md, worked example). -/
theorem test_parity_rows : p0.rowOver (List.range 12) 12 = [1, 1, 1, 1, 1, 1, 0, 0, 0, 0, 0, 0] ∧
    p0.rowOver (List.range 12) 14 = [0x02, 0x04, 0x08, 0x10, 0x20, 0x40, 0x80, 0x1D, 0x3A, 0x74, 0xE8, 0xCD] ∧
    p0.rowOver (List.range 12) 15 = [0x04, 0x10, 0x40, 0x1D, 0x74, 0xCD, 0x13, 0x4C, 0x2D, 0xB4, 0xEA, 0x8F] := by
  decide +kernel

def dataByte0 : List Nat := [0x4C, 0x03, 0x87, 0x20, 0xB4, 0x06, 0x1D, 0xE8, 0x5A, 0x01, 0xC9, 0x26]

/-- Its local parities at byte 0. -/
theorem test_local_parities :
    (p0.shardOf 1 (fun i => leBytes 1 (dataByte0.getD i 0)) 12, p0.shardOf 1 (fun i => leBytes 1 (dataByte0.getD i 0)) 13) =
      ([0x5A], [0x41]) := by decide +kernel

/-- The object of 1,000,000 bytes with profile 12.6.2 and S = 65,536 has two stripes (02_ripple_code.md). -/
theorem test_stripes : p0.stripes 1000000 65536 = 2 := by decide +kernel

/-- RIP_PROF_6 and RIP_PROF_7 (02_ripple_code.md). -/
theorem test_profile_words : Profile.word { num := 6, k := 32, r := 8, g := 2, ofs := 3 } = 0x180C4820 ∧
    Profile.word { num := 7, k := 200, r := 16, g := 16, ofs := 40 } = 0x1CA210C8 ∧
    Profile.n { num := 6, k := 32, r := 8, g := 2, ofs := 3 } = 38 := by decide +kernel

/-- The worked repair of shard 3 (03_ripple_decode.md). -/
theorem test_repair_3 : let pl := p0.planMaps 0xFFF7 0
    pl.result 1 = 0x01000603 ∧ pl.info p0 = 0x000C0000 ∧ pl.reads = [0, 1, 2, 4, 5, 12] ∧
    pl.sched p0 = [0x0C, 0x46, 0x04, 0x00, 0x0C, 0x00, 0x01, 0x01, 0x01, 0x03, 0x00, 0x00] := by decide +kernel

/-- The worked repair of shards 1, 4 and 13 (03_ripple_decode.md). -/
theorem test_repair_1_4_13 : let pl := p0.planMaps 0xDFED 0
    pl.result 2 = 0x02000C03 ∧ pl.info p0 = 0x001C0202 ∧ pl.reads.foldl (fun m c => m + 2 ^ c) 0 = 0x5FED ∧
    pl.sched p0 = [0x0C, 0x46, 0x04, 0x00, 0x1C, 0x00, 0x02, 0x01, 0x02, 0x02, 0x02, 0x02, 0x01, 0x04, 0x0C, 0x0E, 0x01, 0x04,
      0x9C, 0x60, 0x9D, 0x60, 0x00, 0x00, 0x01, 0x0D, 0x01, 0x00] := by decide +kernel

/-- The completion of the PARTIAL repair (04_jobs.md). -/
theorem test_completion_bytes : completionBytes 0xC0DE0017 12 15 17 2 0x10 0xFFFFFFFF 0xFF 1 5 0 1 =
    [0x17, 0, 0xDE, 0xC0, 0, 0, 0, 0, 0x0C, 0, 0, 0, 0x0F, 0, 0, 0, 0x11, 0, 2, 0x10, 0xFF, 0xFF, 0xFF, 0xFF, 0xFF, 1, 5, 0,
     0, 0, 0, 1] := by decide +kernel

/-- Trailer bytes 0 to 43 of shard 14 of object A (06_sealing.md). -/
theorem test_trailer_header : (trailerHeader true 0x0004460C
      [0, 0x11, 0x22, 0x33, 0x44, 0x55, 0x66, 0x77, 0x88, 0x99, 0xAA, 0xBB, 0xCC, 0xDD, 0xEE, 0xFF] 0 14 4096 7 1150
      0x5A3C0001).take 44 =
    [0x42, 0x58, 1, 1, 0x0C, 0x46, 4, 0, 0, 0x11, 0x22, 0x33, 0x44, 0x55, 0x66, 0x77, 0x88, 0x99, 0xAA, 0xBB, 0xCC, 0xDD, 0xEE,
     0xFF, 0, 0, 0, 0, 0x0E, 0, 7, 0, 0x7E, 4, 0, 0, 0, 0, 0, 0, 1, 0, 0x3C, 0x5A] := by decide +kernel

/-- Its IV (06_sealing.md). -/
theorem test_shard_iv : shardIv 0 14 = [0, 0, 0, 0, 0x0E, 0, 0, 0, 0, 0, 0, 0] := by decide +kernel

/-- The private key of RFC 6979 A.2.6 less 1, as a seed. -/
def seed6979 : List Byte := beBytes 48
  0x6B9D3DAD2E1B8C1C05B19875B6659F4DE23C3B667BF297BA9AA47740787137D896D5724E4C70A825F872C9EA60D2EDF4

/-- Its signature of "sample" with SHA-384. -/
def sig6979 : List Byte :=
  beBytes 48 0x94EDBB92A5ECB8AAD4736E56C691916B3F88140666CE9FA73D64C4EA95AD133C81A648152E44ACF96E36DD1E80FABE46 ++
  beBytes 48 0x99EF4AEB15F178CEA1FE40DB2603138F130E740A19624526203B6351D0A3A94FA329C145786E679E7B82C71A38628AC8

/-- Its public key. -/
def key6979 : List Byte := 0x04 ::
  (beBytes 48 0xEC3A4E415B4E19A4568618029F427FA5DA9A8BC4AE92E02E06AAE5286B300C64DEF8F0EA9055866064A254515480BC13 ++
   beBytes 48 0x8015D9B72D7D57244EA8EF9AC0C621896708A59367F9DFB9F54CA84B3F1C9DB1288B231C3AE0D4FE7344FD2533264720)

theorem test_public_key : publicKey97 seed6979 = key6979 := by decide +kernel

theorem test_signature : signature seed6979 (asciiBytes "sample") (beBytes 48
    0x94ED910D1A099DAD3254E9242AE85ABDE4BA15168EAF0CA87A555FD56D10FBCA2907E3E83BA95368623B8C4686915CF8) = sig6979 := by
  decide +kernel

theorem test_verifies : verifies key6979 (asciiBytes "sample") sig6979 = true ∧
    verifies key6979 (asciiBytes "test") sig6979 = false := by decide +kernel

/-- The key is found by its hash alone. -/
theorem test_verifies_hash : verifiesHash (sha384 key6979) (asciiBytes "sample") sig6979 = true := by decide +kernel

/-- CRC-32C's published check value (of the nine digits "123456789"). -/
theorem test_crc32c : crc32c [0x31, 0x32, 0x33, 0x34, 0x35, 0x36, 0x37, 0x38, 0x39] = 0xE3069283 := by decide +kernel

/-- The board with reversed, inverted lanes (08_pcie.md): the status bits the link brings. -/
theorem test_link_up : leaves (.linkUp { env.train with reversed := true, inverted := 0x1008, precodeTx := 0xFFFF }) untrained
    (fun t => t.get .pcxLinkStatusRate == 6 && t.get .pcxLinkStatusWidth == 16 && t.flag .pcxLinkStatusReversed
      && t.get .pcxLinkStatusLtssm == 3) = true := by decide +kernel

/-- The same board with physical lane 9 failed: x4 (08_pcie.md). -/
theorem test_link_lane_fail : leaves (.linkUp { env.train with reversed := true, working := 0xFDFF }) untrained
    (fun t => t.get .pcxLinkStatusWidth == 4 && t.flag .pcxStatusWidthDegraded) = true := by decide +kernel

/-- PF0's basin 2 (09_stack_memory.md). -/
def basin2 : State := put live [(.drcBasinPcmaskLoMask, 0xFFFF0000, 2), (.drcBasinPcmaskHiMask, 0x0000FFFF, 2),
  (.drcBasinCfgGrain, 12, 2), (.drcBasinLocLbase, 0x100, 2), (.drcBasinLocExt, 2048, 2), (.drcBasinBaseBase, 0x40000, 2)]

theorem test_translate : basin2.locate 2 (0x412345678 - basin2.basinBase 2) = (19, 0x0191A678) ∧
    (colOf 0x0191A678, rowOf 0x0191A678, bgOf 0x0191A678, bankOf 0x0191A678) = (9, 803, 2, 2) := by decide +kernel

/-- Window W1 (10_onchip.md): its fill, and CONSUME 0x200. -/
def w1 : Eddy := { base := 0x10000, len := 0x3000, head := 0x2F00, tail := 0x1200, twrap := true, en := true }

theorem test_window_fill : w1.fill = 0x1300 ∧ leaves (.consume 0 1 0x200) (live.setEddy 0 1 w1)
    (fun t => (t.eddy 0 1).fill == 0x1100 && (t.eddy 0 1).head == 0x100 && (t.eddy 0 1).hwrap) = true := by decide +kernel

/-- Overcommit at load, then heat (11_weirs.md): PC62 and PC63 retired, the admitted floors, sixteen PCs at 1.95 µs, the clamp
at 0.75. -/
def weirsLoaded : State :=
  let s := put live [(.drcPcStateState, 4, 62), (.drcPcStateState, 4, 63), (.weirScaleScale, 1024, 0),
    (.weirGrpCfgAdmitted, 1, 64), (.weirGrpCfgAdmitted, 1, 0), (.weirGrpCfgAdmitted, 1, 1), (.weirGrpCfgAdmitted, 1, 2),
    (.weirGrpCfgAdmitted, 1, 4), (.weirGrpRateGRate, 8000, 64), (.weirGrpRateGRate, 200000, 0), (.weirGrpRateGRate, 100000, 1),
    (.weirGrpRateGRate, 100000, 2), (.weirGrpRateGRate, 12500, 4)]
  put s ((List.range 16).map (fun p => (FN.drcPcStateRef2x, 1, p)))

theorem test_weirs_example : weirsLoaded.dNom = 449500 ∧ weirsLoaded.gSum = 420500 ∧ weirsLoaded.dNow 16 = 445500 ∧
    weirsLoaded.dNow 12 = 334125 := by decide +kernel

theorem test_weirs_scale : let t := (weirsLoaded.set .weirDnowD 334125).weirScale
    t.get .weirScaleScale = 813 ∧ t.get .weirGrpEffGEff 64 = 6351 ∧ t.get .weirGrpEffGEff 0 = 158789 ∧
    t.get .weirGrpEffGEff 1 = 79394 ∧ t.get .weirGrpEffGEff 4 = 9924 ∧ t.flag .weirStatusGuarScaled = true := by
  decide +kernel

/-- The check bytes of the line whose byte 63 is 1, and of its poisoned form (12_integrity.md, R275, R276). -/
theorem test_line_code : rsChecks (zeros 63 ++ [1]) = [0xFF, 0x0B, 0x51, 0x36, 0xEF, 0xAD, 0xC8, 0x18] ∧
    (rsPoisoned (zeros 63 ++ [1])).drop 64 = [0xFE, 0x74, 0x2B, 0xAC, 0x4B, 0xA6, 0x8C, 0x6D] := by decide +kernel

/-- PC19 with T10 and T40 bad (12_integrity.md). -/
theorem test_lanes : tsvOfLane 76 [10, 40] 9 = 9 ∧ tsvOfLane 76 [10, 40] 10 = 11 ∧ tsvOfLane 76 [10, 40] 38 = 39 ∧
    tsvOfLane 76 [10, 40] 39 = 41 ∧ tsvOfLane 76 [10, 40] 71 = 73 := by decide +kernel

/-- The hot middle die (13_thermal_power.md): a SUSPECT layer is governed by its model's 86.5 °C, its RATE 0. -/
theorem test_hot_die : (let t := (put live [(.thmLayerTModel, 692, 9), (.thmLayerTMeas, 636, 9), (.thmLayerGSuspect, 1, 9)]).showGov 9
    t.get .thmLayerGGov 9 = 692 ∧ t.get .thmLayerGRate 9 = 0) := by decide +kernel

/-- LOC of the INTEG_UE (14_faults.md), and the record's first five words. -/
theorem test_fault_record : locOfLine 19 0x0191A678 = 0xC8191A93 ∧
    (let r : FaultIn :=
       { cls := .u, source := evIntegUe, cause := causeMemoryUe, func := 0, arg := 19, loc := 0xC8191A93, detail := 1 }
     recordWords 42 r 0).map (fun x => x.2) =
      [0x0702002A, 0x00000116, 0x13, 0xC8191A93, 1, 0, 0] := by decide +kernel

/-- BOOT_STATUS of the image that fails its content check (15_start.md): 0x012E_0B72. -/
theorem test_boot_status : (put live [(.bootStatusState, 2, 0), (.bootStatusStep, 7, 0), (.bootStatusReason, 0x0B, 0),
      (.bootStatusSlot, 0, 0), (.bootStatusWarm, 1, 0), (.bootStatusStackKept, 1, 0), (.bootStatusTarnKept, 1, 0),
      (.bootStatusStackValid, 1, 0), (.bootStatusAttempts, 1, 0)] |> fun s =>
      leaves (.rcRead 0 0x10000 ⟨.bar0, 4, 0, 0, .good⟩) s (fun t => t.out == [.data 0 [0x72, 0x0B, 0x2E, 0x01]])) = true := by decide +kernel

/-- The repair entry of the marginal bit's example (16_fuses_selftest.md). -/
theorem test_repair_entry : repType 0x94C00123 = 1 ∧ repInst 0x94C00123 = 19 ∧ repSpare 0x94C00123 = 0 ∧
    repSpare 0x94C20123 = 2 ∧ leBytes 4 0x94C00123 = [0x23, 0x01, 0xC0, 0x94] := by decide +kernel

/-- The events of VF 3's group (17_counters_registers.md). -/
theorem test_event_numbers : 0x10000 + pmcEvent 0x0D 5 3 = 0x00013683 ∧ 0x10000 + pmcEvent 0x0D 6 3 = 0x00013703 ∧
    0x10000 + pmcEvent 0x0D 2 3 = 0x00013503 := by decide +kernel

end Sys2Proof.Tests
end

section
/-! SUPPORT. Class-B fields (R7, R8): what a register field reads after a write, what a class-B write and its boundary do to
the value in effect, and what BOUNDARY_APPLY does at a register. -/

namespace Sys2Proof.Machine

/-! ### A register field after a write to it -/

theorem RegMap.get_set_self (m : RegMap) {f : FN} {i j : Nat} (v : Nat) (h : f.inst i j = true) :
    RegMap.get (RegMap.set m f i j v) f i j = v % 2 ^ f.width := by
  unfold RegMap.set RegMap.get
  dsimp only
  rw [h, Bool.not_true, if_neg Bool.false_ne_true]
  split
  · next hcold => rw [sparseGet_del_self, Option.getD_none, ← hcold, Nat.mod_mod]
  · rw [sparseGet_put_self, Option.getD_some, Nat.mod_mod]

@[simp] theorem State.set_get_self (s : State) {f : FN} {i j : Nat} (v : Nat) (h : f.inst i j = true) :
    (s.set f v i j).get f i j = v % 2 ^ f.width := RegMap.get_set_self s.regs v h

@[simp] theorem State.get_mod_width (s : State) (f : FN) (i j : Nat) : s.get f i j % 2 ^ f.width = s.get f i j :=
  Nat.mod_mod _ _

/-! ### The value in effect of a class-B field -/

@[simp] theorem State.eff_mod_width (s : State) (f : FN) (i j : Nat) : s.eff f i j % 2 ^ f.width = s.eff f i j :=
  Nat.mod_mod _ _

/-- R8: a class-B write reads back at once. -/
theorem State.setB_get_self (s : State) {f : FN} {i j : Nat} (v : Nat) (h : f.inst i j = true) :
    (s.setB f v i j).get f i j = v % 2 ^ f.width := s.set_get_self v h

/-- R7: a class-B write leaves the value in effect until the boundary. -/
theorem State.setB_eff_self (s : State) {f : FN} {i j : Nat} (v : Nat) (h : f.inst i j = true) :
    (s.setB f v i j).eff f i j = s.eff f i j := by
  have hin : (s.setB f v i j).inForce = sparsePut s.inForce (f.key i j) (s.eff f i j) := if_pos h
  rw [State.eff, hin, sparseGet_put_self, Option.getD_some, State.eff_mod_width]

/-- R7: at its boundary the value last written takes effect. -/
theorem State.applyB_eff_self (s : State) (f : FN) (i j : Nat) : (s.applyB f i j).eff f i j = s.get f i j := by
  have hin : (s.applyB f i j).inForce = sparseDel s.inForce (f.key i j) := rfl
  rw [State.eff, hin, sparseGet_del_self, Option.getD_none, State.applyB_get, State.get_mod_width]

/-! ### BOUNDARY_APPLY -/

/-- The boundary of a register at which one class-B field stands is that field's. -/
theorem exec_boundaryApply_of_single {off : Nat} {f : FN} {i j : Nat} (s : State)
    (h : (fieldsAt off).filter (fun x => x.1.row.acc = .rwB) = [(f, i, j)]) :
    exec (.boundaryApply off) s = .next (s.boundaryField f i j) := by
  change execBoundaryApply off s = _
  rw [execBoundaryApply, h, whenWf_next]
  exact ⟨rfl, rfl⟩

/-- The class-B field of the register at 0x172000 is WINDOW_US. -/
theorem classBFieldsAt_bwCfg :
    (fieldsAt 0x172000).filter (fun x => x.1.row.acc = .rwB) = [(.pmcBwCfgWindowUs, 0, 0)] := by decide +kernel

/-- The class-B field of the register at 0x82000 is JOB_TASK_CAP. -/
theorem classBFieldsAt_engCfg :
    (fieldsAt 0x82000).filter (fun x => x.1.row.acc = .rwB) = [(.engCfgJobTaskCap, 0, 0)] := by decide +kernel

/-- Settles O8: a write keeps the old value in force under the field's key, and the boundary takes that entry out; each of
the two registers holds one class-B field, and WINDOW_US ignores the boundary. -/
theorem classBFields : Obligations.ClassBFields := by
  unfold Obligations.ClassBFields
  refine ⟨fun s f v w i j h => ⟨s.setB_get_self v h, s.setB_eff_self v h, ?_, ?_⟩, fun s => ⟨?_, ?_, ?_⟩⟩
  · rw [State.setB_eff_self _ w h, s.setB_eff_self v h]
  · rw [State.applyB_eff_self, State.setB_get_self _ w h]
  · exact exec_boundaryApply_of_single s classBFieldsAt_bwCfg
  · exact exec_boundaryApply_of_single s classBFieldsAt_engCfg
  · exact s.applyB_eff_self .engCfgJobTaskCap 0 0

end Sys2Proof.Machine
end

section
/-! SUPPORT. The fuse array (R353): its bytes after a bit is blown, one copy and both copies of a logical bit. -/

namespace Sys2Proof.Machine

/-! ### Bits of a byte, and a cell read after a write -/

theorem bitAt_toNat (b : Byte) (n : Nat) : bitAt b.toNat n = b.getLsbD n := by
  simp [bitAt, BitVec.getLsbD, Nat.testBit_eq_decide_div_mod_eq, Nat.shiftRight_eq_div_pow, Bool.beq_eq_decide_eq]

theorem Mem.read_filter_ne_self (d : Byte) (m : List Host.Cell) (a : Nat) :
    Mem.read d (m.filter (fun c => c.1 != a)) a = d := by
  induction m with
  | nil => rfl
  | cons c rest ih =>
    by_cases h : c.1 = a
    · simpa [h] using ih
    · simpa [h, Mem.read] using ih

theorem Mem.read_filter_ne_other (d : Byte) (m : List Host.Cell) {a k : Nat} (h : k ≠ a) :
    Mem.read d (m.filter (fun c => c.1 != a)) k = Mem.read d m k := by
  induction m with
  | nil => rfl
  | cons c rest ih =>
    by_cases hc : c.1 = a
    · simpa [hc, Mem.read, Ne.symm h] using ih
    · simp [hc, Mem.read, ih]

/-- A cell list after a write reads the byte written there, and every other byte as before. -/
theorem Mem.read_write (d : Byte) (m : List Host.Cell) (a k : Nat) (b : Byte) :
    Mem.read d (Mem.write d m a b) k = if k = a then b else Mem.read d m k := by
  unfold Mem.write
  split <;> split
  · next hb hk => rw [hk, Mem.read_filter_ne_self, hb]
  · next hb hk => exact Mem.read_filter_ne_other d m hk
  · next hb hk => rw [hk, Mem.read_put_self]
  · next hb hk => exact Mem.read_put_other d m b hk

/-! ### The fuse array (R353): one bit, one copy, both copies -/

/-- Is physical bit `m` of the fuse array blown? -/
def State.fuseBit (s : State) (m : Nat) : Bool := bitAt (s.cellByte (m / 8)).toNat (m % 8)

theorem State.cellByte_blowCell (s : State) (n k : Nat) :
    (s.blowCell n).cellByte k = if k = n / 8 then s.cellByte k ||| BitVec.ofNat 8 (2 ^ (n % 8)) else s.cellByte k := by
  unfold State.cellByte State.blowCell
  rw [Mem.read_write]
  split
  · next h => rw [h]; rfl
  · rfl

theorem State.fuseBit_blowCell (s : State) (n k : Nat) :
    (s.blowCell n).fuseBit k = (decide (k = n) || s.fuseBit k) := by
  have hk : k % 8 < 8 := Nat.mod_lt _ (by decide)
  unfold State.fuseBit
  rw [State.cellByte_blowCell, bitAt_toNat, bitAt_toNat]
  split
  · next h =>
    have hn : (k = n) ↔ (n % 8 = k % 8) := by omega
    simp only [BitVec.getLsbD_or, BitVec.getLsbD_ofNat, Nat.testBit_two_pow, hk, hn, decide_true, Bool.true_and,
      Bool.or_comm]
  · next h => rw [decide_eq_false (fun e : k = n => h (by rw [e])), Bool.false_or]

theorem State.fuseBit_blow (s : State) (n k : Nat) :
    (s.blow n).fuseBit k = (decide (k = 32768 + n) || (decide (k = n) || s.fuseBit k)) := by
  rw [State.blow, State.fuseBit_blowCell, State.fuseBit_blowCell]; rfl

theorem State.arrayBit_eq (s : State) (n : Nat) : s.arrayBit n = (s.fuseBit n || s.fuseBit (32768 + n)) := by
  have hbyte : (32768 + n) / 8 = bankB + n / 8 := by unfold bankB; omega
  have hbit : (32768 + n) % 8 = n % 8 := by omega
  unfold State.arrayBit State.arrayByte State.fuseBit
  rw [bitAt_toNat, bitAt_toNat, bitAt_toNat, BitVec.getLsbD_or, hbyte, hbit]

theorem State.fusesKept_blowCell (s : State) (n : Nat) : s.fusesKept (s.blowCell n) := by
  intro a b h
  change bitAt ((s.blowCell n).cellByte a).toNat b = true
  change bitAt (s.cellByte a).toNat b = true at h
  rw [bitAt_toNat] at h ⊢
  rw [State.cellByte_blowCell]
  split
  · rw [BitVec.getLsbD_or, h, Bool.true_or]
  · exact h

end Sys2Proof.Machine
end

section
/-! SUPPORT. What leaves a part of the state alone, and how folds, branches and signalling pass on that the fuses stay. -/

namespace Sys2Proof.Machine

/-- `f` leaves the part `g` of its argument as it is. -/
def Keeps {β γ : Type} (g : β → γ) (f : β → β) : Prop := ∀ b, g (f b) = g b

@[simp] theorem keeps_iff {β γ : Type} (g : β → γ) (f : β → β) : Keeps g f ↔ ∀ b, g (f b) = g b := Iff.rfl

@[simp] theorem foldl_fuses {α : Type} (f : State → α → State) (h : ∀ x, Keeps State.fuses (f · x)) (l : List α)
    (s : State) : (l.foldl f s).fuses = s.fuses := foldl_same State.fuses f (fun s x => h x s) l s

@[simp] theorem foldl_fst_fuses {α β : Type} (f : State × β → α → State × β) (h : ∀ x, Keeps (·.1.fuses) (f · x))
    (l : List α) (b : State × β) : (l.foldl f b).1.fuses = b.1.fuses :=
  foldl_same (·.1.fuses) f (fun b x => h x b) l b

@[simp] theorem foldl_io_fuses {α β : Type} (f : TaskIo × β → α → TaskIo × β) (h : ∀ x, Keeps (·.1.st.fuses) (f · x))
    (l : List α) (b : TaskIo × β) : (l.foldl f b).1.st.fuses = b.1.st.fuses :=
  foldl_same (·.1.st.fuses) f (fun b x => h x b) l b

@[simp] theorem foldl_walk_fuses {α β : Type} (f : Walk × β → α → Walk × β) (h : ∀ x, Keeps (·.1.st.fuses) (f · x))
    (l : List α) (b : Walk × β) : (l.foldl f b).1.st.fuses = b.1.st.fuses :=
  foldl_same (·.1.st.fuses) f (fun b x => h x b) l b

@[simp] theorem ite_fuses (c : Prop) [Decidable c] (s t : State) :
    (if c then s else t).fuses = if c then s.fuses else t.fuses := apply_ite State.fuses c s t

@[simp] theorem ite_fst_fuses {β : Type} (c : Prop) [Decidable c] (s t : State × β) :
    (if c then s else t).1.fuses = if c then s.1.fuses else t.1.fuses := apply_ite (·.1.fuses) c s t

@[simp] theorem ite_cells (c : Prop) [Decidable c] (f g : Fuses) :
    (if c then f else g).cells = if c then f.cells else g.cells := apply_ite Fuses.cells c f g

theorem fuses_of_signals {s t : State} (h : t = s.signals t) : t.fuses = s.fuses := by rw [h]; rfl

end Sys2Proof.Machine
end

section
/-! SUPPORT. Operations that leave the fuse array alone: registers, faults, the Lake, the memory controllers and reads.
One lemma for each operation, in the order of the definitions; a helper of one operation unfolds with it. `_fuses`: all of
the fuses stay; `_cells`: the blown bits do (a start decides anew which repairs are in force, R366). -/

namespace Sys2Proof.Machine

/-! ### Registers and what leaves the device (Machine/Ops.lean) -/

@[simp] theorem State.satInc_fuses (s : State) (f : FN) (i j n : Nat) : (s.satInc f i j n).fuses = s.fuses := by
  simp [State.satInc]

@[simp] theorem State.wrapInc_fuses (s : State) (f : FN) (i j n : Nat) : (s.wrapInc f i j n).fuses = s.fuses := by
  simp [State.wrapInc]

@[simp] theorem State.raiseMax_fuses (s : State) (f : FN) (v i j : Nat) : (s.raiseMax f v i j).fuses = s.fuses := by
  simp [State.raiseMax]

@[simp] theorem State.setAll_fuses (s : State) (f : FN) (n v : Nat) : (s.setAll f n v).fuses = s.fuses := by
  simp [State.setAll]

@[simp] theorem State.setMaskBit_fuses (s : State) (lo hi : FN) (b : Nat) (v : Bool) :
    (s.setMaskBit lo hi b v).fuses = s.fuses :=
  fuses_of_signals (s.signals_setMaskBit _ _ _ _)

@[simp] theorem State.set64_fuses (s : State) (lo hi : FN) (v i : Nat) : (s.set64 lo hi v i).fuses = s.fuses := by
  simp [State.set64]

@[simp] theorem State.tlp_fuses (s : State) (o : Out) : (s.tlp o).fuses = s.fuses :=
  fuses_of_signals (s.signals_tlp _)

@[simp] theorem State.pcxBoundary_fuses (s : State) : s.pcxBoundary.fuses = s.fuses := by simp [State.pcxBoundary]

@[simp] theorem State.recovery_fuses (s : State) : s.recovery.fuses = s.fuses := fuses_of_signals (s.signals_recovery)

@[simp] theorem State.issue_fuses (s : State) (func : Nat) (o : Out) : (s.issue func o).fuses = s.fuses :=
  fuses_of_signals (s.signals_issue _ _)

@[simp] theorem State.reply_fuses (s : State) (o : Out) : (s.reply o).fuses = s.fuses :=
  fuses_of_signals (s.signals_reply _)

@[simp] theorem State.hostWrite_fuses (s : State) (func addr : Nat) (bytes : List Byte) :
    (s.hostWrite func addr bytes).fuses = s.fuses := by
  simp [State.hostWrite]

@[simp] theorem State.sendMsix_fuses (s : State) (func vector : Nat) : (s.sendMsix func vector).fuses = s.fuses :=
  fuses_of_signals (s.signals_sendMsix _ _)

@[simp] theorem State.draw_fuses (s : State) (n : Nat) : (s.draw n).1.fuses = s.fuses := by simp [State.draw]

/-! ### Sensors (Machine/Sensors.lean) -/

@[simp] theorem State.showStale_fuses (s : State) (l : Nat) : (s.showStale l).fuses = s.fuses := by
  simp [State.showStale]

@[simp] theorem State.showHeld_fuses (s : State) (k : Nat) : (s.showHeld k).fuses = s.fuses := by
  simp [State.showHeld]

/-! ### Events, counters and the reporting of faults (Machine/Faults.lean) -/

@[simp] theorem State.appendEvent_fuses (s : State) (event func arg time : Nat) :
    (s.appendEvent event func arg time).fuses = s.fuses :=
  fuses_of_signals (s.signals_appendEvent _ _ _ _)

@[simp] theorem State.raise_fuses (s : State) (event func arg : Nat) : (s.raise event func arg).fuses = s.fuses :=
  fuses_of_signals (s.signals_raise _ _ _)

@[simp] theorem State.setCount48_fuses (s : State) (n v : Nat) : (s.setCount48 n v).fuses = s.fuses := by
  simp [State.setCount48]

@[simp] theorem State.setVfCount48_fuses (s : State) (v j c : Nat) : (s.setVfCount48 v j c).fuses = s.fuses := by
  simp [State.setVfCount48]

@[simp] theorem State.addCount_fuses (s : State) (n add : Nat) : (s.addCount n add).fuses = s.fuses :=
  fuses_of_signals (s.signals_addCount _ _)

@[simp] theorem State.addVfCount_fuses (s : State) (v j add : Nat) : (s.addVfCount v j add).fuses = s.fuses :=
  fuses_of_signals (s.signals_addVfCount _ _ _)

@[simp] theorem State.count_fuses (s : State) (block kind inst add : Nat) :
    (s.count block kind inst add).fuses = s.fuses :=
  fuses_of_signals (s.signals_count _ _ _ _)

@[simp] theorem State.activity_fuses (s : State) (layer c n : Nat) : (s.activity layer c n).fuses = s.fuses := by
  simp [State.activity]

@[simp] theorem State.orBit_fuses (s : State) (f : FN) (b i : Nat) : (s.orBit f b i).fuses = s.fuses :=
  fuses_of_signals (s.signals_orBit _ _ _)

@[simp] theorem State.aerCorrectable_fuses (s : State) (func bit : Nat) :
    (s.aerCorrectable func bit).fuses = s.fuses :=
  fuses_of_signals (s.signals_aerCorrectable _ _)

@[simp] theorem State.aerUncorrectable_fuses (s : State) (func bit : Nat) (fatal tlp : Bool) :
    (s.aerUncorrectable func bit fatal tlp).fuses = s.fuses :=
  fuses_of_signals (s.signals_aerUncorrectable _ _ _ _)

@[simp] theorem State.aerAdvisoryNonFatal_fuses (s : State) (func bit : Nat) :
    (s.aerAdvisoryNonFatal func bit).fuses = s.fuses :=
  fuses_of_signals (s.signals_aerAdvisoryNonFatal _ _)

@[simp] theorem State.respondUr_fuses (s : State) (func : Nat) (nonPosted : Bool) :
    (s.respondUr func nonPosted).fuses = s.fuses :=
  fuses_of_signals (s.signals_respondUr _ _)

@[simp] theorem State.respondCa_fuses (s : State) (func : Nat) (nonPosted : Bool) :
    (s.respondCa func nonPosted).fuses = s.fuses :=
  fuses_of_signals (s.signals_respondCa _ _)

@[simp] theorem State.setCollector_fuses (s : State) (st : Nat) : (s.setCollector st).fuses = s.fuses := by
  simp [State.setCollector]

@[simp] theorem State.record_fuses (s : State) (r : FaultIn) (time : Nat) : (s.record r time).1.fuses = s.fuses := by
  simp [State.record]

@[simp] theorem State.markRecord_fuses (s : State) (c : Contain) (bit : Nat) :
    (s.markRecord c bit).fuses = s.fuses := by
  unfold State.markRecord
  split <;> simp

@[simp] theorem State.showPending_fuses (s : State) : s.showPending.fuses = s.fuses := by simp [State.showPending]

@[simp] theorem State.announce_fuses (s : State) (r : FaultIn) : (s.announce r).fuses = s.fuses := by
  simp [State.announce]

@[simp] theorem State.reportF_fuses (s : State) (r : FaultIn) : (s.reportF r).fuses = s.fuses := by
  unfold State.reportF
  dsimp only
  (repeat' split) <;> simp

@[simp] theorem State.escalate_fuses (s : State) (c : Contain) : (s.escalate c).fuses = s.fuses := by
  simp [State.escalate]

@[simp] theorem State.reportU_fuses (s : State) (r : FaultIn) : (s.reportU r).fuses = s.fuses := by
  unfold State.reportU
  dsimp only
  split <;> simp

@[simp] theorem State.reportC_fuses (s : State) (r : FaultIn) : (s.reportC r).fuses = s.fuses := by
  simp [State.reportC]

@[simp] theorem State.report_fuses (s : State) (r : FaultIn) : (s.report r).fuses = s.fuses := by
  unfold State.report
  (repeat' split) <;> simp

@[simp] theorem State.reportInvalid_fuses (s : State) (source : Nat) (r : FaultIn) :
    (s.reportInvalid source r).fuses = s.fuses := by
  simp [State.reportInvalid]

@[simp] theorem State.containmentEnd_fuses (s : State) (ok : Bool) : (s.containmentEnd ok).fuses = s.fuses := by
  unfold State.containmentEnd
  dsimp only
  (repeat' split) <;> simp

@[simp] theorem State.quietExpire_fuses (s : State) : s.quietExpire.fuses = s.fuses := by simp [State.quietExpire]

/-! ### Host accesses and counters (Machine/Counters.lean) -/

@[simp] theorem State.barWrite_fuses (s : State) (func : Nat) (f : State → State) (n : Nat) (h : Keeps (·.fuses) f) :
    (s.barWrite func f n).fuses = s.fuses := by
  simp [State.barWrite, h _]

@[simp] theorem State.unlessPoisoned_fuses (s : State) (func : Nat) (poisoned : Bool) (f : State → State)
    (h : Keeps (·.fuses) f) : (s.unlessPoisoned func poisoned f).fuses = s.fuses := by
  simp [State.unlessPoisoned, h _]

@[simp] theorem State.barRead_fuses (s : State) (func : Nat) (f : State → State) (h : Keeps (·.fuses) f) :
    (s.barRead func f).fuses = s.fuses := by
  simp [State.barRead, h _]

@[simp] theorem State.blockWrite_fuses (s : State) (block func : Nat) (f : State → State) (h : Keeps (·.fuses) f) :
    (s.blockWrite block func f).fuses = s.fuses := by
  simp [State.blockWrite, h _]

@[simp] theorem State.reply32_fuses (s : State) (func v : Nat) : (s.reply32 func v).fuses = s.fuses := by
  simp [State.reply32]

@[simp] theorem State.blockRead_fuses (s : State) (block func : Nat) (f : State → State) (h : Keeps (·.fuses) f) :
    (s.blockRead block func f).fuses = s.fuses := by
  simp [State.blockRead, h _]

@[simp] theorem State.pmcAdd_fuses (s : State) (func n add : Nat) : (s.pmcAdd func n add).fuses = s.fuses := by
  simp [State.pmcAdd]

@[simp] theorem State.pmcClearOne_fuses (s : State) (func n add : Nat) : (s.pmcClearOne func n add).fuses = s.fuses := by
  simp [State.pmcClearOne]

@[simp] theorem State.pmcClearAll_fuses (s : State) (adds : List (Nat × Nat)) :
    (s.pmcClearAll adds).fuses = s.fuses := by
  simp [State.pmcClearAll]

@[simp] theorem State.pmcReadLo_fuses (s : State) (func n add : Nat) : (s.pmcReadLo func n add).fuses = s.fuses := by
  simp [State.pmcReadLo]

@[simp] theorem State.bwWindowEnd_fuses (s : State) : s.bwWindowEnd.fuses = s.fuses := by simp [State.bwWindowEnd]

@[simp] theorem State.readTimerLo_fuses (s : State) : s.readTimerLo.fuses = s.fuses := by simp [State.readTimerLo]

/-! ### The array and the queues of the PCs (Machine/PcQueue.lean) -/

@[simp] theorem State.arrayWrite_fuses (s : State) (pc a : Nat) (data : List Byte) (poison : Bool) :
    (s.arrayWrite pc a data poison).fuses = s.fuses := by
  simp [State.arrayWrite]

@[simp] theorem State.zeroStack_fuses (s : State) : s.zeroStack.fuses = s.fuses := by simp [State.zeroStack]

@[simp] theorem State.updateDrain_fuses (s : State) (p : Nat) : (s.updateDrain p).fuses = s.fuses := by
  simp [State.updateDrain]

@[simp] theorem State.enqueue_fuses (s : State) (r : DramReq) : (s.enqueue r).fuses = s.fuses := by
  simp [State.enqueue]

@[simp] theorem State.submit_fuses (s : State) (r : DramReq) : (s.submit r).fuses = s.fuses := by
  simp [State.submit, State.wakeChannel]

@[simp] theorem State.admitWaiting_fuses (s : State) : s.admitWaiting.fuses = s.fuses := by simp [State.admitWaiting]

@[simp] theorem State.releaseHeld_fuses (s : State) (on : Nat → Bool) : (s.releaseHeld on).fuses = s.fuses := by
  simp [State.releaseHeld]

/-! ### The Lake and the ports (Machine/Memory.lean) -/

@[simp] theorem State.lakePut_fuses (s : State) (l : LakeLine) : (s.lakePut l).fuses = s.fuses := by
  simp [State.lakePut]

@[simp] theorem State.plruUse_fuses (s : State) (slice set way : Nat) : (s.plruUse slice set way).fuses = s.fuses := by
  simp [State.plruUse]

@[simp] theorem State.wbTidy_fuses (s : State) (pc a : Nat) : (s.wbTidy pc a).fuses = s.fuses := by
  simp [State.wbTidy]

@[simp] theorem State.wbDone_fuses (s : State) (pc a : Nat) : (s.wbDone pc a).fuses = s.fuses := by
  unfold State.wbDone
  dsimp only
  split <;> simp

@[simp] theorem State.wbDrop_fuses (s : State) (pc a : Nat) : (s.wbDrop pc a).fuses = s.fuses := by
  simp [State.wbDrop]

@[simp] theorem State.writeBack_fuses (s : State) (l : LakeLine) (n group : Nat) :
    (s.writeBack l n group).1.fuses = s.fuses := by
  simp [State.writeBack]

@[simp] theorem State.writeBackLine_fuses (s : State) (pc a group : Nat) :
    (s.writeBackLine pc a group).1.fuses = s.fuses := by
  unfold State.writeBackLine
  dsimp only
  (repeat' split) <;> simp

@[simp] theorem State.sectorToArray_fuses (s : State) (pc a : Nat) : (s.sectorToArray pc a).fuses = s.fuses := by
  unfold State.sectorToArray
  split <;> simp

@[simp] theorem State.lakeAllocate_fuses (s : State) (pc a group : Nat) :
    (s.lakeAllocate pc a group).1.fuses = s.fuses := by
  unfold State.lakeAllocate
  dsimp only
  (repeat' split) <;> simp [State.keepClean]

@[simp] theorem State.readSector_fuses (s : State) (pc a group : Nat) :
    (s.readSector pc a group).1.fuses = s.fuses := by
  unfold State.readSector
  split <;> simp

@[simp] theorem State.lakeRead_fuses (s : State) (pc a group units : Nat) :
    (s.lakeRead pc a group units).1.fuses = s.fuses := by
  have halloc := (s.count 0x0C 1 pc).lakeAllocate_fuses pc a group
  unfold State.lakeRead
  dsimp only
  split
  · split <;> simp
  · split
    · next h => rw [h] at halloc; simpa using halloc
    · next h => rw [h] at halloc; simpa using halloc

@[simp] theorem State.writeSector_fuses (s : State) (pc a group : Nat) (bytes : List Byte) (poisoned durable : Bool) :
    (s.writeSector pc a group bytes poisoned durable).1.fuses = s.fuses := by
  unfold State.writeSector
  split <;> simp

@[simp] theorem State.lakeWrite_fuses (s : State) (pc a group : Nat) (parts : List (Nat × List Byte × Bool))
    (durable : Bool) : (s.lakeWrite pc a group parts durable).1.fuses = s.fuses := by
  have halloc := (s.count 0x0C 1 pc).lakeAllocate_fuses pc a group
  unfold State.lakeWrite
  refine (foldl_fst_fuses _ (fun x acc => by simp) _ _).trans ?_
  dsimp only
  split
  · simp
  · split
    · next h => rw [h] at halloc; simpa using halloc
    · next h => rw [h] at halloc; simpa using halloc

@[simp] theorem State.lakeFlush_fuses (s : State) (on : Nat → Bool) : (s.lakeFlush on).fuses = s.fuses := by
  simp [State.lakeFlush]

@[simp] theorem State.lakeEmpty_fuses (s : State) (on : Nat → Bool) : (s.lakeEmpty on).fuses = s.fuses := by
  simp [State.lakeEmpty]

@[simp] theorem State.lakeInvalidate_fuses (s : State) : s.lakeInvalidate.fuses = s.fuses := by
  simp [State.lakeInvalidate]

@[simp] theorem State.dropTraffic_fuses (s : State) : s.dropTraffic.fuses = s.fuses := by simp [State.dropTraffic]

@[simp] theorem State.dropSlices_fuses (s : State) (on : Nat → Bool) : (s.dropSlices on).fuses = s.fuses := by
  simp [State.dropSlices]

@[simp] theorem State.setPack_fuses (s : State) (x : PackQueue) : (s.setPack x).fuses = s.fuses := by
  simp [State.setPack]

@[simp] theorem State.packPump_fuses (s : State) (q : Nat) : (s.packPump q).fuses = s.fuses := by
  simp [State.packPump]

@[simp] theorem State.packAccepted_fuses (s : State) (r : PortReq) : (s.packAccepted r).fuses = s.fuses := by
  unfold State.packAccepted
  split <;> simp

@[simp] theorem State.packOpen_fuses (s : State) (q : Nat) (p : Packet) : (s.packOpen q p).1.fuses = s.fuses := by
  simp [State.packOpen]

@[simp] theorem State.takeLines_fuses (s : State) (keys : List Nat) : (s.takeLines keys).fuses = s.fuses := by
  simp [State.takeLines]

@[simp] theorem State.replyRead_fuses (s : State) (r : PortReq) : (s.replyRead r).fuses = s.fuses := by
  unfold State.replyRead
  split <;> simp

@[simp] theorem State.lakeServe_fuses (s : State) (r : PortReq) : (s.lakeServe r).fuses = s.fuses := by
  unfold State.lakeServe
  (repeat' split) <;> simp

@[simp] theorem State.wakeQuad_fuses (s : State) (pc : Nat) : (s.wakeQuad pc).fuses = s.fuses := by
  simp [State.wakeQuad]

@[simp] theorem State.present_fuses (s : State) (r : PortReq) : (s.present r).fuses = s.fuses := by
  simp [State.present]

@[simp] theorem State.portSend_fuses (s : State) (r : PortReq) : (s.portSend r).fuses = s.fuses := by
  unfold State.portSend
  split <;> simp

@[simp] theorem State.masterRead_fuses (s : State) (port group pc a n : Nat) (rt : Bool) :
    (s.masterRead port group pc a n rt).1.fuses = s.fuses := by
  simp [State.masterRead]

@[simp] theorem State.basinRead_fuses (s : State) (port group b off n : Nat) (rt : Bool) :
    (s.basinRead port group b off n rt).1.fuses = s.fuses := by
  unfold State.basinRead
  exact foldl_fst_fuses _ (fun x acc => by simp) _ _

@[simp] theorem State.basinWrite_fuses (s : State) (port group b off : Nat) (bytes : List Byte)
    (poisoned durable : Bool) (packet : Option Nat) :
    (s.basinWrite port group b off bytes poisoned durable packet).fuses = s.fuses := by
  simp [State.basinWrite, State.masterWrite]

@[simp] theorem State.settleSector_fuses (s : State) (pc a : Nat) : (s.settleSector pc a).fuses = s.fuses := by
  unfold State.settleSector
  dsimp only
  (repeat' split) <;> simp

@[simp] theorem State.settleLine_fuses (s : State) (pc a : Nat) : (s.settleLine pc a).fuses = s.fuses := by
  simp [State.settleLine]

@[simp] theorem State.settleRange_fuses (s : State) (b off n : Nat) : (s.settleRange b off n).fuses = s.fuses := by
  simp [State.settleRange]

/-! ### On-chip blocks (Machine/OnChip.lean) -/

@[simp] theorem State.popEvent_fuses (s : State) (r : Nat) : (s.popEvent r).fuses = s.fuses := by
  simp [State.popEvent]

@[simp] theorem State.startFlush_fuses (s : State) : s.startFlush.fuses = s.fuses := by simp [State.startFlush]

@[simp] theorem State.scratchWriteGo_fuses (s : State) (e : Nat) (x : Eddy) (p : Nat) (bytes : List Byte) :
    (s.scratchWriteGo e x p bytes).fuses = s.fuses := by
  induction bytes generalizing s p with
  | nil => rfl
  | cons b bs ih => exact ih _ _

/-! ### Weirs (Machine/Weirs.lean) -/

@[simp] theorem State.weirTick_fuses (s : State) : s.weirTick.fuses = s.fuses := by
  unfold State.weirTick
  refine (foldl_fuses _ (fun g s => by simp) _ _).trans (foldl_fuses _ (fun p s => ?_) _ _)
  dsimp only
  split <;> simp

@[simp] theorem State.leavePort_fuses (s : State) (r : PortReq) : (s.leavePort r).1.fuses = s.fuses := by
  simp [State.leavePort]

@[simp] theorem State.weirRelease_fuses (s : State) (p : Nat) : (s.weirRelease p).fuses = s.fuses := by
  unfold State.weirRelease
  split <;> simp

@[simp] theorem State.latencySample_fuses (s : State) (g sample : Nat) : (s.latencySample g sample).fuses = s.fuses := by
  simp [State.latencySample]

@[simp] theorem State.agePromote_fuses (s : State) (p index : Nat) : (s.agePromote p index).fuses = s.fuses := by
  unfold State.agePromote
  dsimp only
  (repeat' split) <;> simp [State.countAged]

@[simp] theorem State.admitGroup_fuses (s : State) (g : Nat) : (s.admitGroup g).1.fuses = s.fuses := by
  simp [State.admitGroup, State.setDemoted]

@[simp] theorem State.admitPending_fuses (s : State) : s.admitPending.fuses = s.fuses := by simp [State.admitPending]

@[simp] theorem State.portEff_fuses (s : State) (clamp : Option Nat) (p : Nat) :
    (s.portEff clamp p).fuses = s.fuses := by
  simp [State.portEff]

/-! ### Memory controllers (Machine/Controllers.lean) -/

@[simp] theorem State.showUrgent_fuses (s : State) (p : Nat) : (s.showUrgent p).fuses = s.fuses := by
  simp [State.showUrgent]

@[simp] theorem State.refpb_fuses (s : State) (p b : Nat) : (s.refpb p b).fuses = s.fuses := by simp [State.refpb]

@[simp] theorem State.issueReq_fuses (s : State) (r : DramReq) : (s.issueReq r).fuses = s.fuses := by
  simp [State.issueReq, State.lineWritten]

@[simp] theorem State.arbitrate_fuses (s : State) (p b : Nat) : (s.arbitrate p b).fuses = s.fuses := by
  unfold State.arbitrate
  dsimp only
  (repeat' split) <;> simp [State.targetedRefresh]

@[simp] theorem State.refreshDue_fuses (s : State) (p b : Nat) : (s.refreshDue p b).fuses = s.fuses := by
  unfold State.refreshDue
  dsimp only
  (repeat' split) <;> simp [State.applyRate]

@[simp] theorem State.trefwEnd_fuses (s : State) (p : Nat) : (s.trefwEnd p).fuses = s.fuses := by
  simp [State.trefwEnd]

@[simp] theorem State.setChannel_fuses (s : State) (c st : Nat) : (s.setChannel c st).fuses = s.fuses := by
  simp [State.setChannel]

@[simp] theorem State.drainWrites_fuses (s : State) (on : Nat → Bool) (which : DramReq → Bool) :
    (s.drainWrites on which).fuses = s.fuses := by
  simp [State.drainWrites]

@[simp] theorem State.srEnter_fuses (s : State) (c : Nat) (cause : SrCause) : (s.srEnter c cause).fuses = s.fuses := by
  simp [State.srEnter]

@[simp] theorem State.srIdleExpire_fuses (s : State) (c : Nat) : (s.srIdleExpire c).fuses = s.fuses := by
  simp [State.srIdleExpire]

@[simp] theorem State.quadOff_fuses (s : State) (q : Nat) : (s.quadOff q).fuses = s.fuses := by simp [State.quadOff]

@[simp] theorem State.quadPower_fuses (s : State) : s.quadPower.fuses = s.fuses := by simp [State.quadPower]

@[simp] theorem State.quadsStart_fuses (s : State) : s.quadsStart.fuses = s.fuses := by simp [State.quadsStart]

@[simp] theorem State.srEntryDone_fuses (s : State) (c : Nat) : (s.srEntryDone c).fuses = s.fuses := by
  simp [State.srEntryDone]

@[simp] theorem State.srResidencyEnd_fuses (s : State) (c : Nat) : (s.srResidencyEnd c).fuses = s.fuses := by
  simp [State.srResidencyEnd]

@[simp] theorem State.srExitDone_fuses (s : State) (c : Nat) : (s.srExitDone c).fuses = s.fuses := by
  simp [State.srExitDone]

@[simp] theorem State.srForceAll_fuses (s : State) : s.srForceAll.fuses = s.fuses := by simp [State.srForceAll]

@[simp] theorem State.srReleaseAll_fuses (s : State) : s.srReleaseAll.fuses = s.fuses := by simp [State.srReleaseAll]

@[simp] theorem State.serveSlice_fuses (p fuel : Nat) (s : State) : (State.serveSlice p fuel s).fuses = s.fuses := by
  induction fuel generalizing s with
  | zero => rfl
  | succ fuel ih =>
    unfold State.serveSlice
    split <;> simp [ih]

@[simp] theorem State.quadWakeDone_fuses (s : State) (q : Nat) : (s.quadWakeDone q).fuses = s.fuses := by
  simp [State.quadWakeDone]

@[simp] theorem State.durableAck_fuses (s : State) (p a : Nat) : (s.durableAck p a).fuses = s.fuses := by
  simp [State.durableAck]

@[simp] theorem State.flushDone_fuses (s : State) : s.flushDone.fuses = s.fuses := by simp [State.flushDone]

@[simp] theorem State.basinEnWrite_fuses (s : State) (b : Nat) (en : Bool) : (s.basinEnWrite b en).fuses = s.fuses := by
  simp [State.basinEnWrite]

@[simp] theorem State.basinEnabled_fuses (s : State) (b : Nat) : (s.basinEnabled b).fuses = s.fuses := by
  unfold State.basinEnabled
  split <;> simp

@[simp] theorem State.basinEffect_fuses (s : State) (b : Nat) : (s.basinEffect b).fuses = s.fuses := by
  simp [State.basinEffect]

@[simp] theorem State.zeroBasin_fuses (s : State) (b : Nat) : (s.zeroBasin b).fuses = s.fuses := by
  simp [State.zeroBasin]

@[simp] theorem State.basinFillDone_fuses (s : State) (b : Nat) : (s.basinFillDone b).fuses = s.fuses := by
  simp [State.basinFillDone]

@[simp] theorem State.failChannel_fuses (s : State) (c : Nat) : (s.failChannel c).fuses = s.fuses := by
  simp [State.failChannel]

@[simp] theorem State.clockFail_fuses (s : State) (c : Nat) : (s.clockFail c).fuses = s.fuses := by
  simp [State.clockFail]

/-! ### The plan port (Machine/PlanPort.lean) -/

@[simp] theorem State.planLatchResult_fuses (s : State) (func slot : Nat) (pl : Plan) (sched : List Byte)
    (info : Nat) : (s.planLatchResult func slot pl sched info).fuses = s.fuses := by
  simp [State.planLatchResult]

@[simp] theorem State.planBusy_fuses (s : State) (func slot off len latency : Nat) :
    (s.planBusy func slot off len latency).fuses = s.fuses := by
  simp [State.planBusy]

@[simp] theorem State.planShow_fuses (s : State) (func slot off len : Nat) :
    (s.planShow func slot off len).fuses = s.fuses := by
  simp [State.planShow]

@[simp] theorem State.planSlotRead_fuses (s : State) (func slot off len latency : Nat) :
    (s.planSlotRead func slot off len latency).fuses = s.fuses := by
  simp [State.planSlotRead, State.planRefuse, State.planRead]

@[simp] theorem State.planRelease_fuses (s : State) (func slot : Nat) : (s.planRelease func slot).fuses = s.fuses := by
  simp [State.planRelease]

@[simp] theorem State.planLatch_fuses (s : State) (func slot latency : Nat) :
    (s.planLatch func slot latency).fuses = s.fuses := by
  unfold State.planLatch
  dsimp only
  (repeat' split) <;> simp

@[simp] theorem State.planDrop_fuses (s : State) (func slot latency : Nat) :
    (s.planDrop func slot latency).fuses = s.fuses := by
  unfold State.planDrop
  dsimp only
  split <;> simp

@[simp] theorem State.planWrite_fuses (s : State) (func slot off : Nat) (bytes : List Byte) :
    (s.planWrite func slot off bytes).fuses = s.fuses := by
  simp [State.planWrite]

/-! ### Read tags (Machine/Tags.lean) -/

@[simp] theorem State.showTags_fuses (s : State) : s.showTags.fuses = s.fuses := by simp [State.showTags]

@[simp] theorem State.sendRead_fuses (s : State) (r : TagUse) (t : Nat) : (s.sendRead r t).fuses = s.fuses := by
  unfold State.sendRead
  split <;> simp

@[simp] theorem State.issueRead_fuses (s : State) (func addr len : Nat) (peer : Bool) (use : TagFor) (ns : Bool) :
    (s.issueRead func addr len peer use ns).fuses = s.fuses := by
  unfold State.issueRead
  split <;> simp

@[simp] theorem State.retireTag_fuses (s : State) (t : Nat) : (s.retireTag t).fuses = s.fuses := by
  simp [State.retireTag]

@[simp] theorem State.orphanReads_fuses (s : State) (mine : TagFor → Bool) : (s.orphanReads mine).fuses = s.fuses := by
  simp [State.orphanReads]

@[simp] theorem State.timedOut_fuses (s : State) : s.timedOut.fuses = s.fuses := by simp [State.timedOut]

@[simp] theorem State.readEnd_fuses (s : State) (n : Nat) (a : Option Fetched) : (s.readEnd n a).fuses = s.fuses := by
  unfold State.readEnd
  split <;> simp

/-! ### The journal (Machine/Journal.lean) -/

@[simp] theorem State.showRing_fuses (s : State) (q : Nat) : (s.showRing q).fuses = s.fuses := by
  simp [State.showRing]

@[simp] theorem State.recWrite_fuses (s : State) (q slot o : Nat) (bytes : List Byte) :
    (s.recWrite q slot o bytes).fuses = s.fuses := by
  unfold State.recWrite
  split <;> simp [State.writeThrough]

@[simp] theorem State.recState_fuses (s : State) (q slot v : Nat) : (s.recState q slot v).fuses = s.fuses := by
  simp [State.recState]

@[simp] theorem State.recVoid_fuses (s : State) (q : Nat) : (s.recVoid q).fuses = s.fuses := by simp [State.recVoid]

@[simp] theorem State.recCond_fuses (s : State) (q slot : Nat) (c : Cond) : (s.recCond q slot c).fuses = s.fuses := by
  simp [State.recCond]

@[simp] theorem State.recDoneBit_fuses (s : State) (q slot u : Nat) (v : Bool) :
    (s.recDoneBit q slot u v).fuses = s.fuses := by
  simp [State.recDoneBit]

@[simp] theorem State.recIssue_fuses (s : State) (q slot u : Nat) : (s.recIssue q slot u).fuses = s.fuses := by
  simp [State.recIssue]

@[simp] theorem State.unitDone_fuses (s : State) (j : Job) (u : Nat) : (s.unitDone j u).1.fuses = s.fuses := by
  simp [State.unitDone, State.recDone]

@[simp] theorem State.condition_fuses (s : State) (j : Job) (c : Cond) : (s.condition j c).1.fuses = s.fuses := by
  simp [State.condition]

@[simp] theorem State.stopJob_fuses (s : State) (j : Job) (st : Status) (cause : Nat) :
    (s.stopJob j st cause).1.fuses = s.fuses := by
  simp [State.stopJob, State.noteStop]

@[simp] theorem State.readPiece_fuses (s : State) (r : TagUse) : (s.readPiece r).fuses = s.fuses := by
  unfold State.readPiece
  split <;> simp

@[simp] theorem State.readNow_fuses (s : State) (func addr n : Nat) (peer ns : Bool) (ans : Option Fetched) :
    (s.readNow func addr n peer ns ans).fuses = s.fuses := by
  simp [State.readNow]

/-! ### Buffers and the reads of tasks (Machine/Buffers.lean) -/

@[simp] theorem Walk.fetch_fuses (w : Walk) (func : Nat) (e : BufEntry) (n : Nat) :
    (w.fetch func e n).1.st.fuses = w.st.fuses := by
  unfold Walk.fetch
  dsimp only
  (repeat' split) <;> simp

@[simp] theorem Walk.chain_fuses (func fuel : Nat) (w : Walk) (e : BufEntry) (acc : Buffer) :
    (Walk.chain func fuel w e acc).1.st.fuses = w.st.fuses := by
  induction fuel generalizing w e acc with
  | zero => rfl
  | succ fuel ih =>
    unfold Walk.chain
    dsimp only
    (repeat' split) <;> simp [ih]

@[simp] theorem Walk.buffer_fuses (w : Walk) (func : Nat) (b : List Byte) :
    (w.buffer func b).1.st.fuses = w.st.fuses := by
  unfold Walk.buffer
  dsimp only
  (repeat' split) <;> simp

@[simp] theorem Walk.tableGo_fuses (func : Nat) (w : Walk) (entries : List (List Byte)) (acc : List Buffer) :
    (Walk.tableGo func w entries acc).1.st.fuses = w.st.fuses := by
  induction entries generalizing w acc with
  | nil => rfl
  | cons b rest ih => simp [Walk.tableGo, ih]

@[simp] theorem Walk.table_fuses (w : Walk) (func n : Nat) (b : List Byte) :
    (w.table func n b).1.st.fuses = w.st.fuses := by
  unfold Walk.table
  dsimp only
  (repeat' split) <;> simp

@[simp] theorem TaskIo.engine_fuses (s : State) (func e : Nat) (ext : List Fetched) (digest : Bool) :
    (TaskIo.engine s func e ext digest).st.fuses = s.fuses := by
  simp [TaskIo.engine]

@[simp] theorem TaskIo.take_fuses (t : TaskIo) (n : Nat) : (t.take n).st.fuses = t.st.fuses := by
  unfold TaskIo.take
  split <;> simp [State.readDone]

@[simp] theorem TaskIo.read_fuses (t : TaskIo) (b : Buffer) (off n : Nat) :
    (t.read b off n).1.st.fuses = t.st.fuses := by
  unfold TaskIo.read
  refine foldl_io_fuses _ (fun x acc => ?_) _ _
  dsimp only
  (repeat' split) <;> simp

@[simp] theorem State.postWrite_fuses (s : State) (func addr : Nat) (bytes : List Byte) (rlx ns : Bool) :
    (s.postWrite func addr bytes rlx ns).fuses = s.fuses := by
  simp [State.postWrite]

@[simp] theorem State.basinWritePacket_fuses (s : State) (port group b off : Nat) (bytes : List Byte)
    (a : Option Packet) : (s.basinWritePacket port group b off bytes a).fuses = s.fuses := by
  unfold State.basinWritePacket
  split <;> simp

@[simp] theorem TaskIo.write_fuses (t : TaskIo) (r : UnitRun) (b : Buffer) (off : Nat) (bytes : List Byte)
    (shard : Nat) : (t.write r b off bytes shard).1.st.fuses = t.st.fuses := by
  simp [TaskIo.write]

@[simp] theorem State.issueFlushes_fuses (s : State) (j : Job) (r : UnitRun) : (s.issueFlushes j r).fuses = s.fuses := by
  simp [State.issueFlushes]

end Sys2Proof.Machine
end

section
/-! SUPPORT. Operations that leave the fuse array alone: the flash, integrity and the Dredge's schedule.
One lemma for each operation, in the order of the definitions; a helper of one operation unfolds with it. `_fuses`: all of
the fuses stay; `_cells`: the blown bits do (a start decides anew which repairs are in force, R366). -/

namespace Sys2Proof.Machine

/-! ### The flash (Machine/Flash.lean) -/

@[simp] theorem State.flashProgram_fuses (s : State) (a : Nat) (bytes : List Byte) :
    (s.flashProgram a bytes).fuses = s.fuses := by
  simp [State.flashProgram]

theorem State.repairAppend_fuses {s t : State} {typ unit bank row spare seq : Nat} {active : Bool}
    (h : s.repairAppend typ active unit bank row spare = some (t, seq)) : t.fuses = s.fuses := by
  unfold State.repairAppend at h
  split at h
  · cases h
  · obtain ⟨rfl, -⟩ := Prod.mk.inj (Option.some.inj h)
    simp

@[simp] theorem State.repairNote_fuses (s : State) (typ unit bank : Nat) :
    (s.repairNote typ unit bank).fuses = s.fuses := by
  unfold State.repairNote
  split
  · next h => exact State.repairAppend_fuses h
  · rfl

@[simp] theorem State.repairActivate_fuses (s : State) (seq : Nat) : (s.repairActivate seq).fuses = s.fuses := by
  unfold State.repairActivate
  split <;> simp

/-! ### Integrity of the stack memory (Machine/Integrity.lean) -/

@[simp] theorem State.ceTake_fuses (s : State) (e p bg bank row sym col : Nat) :
    (s.ceTake e p bg bank row sym col).fuses = s.fuses := by
  unfold State.ceTake
  dsimp only
  split <;> simp

@[simp] theorem State.ceLog_fuses (s : State) (p a sym : Nat) : (s.ceLog p a sym).fuses = s.fuses := by
  unfold State.ceLog
  dsimp only
  (repeat' split) <;> simp

@[simp] theorem State.setBadTsvs_fuses (s : State) (p : Nat) (l : List Nat) : (s.setBadTsvs p l).fuses = s.fuses := by
  simp [State.setBadTsvs]

@[simp] theorem State.setBadCa_fuses (s : State) (c : Nat) (l : List Nat) : (s.setBadCa c l).fuses = s.fuses := by
  simp [State.setBadCa]

@[simp] theorem State.eraseLane_fuses (s : State) (p lane : Nat) : (s.eraseLane p lane).fuses = s.fuses := by
  simp [State.eraseLane]

@[simp] theorem State.repairLane_fuses (s : State) (p lane : Nat) : (s.repairLane p lane).fuses = s.fuses := by
  simp [State.repairLane]

@[simp] theorem State.countDecode_fuses (s : State) (p a : Nat) (r : LineRead) :
    (s.countDecode p a r).fuses = s.fuses := by
  unfold State.countDecode
  split <;> simp [State.laneFound, State.laneCorrection]

@[simp] theorem State.lineUe_fuses (s : State) (func p a : Nat) : (s.lineUe func p a).fuses = s.fuses := by
  simp [State.lineUe]

@[simp] theorem State.fillDecoded_fuses (s : State) (func p a : Nat) (r : LineRead) :
    (s.fillDecoded func p a r).fuses = s.fuses := by
  have halloc := s.lakeAllocate_fuses p a (if func < 64 then func else 64)
  unfold State.fillDecoded
  dsimp only
  split
  · rfl
  · split
    · simp
    · split
      · next h => rw [h] at halloc; simpa using halloc
      · next h => rw [h] at halloc; simpa using halloc

@[simp] theorem State.noteCopyRead_fuses (s : State) (func p a : Nat) (r : LineRead) :
    (s.noteCopyRead func p a r).fuses = s.fuses := by
  simp [State.noteCopyRead]

@[simp] theorem State.demandDecode_fuses (s : State) (func p a : Nat) (err1 err2 : List Byte) :
    (s.demandDecode func p a err1 err2).fuses = s.fuses := by
  unfold State.demandDecode
  dsimp only
  (repeat' split) <;> simp

@[simp] theorem State.lineDecode_fuses (s : State) (func p a : Nat) (err1 err2 : List Byte) :
    (s.lineDecode func p a err1 err2).fuses = s.fuses := by
  simp [State.lineDecode]

@[simp] theorem State.decodeHeld_fuses (s : State) : s.decodeHeld.fuses = s.fuses := by
  unfold State.decodeHeld
  refine foldl_fuses _ (fun i s => ?_) _ _
  dsimp only
  split <;> simp

@[simp] theorem State.laneShift_fuses (s : State) (p : Nat) : (s.laneShift p).fuses = s.fuses := by
  unfold State.laneShift
  dsimp only
  split <;> simp

@[simp] theorem State.laneShiftDone_fuses (s : State) (p : Nat) : (s.laneShiftDone p).fuses = s.fuses := by
  unfold State.laneShiftDone
  dsimp only
  split <;> simp [State.shiftDq, State.shiftCa]

@[simp] theorem State.shiftReq_fuses (s : State) (v : Nat) : (s.shiftReq v).fuses = s.fuses := by
  simp [State.shiftReq]

@[simp] theorem State.caFail_fuses (s : State) (c : Nat) : (s.caFail c).fuses = s.fuses := by simp [State.caFail]

@[simp] theorem State.caParity_fuses (s : State) (c lane row : Nat) : (s.caParity c lane row).fuses = s.fuses := by
  simp [State.caParity, State.repairCa]

@[simp] theorem State.retRefuse_fuses (s : State) (result : Nat) : (s.retRefuse result).fuses = s.fuses := by
  simp [State.retRefuse]

@[simp] theorem State.rowRetire_fuses (s : State) (v : Nat) (flashOk : Bool) :
    (s.rowRetire v flashOk).fuses = s.fuses := by
  unfold State.rowRetire
  dsimp only
  (repeat' split) <;> simp
  next h =>
    split at h
    · exact State.repairAppend_fuses h
    · cases h

@[simp] theorem State.pcRetire_fuses (s : State) (v : Nat) (flashOk : Bool) :
    (s.pcRetire v flashOk).fuses = s.fuses := by
  unfold State.pcRetire
  dsimp only
  (repeat' split) <;> simp
  next h =>
    split at h
    · exact State.repairAppend_fuses h
    · cases h

@[simp] theorem State.retCmd_fuses (s : State) (v : Nat) (flashOk : Bool) : (s.retCmd v flashOk).fuses = s.fuses := by
  unfold State.retCmd
  (repeat' split) <;> simp

@[simp] theorem State.remap_fuses (s : State) (e : RepairEntry) : (s.remap e).fuses = s.fuses := by simp [State.remap]

@[simp] theorem State.copyLine_fuses (s : State) (e : RepairEntry) (col : Nat) :
    (s.copyLine e col).fuses = s.fuses := by
  unfold State.copyLine
  dsimp only
  split <;> simp

@[simp] theorem State.rowCopy_fuses (s : State) : s.rowCopy.fuses = s.fuses := by
  unfold State.rowCopy
  split <;> simp

/-! ### The Dredge's schedule (Machine/DredgeSched.lean) -/

@[simp] theorem State.setDrNext_fuses (s : State) (v : Nat) : (s.setDrNext v).fuses = s.fuses := by
  simp [State.setDrNext]

@[simp] theorem State.setDrCursor_fuses (s : State) (v : Nat) : (s.setDrCursor v).fuses = s.fuses := by
  simp [State.setDrCursor]

@[simp] theorem State.everyWrite_fuses (s : State) (v : Nat) : (s.everyWrite v).fuses = s.fuses := by
  simp [State.everyWrite]

@[simp] theorem State.roundStart_fuses (s : State) (epoch : Nat) : (s.roundStart epoch).fuses = s.fuses := by
  simp [State.roundStart]

@[simp] theorem State.roundBehind_fuses (s : State) : s.roundBehind.fuses = s.fuses := by simp [State.roundBehind]

end Sys2Proof.Machine
end

section
/-! SUPPORT. Operations that leave the fuse array alone: sealing, descriptors, engines and jobs.
One lemma for each operation, in the order of the definitions; a helper of one operation unfolds with it. `_fuses`: all of
the fuses stay; `_cells`: the blown bits do (a start decides anew which repairs are in force, R366). -/

namespace Sys2Proof.Machine

/-! ### Sealing (Machine/Sealing.lean) -/

@[simp] theorem State.activate_fuses (s : State) (f v : Nat) : (s.activate f v).fuses = s.fuses := by
  unfold State.activate
  split <;> simp

@[simp] theorem State.activateKeys_fuses (s : State) (f : Nat) : (s.activateKeys f).fuses = s.fuses := by
  simp [State.activateKeys]

@[simp] theorem State.dropKey_fuses (s : State) (f v : Nat) : (s.dropKey f v).fuses = s.fuses := by
  simp [State.dropKey]

theorem State.takeSnapshot_fuses {s t : State} {f : Nat} {x : Snapshot} (h : s.takeSnapshot f = some (t, x)) :
    t.fuses = s.fuses := by
  unfold State.takeSnapshot at h
  split at h
  · cases h
  · obtain ⟨rfl, -⟩ := Prod.mk.inj (Option.some.inj h)
    simp

@[simp] theorem State.logFull_fuses (s : State) (f : Nat) : (s.logFull f).fuses = s.fuses := by simp [State.logFull]

@[simp] theorem State.logSent_fuses (s : State) (f vector : Nat) : (s.logSent f vector).fuses = s.fuses := by
  simp [State.logSent]

@[simp] theorem State.logWrite_fuses (s : State) (f type : Nat) (body : List Byte) (ok : Bool) :
    (s.logWrite f type body ok).fuses = s.fuses := by
  simp [State.logWrite, State.logMessage]

@[simp] theorem State.settleSeal_fuses (s : State) (j : Job) : (s.settleSeal j).1.fuses = s.fuses := by
  simp [State.settleSeal]

@[simp] theorem State.forgetSeals_fuses (s : State) (gone : Nat → Bool) : (s.forgetSeals gone).fuses = s.fuses := by
  simp [State.forgetSeals]

@[simp] theorem State.sealLogged_fuses (s : State) (job : Option (Nat × Nat × Nat)) (ok : Bool) :
    (s.sealLogged job ok).fuses = s.fuses := by
  unfold State.sealLogged
  split <;> simp

@[simp] theorem State.drainRecords_fuses (fuel : Nat) (s : State) (f : Nat) (ok : Bool) :
    (State.drainRecords fuel s f ok).fuses = s.fuses := by
  induction fuel generalizing s ok with
  | zero => rfl
  | succ fuel ih =>
    unfold State.drainRecords
    dsimp only
    (repeat' split) <;> simp [ih]

@[simp] theorem State.drainLog_fuses (s : State) (f : Nat) (ok : Bool) : (s.drainLog f ok).fuses = s.fuses := by
  simp [State.drainLog]

@[simp] theorem State.setLastSeal_fuses (s : State) (f e : Nat) : (s.setLastSeal f e).fuses = s.fuses := by
  simp [State.setLastSeal]

@[simp] theorem State.startChain_fuses (s : State) (f : Nat) : (s.startChain f).fuses = s.fuses := by
  simp [State.startChain]

@[simp] theorem State.closeBatch_fuses (s : State) (f epoch : Nat) (auto : Bool) (job : Option (Nat × Nat × Nat)) :
    (s.closeBatch f epoch auto job).fuses = s.fuses := by
  simp [State.closeBatch]

@[simp] theorem State.raiseEpoch_fuses (s : State) (f e : Nat) : (s.raiseEpoch f e).fuses = s.fuses := by
  simp [State.raiseEpoch, State.roundDue, State.dredgeEpoch, State.setEpoch]

@[simp] theorem State.signBatch_fuses (s : State) (f : Nat) (ok : Bool) : (s.signBatch f ok).1.fuses = s.fuses := by
  unfold State.signBatch
  dsimp only
  split <;> simp

@[simp] theorem State.epochCommit_fuses (s : State) (f hi : Nat) : (s.epochCommit f hi).fuses = s.fuses := by
  simp [State.epochCommit, State.epochRejected]

@[simp] theorem State.epochLatch_fuses (s : State) (f : Nat) : (s.epochLatch f).fuses = s.fuses := by
  simp [State.epochLatch]

@[simp] theorem State.epochHi_fuses (s : State) (f : Nat) : (s.epochHi f).1.fuses = s.fuses := by simp [State.epochHi]

@[simp] theorem State.logHead_fuses (s : State) (f v : Nat) (ok : Bool) : (s.logHead f v ok).fuses = s.fuses := by
  simp [State.logHead]

@[simp] theorem State.logEnEffect_fuses (s : State) (f : Nat) (ok : Bool) : (s.logEnEffect f ok).fuses = s.fuses := by
  simp [State.logEnEffect]

/-! ### Descriptors and their checks (Machine/Descriptors.lean) -/

@[simp] theorem Check.reject_fuses (c : Check) (st : Status) : (c.reject st).st.fuses = c.st.fuses := by
  simp [Check.reject]

@[simp] theorem Check.next_fuses (c : Check) (f : Check → Check) (h : Keeps (·.st.fuses) f) :
    (c.next f).st.fuses = c.st.fuses := by
  unfold Check.next
  split
  · rfl
  · exact h c

@[simp] theorem Check.walked_fuses (c : Check) (w : Walk) (j : Job) : (c.walked w j).st.fuses = w.st.fuses := by
  simp [Check.walked]

@[simp] theorem Check.walk_fuses (n : Nat) (c : Check) (x : Nat × Bool) :
    (Check.walk n c x).st.fuses = c.st.fuses := by
  unfold Check.walk
  split <;> simp

@[simp] theorem Check.fetchSched_fuses (c : Check) : c.fetchSched.1.st.fuses = c.st.fuses := by
  simp [Check.fetchSched]

@[simp] theorem Check.schedule_fuses (p : Profile) (c : Check) : (Check.schedule p c).st.fuses = c.st.fuses := by
  unfold Check.schedule
  dsimp only
  (repeat' split) <;> simp

@[simp] theorem Check.run_fuses (c : Check) (lap : Nat) : (c.run lap).st.fuses = c.st.fuses := by
  have hwalk : ∀ (n : Nat) (l : List (Nat × Bool)) (c : Check), (l.foldl (Check.walk n) c).st.fuses = c.st.fuses :=
    fun n l c => foldl_same (·.st.fuses) _ (fun c x => Check.walk_fuses n c x) l c
  have hite := @apply_ite Check _ (·.st.fuses)
  unfold Check.run
  dsimp only
  rw [hite]
  simp only [Check.reject_fuses, State.satInc_fuses, ite_self]
  iterate 8 rw [Check.next_fuses]
  all_goals simp [hite, hwalk]
  intro c
  split <;> simp [hite]

@[simp] theorem State.planJob_fuses (s : State) (j : Job) : (s.planJob j).1.fuses = s.fuses := by
  unfold State.planJob
  split <;> simp

@[simp] theorem State.writeOut_fuses (s : State) (j : Job) (o port : Nat) (bytes : List Byte) :
    (s.writeOut j o port bytes).1.fuses = s.fuses := by
  simp [State.writeOut]

@[simp] theorem State.issueOne_fuses (s : State) (j : Job) : (s.issueOne j).1.fuses = s.fuses := by
  simp [State.issueOne]

@[simp] theorem State.recFetch_fuses (s : State) (q slot : Nat) : (s.recFetch q slot).fuses = s.fuses := by
  unfold State.recFetch
  split <;> simp

@[simp] theorem State.runQuery_fuses (s : State) (j : Job) : (s.runQuery j).1.fuses = s.fuses := by
  unfold State.runQuery
  dsimp only
  split <;> simp

@[simp] theorem State.startJob_fuses (s : State) (j : Job) : (s.startJob j).fuses = s.fuses := by
  unfold State.startJob
  dsimp only
  split <;> simp [State.startScrub]

@[simp] theorem State.fetchDescriptor_fuses (s : State) (q : Nat) : (s.fetchDescriptor q).fuses = s.fuses := by
  simp [State.fetchDescriptor, State.recOpen]

theorem State.takeFetch_fuses {s t : State} {q : Nat} {which : Nat → Bool} {f : Fetch}
    (h : s.takeFetch q which = some (t, f)) : t.fuses = s.fuses := by
  unfold State.takeFetch at h
  split at h
  · cases h
  · obtain ⟨rfl, -⟩ := Prod.mk.inj (Option.some.inj h)
    simp

@[simp] theorem State.rejectJob_fuses (s : State) (j : Job) (st : Status) : (s.rejectJob j st).fuses = s.fuses := by
  simp [State.rejectJob]

@[simp] theorem State.recDescribe_fuses (s : State) (q slot : Nat) (desc : List Byte) (units : Nat) :
    (s.recDescribe q slot desc units).fuses = s.fuses := by
  simp [State.recDescribe]

@[simp] theorem State.arrive_fuses (s : State) (q : Nat) (desc : List Byte) (ext : List Fetched) :
    (s.arrive q desc ext).fuses = s.fuses := by
  unfold State.arrive
  split
  · rfl
  · next t f hf =>
    rw [← State.takeFetch_fuses hf]
    dsimp only
    (repeat' split) <;> simp
    all_goals
      have h := State.takeSnapshot_fuses ‹State.takeSnapshot _ _ = some (_, _)›
      simp_all

@[simp] theorem State.fetchFail_fuses (s : State) (q : Nat) (which : Nat → Bool) :
    (s.fetchFail q which).fuses = s.fuses := by
  unfold State.fetchFail
  split
  · rfl
  · next h => exact (State.rejectJob_fuses _ _ _).trans (State.takeFetch_fuses h)

/-! ### The reads of a task (Machine/TaskReads.lean) -/

@[simp] theorem State.dropReads_fuses (s : State) (e : Nat) (which : Bool → Bool) :
    (s.dropReads e which).fuses = s.fuses := by
  simp [State.dropReads]

/-! ### Ponds and engines (Machine/Engines.lean) -/

@[simp] theorem State.showEngines_fuses (s : State) : s.showEngines.fuses = s.fuses := by simp [State.showEngines]

@[simp] theorem State.setEngState_fuses (s : State) (e st : Nat) : (s.setEngState e st).fuses = s.fuses := by
  simp [State.setEngState]

@[simp] theorem State.setDom_fuses (s : State) (d st : Nat) : (s.setDom d st).fuses = s.fuses := by
  simp [State.setDom]

@[simp] theorem State.wakeDom_fuses (s : State) (d : Nat) : (s.wakeDom d).fuses = s.fuses := by simp [State.wakeDom]

@[simp] theorem State.engineDown_fuses (s : State) (e st : Nat) : (s.engineDown e st).fuses = s.fuses := by
  simp [State.engineDown]

@[simp] theorem State.offlineCheck_fuses (s : State) (e : Nat) : (s.offlineCheck e).fuses = s.fuses := by
  simp [State.offlineCheck]

@[simp] theorem State.showBusy_fuses (s : State) (e : Nat) : (s.showBusy e).fuses = s.fuses := by
  simp [State.showBusy]

@[simp] theorem State.dropTokensWith_fuses (s : State) (q slot : Nat) (which : Token → Bool) :
    (s.dropTokensWith q slot which).fuses = s.fuses := by
  simp [State.dropTokensWith]

@[simp] theorem State.dropTokens_fuses (s : State) (q slot : Nat) : (s.dropTokens q slot).fuses = s.fuses := by
  simp [State.dropTokens]

@[simp] theorem State.notePush_fuses (s : State) (j : Job) (t : Token) : (s.notePush j t).1.fuses = s.fuses := by
  simp [State.notePush]

@[simp] theorem State.taskPush_fuses (s : State) (p : Nat) : (s.taskPush p).fuses = s.fuses := by
  unfold State.taskPush
  dsimp only
  (repeat' split) <;> simp

@[simp] theorem State.containJob_fuses (s : State) (q slot : Nat) : (s.containJob q slot).fuses = s.fuses := by
  unfold State.containJob
  split <;> simp

@[simp] theorem State.containPond_fuses (s : State) (p : Nat) : (s.containPond p).fuses = s.fuses := by
  simp [State.containPond]

@[simp] theorem State.pondFault_fuses (s : State) (p arg : Nat) : (s.pondFault p arg).fuses = s.fuses := by
  simp [State.pondFault]

@[simp] theorem State.readStart_fuses (s : State) (func addr n : Nat) (peer ns : Bool) (e : Nat) (digest : Bool)
    (k : Nat) : (s.readStart func addr n peer ns e digest k).fuses = s.fuses := by
  simp [State.readStart]

@[simp] theorem State.startReads_fuses (s : State) (e : Nat) (t : Token) : (s.startReads e t).fuses = s.fuses := by
  unfold State.startReads
  split <;> simp

@[simp] theorem State.taskPop_fuses (s : State) (e : Nat) (checkOk : Bool) :
    (s.taskPop e checkOk).fuses = s.fuses := by
  unfold State.taskPop
  dsimp only
  (repeat' split) <;> simp

@[simp] theorem State.stealFrom_fuses (s : State) (thief : Nat) (checkOk : Bool) (order : List Nat) :
    (s.stealFrom thief checkOk order).fuses = s.fuses := by
  induction order generalizing s with
  | nil => rfl
  | cons i rest ih => simp [State.stealFrom, ih]

@[simp] theorem State.stealVisit_fuses (s : State) (p : Nat) (checkOk : Bool) :
    (s.stealVisit p checkOk).fuses = s.fuses := by
  simp [State.stealVisit]

@[simp] theorem State.fenceEngine_fuses (s : State) (e cause : Nat) : (s.fenceEngine e cause).fuses = s.fuses := by
  simp [State.fenceEngine]

@[simp] theorem State.taskDeadline_fuses (s : State) (e : Nat) (digest : Bool) :
    (s.taskDeadline e digest).fuses = s.fuses := by
  simp [State.taskDeadline]

@[simp] theorem State.afterFail_fuses (s : State) (j : Job) (digest : Bool) :
    (s.afterFail j digest).1.fuses = s.fuses := by
  simp [State.afterFail]

@[simp] theorem State.failUnit_fuses (s : State) (j : Job) (unit : Nat) (st : Status) (shard : Nat) :
    (s.failUnit j unit st shard).1.fuses = s.fuses := by
  simp [State.failUnit]

@[simp] theorem State.settleUnit_fuses (s : State) (j : Job) (r : UnitRun) : (s.settleUnit j r).1.fuses = s.fuses := by
  simp [State.settleUnit]

@[simp] theorem State.endUnit_fuses (io : TaskIo) (j : Job) (r : UnitRun) :
    (State.endUnit io j r).1.fuses = io.st.fuses := by
  simp [State.endUnit]

@[simp] theorem State.planPlace_fuses (s : State) (j : Job) (e : Nat) (rec : List Byte × Bool) :
    (s.planPlace j e rec).1.fuses = s.fuses := by
  simp [State.planPlace]

@[simp] theorem State.planDrain_fuses (fuel : Nat) (s : State) (j : Job) (e : Nat) :
    (State.planDrain fuel s j e).1.fuses = s.fuses := by
  induction fuel generalizing s j with
  | zero => rfl
  | succ fuel ih =>
    unfold State.planDrain
    split
    · rfl
    · simp [ih]

@[simp] theorem State.abandon_fuses (s : State) (t : Token) : (s.abandon t).fuses = s.fuses := by
  unfold State.abandon
  split <;> simp

@[simp] theorem State.requeue_fuses (s : State) (e : Nat) (r : Running) : (s.requeue e r).fuses = s.fuses := by
  unfold State.requeue
  dsimp only
  split <;> simp

@[simp] theorem State.fenceRequeue_fuses (s : State) (e : Nat) : (s.fenceRequeue e).fuses = s.fuses := by
  simp [State.fenceRequeue]

@[simp] theorem State.goOffline_fuses (s : State) (e : Nat) : (s.goOffline e).fuses = s.fuses := by
  simp [State.goOffline]

@[simp] theorem State.beginTest_fuses (s : State) (e : Nat) : (s.beginTest e).fuses = s.fuses := by
  simp [State.beginTest]

@[simp] theorem State.dueTest_fuses (s : State) (e : Nat) : (s.dueTest e).fuses = s.fuses := by simp [State.dueTest]

@[simp] theorem State.testOffline_fuses (s : State) (e : Nat) : (s.testOffline e).fuses = s.fuses := by
  simp [State.testOffline]

@[simp] theorem State.testFenced_fuses (s : State) (e : Nat) : (s.testFenced e).fuses = s.fuses := by
  simp [State.testFenced]

@[simp] theorem State.selftestStart_fuses (s : State) (e : Nat) : (s.selftestStart e).fuses = s.fuses := by
  simp [State.selftestStart]

@[simp] theorem State.drainEngine_fuses (s : State) (e : Nat) : (s.drainEngine e).fuses = s.fuses := by
  simp [State.drainEngine]

@[simp] theorem State.actOff_fuses (s : State) (d : Nat) : (s.actOff d).fuses = s.fuses := by simp [State.actOff]

@[simp] theorem State.retryOff_fuses (s : State) : s.retryOff.fuses = s.fuses := by simp [State.retryOff]

@[simp] theorem State.actOn_fuses (s : State) (d : Nat) : (s.actOn d).fuses = s.fuses := by
  simp [State.actOn, State.engineOn]

@[simp] theorem State.domainsOn_fuses (s : State) : s.domainsOn.fuses = s.fuses := by
  unfold State.domainsOn
  dsimp only
  (repeat' split) <;> simp

@[simp] theorem State.selftestDone_fuses (s : State) (e : Nat) (pass : Bool) :
    (s.selftestDone e pass).fuses = s.fuses := by
  simp [State.selftestDone]

@[simp] theorem State.offlineReq_fuses (s : State) (e : Nat) (v : Bool) : (s.offlineReq e v).fuses = s.fuses := by
  simp [State.offlineReq]

@[simp] theorem State.selftestReq_fuses (s : State) (e : Nat) : (s.selftestReq e).fuses = s.fuses := by
  simp [State.selftestReq]

@[simp] theorem State.offReq_fuses (s : State) (d : Nat) (v : Bool) : (s.offReq d v).fuses = s.fuses := by
  simp [State.offReq]

@[simp] theorem State.domainWoken_fuses (s : State) (d : Nat) : (s.domainWoken d).fuses = s.fuses := by
  simp [State.domainWoken, State.engineWoken]

@[simp] theorem State.pondOff_fuses (s : State) (p : Nat) : (s.pondOff p).fuses = s.fuses := by simp [State.pondOff]

/-! ### Tasks (Machine/Tasks.lean) -/

@[simp] theorem State.endFail_fuses (io : TaskIo) (j : Job) (unit : Nat) (st : Status) (shard : Nat) :
    (State.endFail io j unit st shard).1.fuses = io.st.fuses := by
  simp [State.endFail]

@[simp] theorem State.copyUnit_fuses (s : State) (j : Job) (u e : Nat) (ext : List Fetched) :
    (s.copyUnit j u e ext).1.fuses = s.fuses := by
  unfold State.copyUnit
  dsimp only
  split <;> simp

@[simp] theorem State.digestDone_fuses (io : TaskIo) (j : Job) (dg : List Byte) :
    (State.digestDone io j dg).1.fuses = io.st.fuses := by
  unfold State.digestDone
  dsimp only
  (repeat' split) <;> simp

@[simp] theorem State.digestSegment_fuses (s : State) (j : Job) (i e : Nat) (ext : List Fetched) :
    (s.digestSegment j i e ext).1.fuses = s.fuses := by
  unfold State.digestSegment
  dsimp only
  split <;> simp [State.recDigest]

@[simp] theorem State.encodeBytes_fuses (s : State) (j : Job) (u e : Nat) (ext : List Fetched) :
    (s.encodeBytes j u e ext).1.st.fuses = s.fuses := by
  unfold State.encodeBytes
  split <;> simp

@[simp] theorem State.encodeStripe_fuses (s : State) (j : Job) (t : Token) (e : Nat) (ext : List Fetched) :
    (s.encodeStripe j t e ext).1.fuses = s.fuses := by
  have hbytes := State.encodeBytes_fuses s j t.unit e ext
  unfold State.encodeStripe
  dsimp only
  split
  · next h => rw [h] at hbytes; simpa using hbytes
  · next h => rw [h] at hbytes; simpa using hbytes

@[simp] theorem State.decodeOut_fuses (j : Job) (x : Stripe) (a : StripeIn) (acc : TaskIo × UnitRun) :
    (State.decodeOut j x a acc).1.st.fuses = acc.1.st.fuses := by
  unfold State.decodeOut
  split <;> simp

@[simp] theorem StripeIn.add_fuses (x : Stripe) (j : Job) (a : StripeIn) (c : Nat) :
    (StripeIn.add x j a c).io.st.fuses = a.io.st.fuses := by simp [StripeIn.add]

@[simp] theorem foldl_stripe_fuses (x : Stripe) (j : Job) (l : List Nat) (a : StripeIn) :
    (l.foldl (StripeIn.add x j) a).io.st.fuses = a.io.st.fuses :=
  foldl_same (·.io.st.fuses) _ (fun a c => StripeIn.add_fuses x j a c) l a

@[simp] theorem State.decodeStripe_fuses (s : State) (j : Job) (u e : Nat) (ext : List Fetched) :
    (s.decodeStripe j u e ext).1.fuses = s.fuses := by
  unfold State.decodeStripe
  dsimp only
  (repeat' split) <;> simp

@[simp] theorem State.planBatch_fuses (s : State) (j : Job) (u e : Nat) (ext : List Fetched) :
    (s.planBatch j u e ext).1.fuses = s.fuses := by
  unfold State.planBatch
  simp only [State.planDrain_fuses]
  refine (foldl_io_fuses _ (fun v acc => ?_) _ _).trans (by simp)
  dsimp only
  split <;> simp

@[simp] theorem State.staleJob_fuses (s : State) (q : Nat) : (s.staleJob q).fuses = s.fuses := by
  simp [State.staleJob]

@[simp] theorem State.vaeMismatch_fuses (s : State) (j : Job) (t : Token) (r : UnitRun) (e : Nat) :
    (s.vaeMismatch j t r e).fuses = s.fuses := by
  simp [State.vaeMismatch]

@[simp] theorem State.verifyStripe_fuses (s : State) (j : Job) (t : Token) (e : Nat) (ext : List Fetched) :
    (s.verifyStripe j t e ext).fuses = s.fuses := by
  have hbytes := (s.wrapInc .engVaeChecksCount).encodeBytes_fuses j t.unit e ext
  unfold State.verifyStripe
  dsimp only
  split
  · simp
  · split
    · next h => rw [h] at hbytes; simpa using hbytes
    · next h => rw [h] at hbytes; simpa using hbytes

@[simp] theorem State.runTask_fuses (s : State) (j : Job) (t : Token) (e : Nat) (ext : List Fetched) :
    (s.runTask j t e ext).fuses = s.fuses := by
  simp [State.runTask]

@[simp] theorem State.taskTaken_fuses (s : State) (e : Nat) (r : Running) (ext : List Fetched) :
    (s.taskTaken e r ext).fuses = s.fuses := by
  unfold State.taskTaken
  dsimp only
  split <;> simp

@[simp] theorem State.lateResult_fuses (s : State) (e : Nat) (digest : Bool) (task : TaskId) (tokgen : Nat) :
    (s.lateResult e digest task tokgen).fuses = s.fuses := by
  unfold State.lateResult
  dsimp only
  split <;> simp

@[simp] theorem State.taskResult_fuses (s : State) (e : Nat) (digest : Bool) (task : TaskId) (tokgen : Nat)
    (ext : List Fetched) : (s.taskResult e digest task tokgen ext).fuses = s.fuses := by
  unfold State.taskResult
  split <;> simp

@[simp] theorem State.flushFailed_fuses (s : State) (j : Job) (unit : Nat) (peer : Bool) (shard : Nat) :
    (s.flushFailed j unit peer shard).fuses = s.fuses := by
  simp [State.flushFailed]

@[simp] theorem State.unitDurable_fuses (s : State) (q slot unit : Nat) (flushFail : Option Bool) :
    (s.unitDurable q slot unit flushFail).fuses = s.fuses := by
  unfold State.unitDurable
  dsimp only
  (repeat' split) <;> simp [State.flushRanges]

/-! ### Jobs and rings (Machine/Jobs.lean) -/

@[simp] theorem State.doorbell_fuses (s : State) (func ring : Nat) (f : State → Nat → State)
    (h : ∀ q, Keeps (·.fuses) (f · q)) : (s.doorbell func ring f).fuses = s.fuses := by
  unfold State.doorbell
  (repeat' split) <;> simp [show ∀ q u, (f u q).fuses = u.fuses from h]

@[simp] theorem State.doorbellError_fuses (s : State) (q : Nat) : (s.doorbellError q).fuses = s.fuses := by
  simp [State.doorbellError]

@[simp] theorem State.sqTail_fuses (s : State) (v q : Nat) : (s.sqTail v q).fuses = s.fuses := by simp [State.sqTail]

@[simp] theorem State.cqHead_fuses (s : State) (v q : Nat) : (s.cqHead v q).fuses = s.fuses := by simp [State.cqHead]

@[simp] theorem State.cqWrite_fuses (s : State) (q : Nat) (entry : Nat → List Byte) :
    (s.cqWrite q entry).fuses = s.fuses := by
  simp [State.cqWrite]

@[simp] theorem State.ringMessage_fuses (s : State) (q : Nat) : (s.ringMessage q).fuses = s.fuses := by
  simp [State.ringMessage]

@[simp] theorem State.cqSignal_fuses (s : State) (q : Nat) (irq : Bool) : (s.cqSignal q irq).fuses = s.fuses := by
  simp [State.cqSignal]

@[simp] theorem State.recComplete_fuses (s : State) (q slot status : Nat) :
    (s.recComplete q slot status).fuses = s.fuses := by
  simp [State.recComplete]

@[simp] theorem State.jobComplete_fuses (s : State) (q slot : Nat) : (s.jobComplete q slot).fuses = s.fuses := by
  unfold State.jobComplete
  (repeat' split) <;> simp [State.releaseFence, State.completeJob]

@[simp] theorem State.coalExpire_fuses (s : State) (q : Nat) : (s.coalExpire q).fuses = s.fuses := by
  simp [State.coalExpire]

@[simp] theorem State.sealStart_fuses (s : State) (q slot : Nat) : (s.sealStart q slot).fuses = s.fuses := by
  unfold State.sealStart
  split <;> simp

@[simp] theorem State.fencePass_fuses (s : State) (q slot : Nat) : (s.fencePass q slot).fuses = s.fuses := by
  unfold State.fencePass
  split <;> simp

@[simp] theorem State.entryAdd_fuses (s : State) (q slot : Nat) (ok : Bool) :
    (s.entryAdd q slot ok).fuses = s.fuses := by
  unfold State.entryAdd
  (repeat' split) <;> simp [State.addEntry]

@[simp] theorem State.sluice_fuses (s : State) (q : Nat) (mine : Packet → Bool) :
    (s.sluice q mine).fuses = s.fuses := by
  unfold State.sluice
  dsimp only
  split <;> simp

@[simp] theorem State.abortUnits_fuses (s : State) (j : Job) : (s.abortUnits j).fuses = s.fuses := by
  simp [State.abortUnits, State.dropTasks]

@[simp] theorem State.cancelMiss_fuses (s : State) (q : Nat) : (s.cancelMiss q).fuses = s.fuses := by
  simp [State.cancelMiss]

@[simp] theorem State.cancelJob_fuses (s : State) (q slot gen : Nat) : (s.cancelJob q slot gen).fuses = s.fuses := by
  unfold State.cancelJob
  split <;> simp

@[simp] theorem State.cancelWrite_fuses (s : State) (func q v : Nat) : (s.cancelWrite func q v).fuses = s.fuses := by
  simp [State.cancelWrite]

@[simp] theorem State.ringEnable_fuses (s : State) (func q : Nat) (en : Bool) :
    (s.ringEnable func q en).fuses = s.fuses := by
  simp [State.ringEnable, State.completeInterrupted, State.writeInterrupted]

@[simp] theorem State.ringReject_fuses (s : State) (q : Nat) : (s.ringReject q).fuses = s.fuses := by
  simp [State.ringReject]

@[simp] theorem State.ringCold_fuses (s : State) (q : Nat) (fs : List FN) : (s.ringCold q fs).fuses = s.fuses := by
  simp [State.ringCold]

@[simp] theorem State.ringFresh_fuses (s : State) (q : Nat) : (s.ringFresh q).fuses = s.fuses := by
  simp [State.ringFresh]

@[simp] theorem State.ringReset_fuses (s : State) (func q : Nat) : (s.ringReset func q).fuses = s.fuses := by
  simp [State.ringReset]

@[simp] theorem State.ringDropInt_fuses (s : State) (func q : Nat) : (s.ringDropInt func q).fuses = s.fuses := by
  simp [State.ringDropInt]

@[simp] theorem State.ringFlr_fuses (s : State) (q : Nat) : (s.ringFlr q).fuses = s.fuses := by simp [State.ringFlr]

@[simp] theorem State.funcPciReset_fuses (s : State) (f : Nat) : (s.funcPciReset f).fuses = s.fuses := by
  simp [State.funcPciReset]

@[simp] theorem State.resetFunc_fuses (s : State) (f : Nat) : (s.resetFunc f).fuses = s.fuses := by
  simp [State.resetFunc]

@[simp] theorem State.flr_fuses (s : State) (f : Nat) : (s.flr f).fuses = s.fuses := by
  unfold State.flr
  split
  · rfl
  · dsimp only
    rw [State.raise_fuses]
    split
    · rw [State.set_fuses, foldl_fuses _ fun v s => s.resetFunc_fuses v]
    · exact s.resetFunc_fuses f

@[simp] theorem State.haltJobs_fuses (s : State) : s.haltJobs.fuses = s.fuses := by simp [State.haltJobs]

@[simp] theorem State.stopJobs_fuses (s : State) (st : Status) (cause : Nat) (which : Job → Bool) :
    (s.stopJobs st cause which).fuses = s.fuses := by
  simp [State.stopJobs]

@[simp] theorem State.dropJobs_fuses (s : State) : s.dropJobs.fuses = s.fuses := by simp [State.dropJobs]

@[simp] theorem State.enginesOff_fuses (s : State) : s.enginesOff.fuses = s.fuses := by simp [State.enginesOff]

@[simp] theorem State.fabricOff_fuses (s : State) : s.fabricOff.fuses = s.fuses := by simp [State.fabricOff]

end Sys2Proof.Machine
end

section
/-! SUPPORT. Operations that leave the fuse array alone: SPDM, the mailbox and the link.
One lemma for each operation, in the order of the definitions; a helper of one operation unfolds with it. `_fuses`: all of
the fuses stay; `_cells`: the blown bits do (a start decides anew which repairs are in force, R366). -/

namespace Sys2Proof.Machine

/-! ### SPDM, IDE and the Tarn (Machine/Trust.lean) -/

@[simp] theorem State.deriveHeld_fuses (s : State) : s.deriveHeld.fuses = s.fuses := by simp [State.deriveHeld]

@[simp] theorem State.doeReply_fuses (s : State) (type : Nat) (bytes : List Byte) (o : Out) :
    (s.doeReply type bytes o).fuses = s.fuses := by
  simp [State.doeReply]

@[simp] theorem State.spdmOut_fuses (s : State) (t : Transport) (body : List Byte) :
    (s.spdmOut t body).fuses = s.fuses := by
  unfold State.spdmOut
  split <;> simp

@[simp] theorem State.spdmSend_fuses (s : State) (t : Transport) (code : Nat) (content : List Byte) :
    (s.spdmSend t code content).fuses = s.fuses := by
  simp [State.spdmSend]

@[simp] theorem State.spdmError_fuses (s : State) (t : Transport) (err : Nat) : (s.spdmError t err).fuses = s.fuses := by
  simp [State.spdmError]

@[simp] theorem State.spdmServe_fuses (s : State) (t : Transport) (f : State → State) (h : Keeps (·.fuses) f) :
    (s.spdmServe t f).fuses = s.fuses := by
  simp [State.spdmServe, h _]

@[simp] theorem State.spdmNegotiated_fuses (s : State) (t : Transport) (f : State → State) (h : Keeps (·.fuses) f) :
    (s.spdmNegotiated t f).fuses = s.fuses := by
  simp [State.spdmNegotiated, h _]

@[simp] theorem State.spdmKeyed_fuses (s : State) (t : Transport) (f : State → State) (h : Keeps (·.fuses) f) :
    (s.spdmKeyed t f).fuses = s.fuses := by
  simp [State.spdmKeyed, h _]

@[simp] theorem State.spdmSign_fuses (s : State) (t : Transport) (code : Nat) (content : List Byte) :
    (s.spdmSign t code content).fuses = s.fuses := by
  simp [State.spdmSign]

@[simp] theorem State.inSession_fuses (s : State) (t : Transport) (id : Nat) (f : State → SpdmSession → State)
    (h : ∀ x, Keeps (·.fuses) (f · x)) : (s.inSession t id f).fuses = s.fuses := by
  refine State.spdmServe_fuses _ _ _ (fun s => ?_)
  dsimp only
  split
  · next x _ => simp [h x s]
  · simp

@[simp] theorem State.dropSessions_fuses (s : State) (p : SpdmSession → Bool) : (s.dropSessions p).fuses = s.fuses := by
  simp [State.dropSessions]

@[simp] theorem State.inSecure_fuses (s : State) (t : Transport) (id : Nat) (f : State → SpdmSession → State)
    (h : ∀ x, Keeps (·.fuses) (f · x)) : (s.inSecure t id f).fuses = s.fuses := by
  simp [State.inSecure, show ∀ x u, (f u x).fuses = u.fuses from h]

@[simp] theorem State.ideKm_fuses (s : State) (t : Transport) (session : Option Nat) (f : State → State)
    (stream keySet : Nat) (h : Keeps (·.fuses) f) : (s.ideKm t session f stream keySet).fuses = s.fuses := by
  refine State.spdmServe_fuses _ _ _ (fun s => ?_)
  dsimp only
  split <;> simp [h s]

@[simp] theorem State.spdmVersion_fuses (s : State) (t : Transport) : (s.spdmVersion t).fuses = s.fuses := by
  simp [State.spdmVersion]

@[simp] theorem State.spdmCapabilities_fuses (s : State) (t : Transport) (version : Nat) :
    (s.spdmCapabilities t version).fuses = s.fuses := by
  simp [State.spdmCapabilities]

@[simp] theorem State.spdmAlgorithms_fuses (s : State) (t : Transport) (suiteOffered : Bool) :
    (s.spdmAlgorithms t suiteOffered).fuses = s.fuses := by
  simp [State.spdmAlgorithms]

@[simp] theorem State.spdmDigests_fuses (s : State) (t : Transport) : (s.spdmDigests t).fuses = s.fuses := by
  simp [State.spdmDigests]

@[simp] theorem State.getCertificate_fuses (s : State) (t : Transport) (slot offset length : Nat) :
    (s.getCertificate t slot offset length).fuses = s.fuses := by
  simp [State.getCertificate]

@[simp] theorem State.challenge_fuses (s : State) (t : Transport) (slot : Nat) (nonce : List Byte) :
    (s.challenge t slot nonce).fuses = s.fuses := by
  simp [State.challenge]

@[simp] theorem State.getMeasurements_fuses (s : State) (t : Transport) (index : Nat) (signed : Bool)
    (nonce : List Byte) : (s.getMeasurements t index signed nonce).fuses = s.fuses := by
  simp [State.getMeasurements]

@[simp] theorem State.keyExchange_fuses (s : State) (t : Transport) (slot reqSession : Nat) (exchangeData : List Byte)
    :
    (s.keyExchange t slot reqSession exchangeData).fuses = s.fuses := by
  refine State.spdmKeyed_fuses _ _ _ (fun s => ?_)
  dsimp only
  (repeat' split) <;> simp

@[simp] theorem State.spdmFinish_fuses (s : State) (t : Transport) (session : Nat) (verifyData : List Byte) :
    (s.spdmFinish t session verifyData).fuses = s.fuses := by
  simp [State.spdmFinish]

@[simp] theorem State.spdmKeyUpdate_fuses (s : State) (t : Transport) (session : Nat) :
    (s.spdmKeyUpdate t session).fuses = s.fuses := by
  simp [State.spdmKeyUpdate]

@[simp] theorem State.spdmEndSession_fuses (s : State) (t : Transport) (session : Nat) :
    (s.spdmEndSession t session).fuses = s.fuses := by
  simp [State.spdmEndSession]

@[simp] theorem State.spdmChunk_fuses (s : State) (t : Transport) (bytes : List Byte) :
    (s.spdmChunk t bytes).fuses = s.fuses := by
  simp [State.spdmChunk]

@[simp] theorem State.spdmChunkGet_fuses (s : State) (t : Transport) (seq : Nat) :
    (s.spdmChunkGet t seq).fuses = s.fuses := by
  simp [State.spdmChunkGet]

@[simp] theorem State.spdmVendor_fuses (s : State) (t : Transport) (session : Option Nat) (ideKm : Bool) :
    (s.spdmVendor t session ideKm).fuses = s.fuses := by
  simp [State.spdmVendor]

@[simp] theorem State.ideKeyProg_fuses (s : State) (t : Transport) (session : Option Nat)
    (stream keySet subStream : Nat) (key : List Byte) :
    (s.ideKeyProg t session stream keySet subStream key).fuses = s.fuses := by
  simp [State.ideKeyProg]

@[simp] theorem State.ideSetGo_fuses (s : State) (t : Transport) (session : Option Nat) (stream keySet : Nat) :
    (s.ideSetGo t session stream keySet).fuses = s.fuses := by
  simp [State.ideSetGo]

@[simp] theorem State.ideSetStop_fuses (s : State) (t : Transport) (session : Option Nat) (stream keySet : Nat) :
    (s.ideSetStop t session stream keySet).fuses = s.fuses := by
  simp [State.ideSetStop]

@[simp] theorem State.ideQuery_fuses (s : State) (t : Transport) (session : Option Nat) :
    (s.ideQuery t session).fuses = s.fuses := by
  simp [State.ideQuery]

@[simp] theorem State.asSecured_fuses (s : State) (t : Transport) (session : Option Nat) :
    (s.asSecured t session).fuses = s.fuses := by
  simp [State.asSecured]

@[simp] theorem State.spdmRun_fuses (s : State) (t : Transport) (a : SpdmReq) : (s.spdmRun t a).fuses = s.fuses := by
  unfold State.spdmRun
  split <;> simp

@[simp] theorem State.spdmDrain_fuses (s : State) (fuel : Nat) : (s.spdmDrain fuel).fuses = s.fuses := by
  induction fuel generalizing s with
  | zero => rfl
  | succ fuel ih =>
    unfold State.spdmDrain
    (repeat' split) <;> simp [ih]

@[simp] theorem State.spdmQueue_fuses (s : State) (rs : List (Transport × SpdmReq)) :
    (s.spdmQueue rs).fuses = s.fuses := by
  simp [State.spdmQueue]

@[simp] theorem State.spdmRequest_fuses (s : State) (t : Transport) (r : SpdmReq) :
    (s.spdmRequest t r).fuses = s.fuses := by
  simp [State.spdmRequest]

@[simp] theorem State.chunksTaken_fuses (s : State) (t : Transport) (whole : Option SpdmReq) :
    (s.chunksTaken t whole).fuses = s.fuses := by
  simp [State.chunksTaken]

@[simp] theorem State.signSpdm_fuses (s : State) : s.signSpdm.fuses = s.fuses := by
  unfold State.signSpdm
  dsimp only
  (repeat' split) <;> simp [State.batchesWait]

@[simp] theorem State.signOne_fuses (s : State) (f : Nat) (slotWriteOk : Bool) :
    (s.signOne f slotWriteOk).fuses = s.fuses := by
  have hsign := s.signBatch_fuses f slotWriteOk
  unfold State.signOne
  split
  · next h => rw [h] at hsign; split <;> simpa using hsign
  · next h => rw [h] at hsign; exact hsign

@[simp] theorem State.readFailed_fuses (s : State) (r : TagUse) : (s.readFailed r).fuses = s.fuses := by
  unfold State.readFailed
  (repeat' split) <;> simp

@[simp] theorem State.streamInsecure_fuses (s : State) (n : Nat) : (s.streamInsecure n).fuses = s.fuses := by
  simp [State.streamInsecure, State.streamReadsFail]

@[simp] theorem State.ideFail_fuses (s : State) (n bit : Nat) : (s.ideFail n bit).fuses = s.fuses := by
  simp [State.ideFail]

@[simp] theorem State.tlpGuard_fuses (s : State) (func : Nat) (nonPosted : Bool) (tlp : Tlp) (f : State → State)
    (h : Keeps (·.fuses) f) : (s.tlpGuard func nonPosted tlp f).fuses = s.fuses := by
  unfold State.tlpGuard
  split <;> simp [State.ideFail, h _]

@[simp] theorem State.tarnAccess_fuses (s : State) (addr : Nat) (x : Option (BitVec 64)) :
    (s.tarnAccess addr x).fuses = s.fuses := by
  unfold State.tarnAccess
  split <;> simp

@[simp] theorem State.tarnCollision_fuses (s : State) (addr : Nat) (a b : Option (BitVec 64)) :
    (s.tarnCollision addr a b).fuses = s.fuses := by
  unfold State.tarnCollision
  (repeat' split) <;> simp

@[simp] theorem State.clearTarn_fuses (s : State) : s.clearTarn.fuses = s.fuses := by
  simp [State.clearTarn, State.clearSealRegs]

@[simp] theorem State.wipe_fuses (s : State) : s.wipe.fuses = s.fuses := by
  grind [State.wipe, State.dropJobs_fuses, State.clearTarn_fuses, State.set_fuses, State.satInc_fuses,
    State.lakeInvalidate_fuses, State.dropTraffic_fuses]

/-! ### What a start senses (Machine/Otp.lean) -/

@[simp] theorem State.decideLc_fuses (s : State) : s.decideLc.fuses = s.fuses := by simp [State.decideLc]

@[simp] theorem State.senseRegion_fuses (s : State) (margins : List Nat) (r : Nat) :
    (s.senseRegion margins r).fuses = s.fuses := by
  simp [State.senseRegion]

@[simp] theorem State.senseShadows_fuses (s : State) (margins : List Nat) :
    (s.senseShadows margins).fuses = s.fuses := by
  simp [State.senseShadows]

@[simp] theorem State.applyRepairs_cells (s : State) : s.applyRepairs.fuses.cells = s.fuses.cells := by
  simp [State.applyRepairs]

@[simp] theorem State.applyTrimLimits_fuses (s : State) : s.applyTrimLimits.fuses = s.fuses := by
  simp [State.applyTrimLimits]

@[simp] theorem State.senseOtp_cells (s : State) (margins : List Nat) :
    (s.senseOtp margins).fuses.cells = s.fuses.cells := by
  simp [State.senseOtp]

/-! ### Self-test (Machine/Bist.lean) -/

@[simp] theorem State.bistClear_fuses (s : State) : s.bistClear.fuses = s.fuses := by simp [State.bistClear]

@[simp] theorem State.bistLog_fuses (s : State) (n : Nat) (fails : List BistFailure) :
    (s.bistLog n fails).fuses = s.fuses := by
  induction fails generalizing s n with
  | nil => rfl
  | cons f fs ih => simp [State.bistLog, ih]

@[simp] theorem State.bistTestEnd_fuses (s : State) (fails : List BistFailure) (t : Nat) :
    (s.bistTestEnd fails t).fuses = s.fuses := by
  simp [State.bistTestEnd]

@[simp] theorem State.bistEffects_fuses (s : State) (x : BistRun) : (s.bistEffects x).fuses = s.fuses := by
  simp [State.bistEffects]

@[simp] theorem State.bistDomain_fuses (s : State) (on : Bool) : (s.bistDomain on).fuses = s.fuses := by
  simp [State.bistDomain]

@[simp] theorem State.bistHolds_fuses (s : State) (x : BistRun) : (s.bistHolds x).fuses = s.fuses := by
  simp [State.bistHolds, State.showHeldLayers]

@[simp] theorem State.bistCheck_fuses (s : State) : s.bistCheck.fuses = s.fuses := by
  unfold State.bistCheck
  split <;> simp

@[simp] theorem State.bistEnd_fuses (s : State) (r : BistReport) (us : Nat) : (s.bistEnd r us).fuses = s.fuses := by
  unfold State.bistEnd
  split <;> simp

@[simp] theorem State.bistAbort_fuses (s : State) : s.bistAbort.fuses = s.fuses := by
  unfold State.bistAbort
  split <;> simp

/-! ### The mailbox (Machine/Mailbox.lean) -/

@[simp] theorem State.mboxPut_fuses (s : State) (o : Nat) (bytes : List Byte) : (s.mboxPut o bytes).fuses = s.fuses := by
  simp [State.mboxPut]

@[simp] theorem State.mboxEnd_fuses (s : State) (result : Nat) (output : List Byte) :
    (s.mboxEnd result output).fuses = s.fuses := by
  unfold State.mboxEnd
  dsimp only
  simp

@[simp] theorem State.mboxRun_fuses (s : State) (cmd result : Nat) (output : List Byte) (otp : Option OtpRun) :
    (s.mboxRun cmd result output otp).state.fuses = s.fuses := by
  simp [State.mboxRun]

@[simp] theorem State.mboxGo_fuses (s : State) (cmd : Nat) (input : List Byte) (f : State → MboxStart)
    (h : ∀ u, (f u).state.fuses = u.fuses) : (s.mboxGo cmd input f).fuses = s.fuses := by
  unfold State.mboxGo
  dsimp only
  (repeat' split) <;> simp [h _]

@[simp] theorem State.signedCmd_fuses (s : State) (cmd : Nat) (label : String) (input : List Byte) (n : Nat)
    (lenOk permitted limit : Bool) (key : Option (List Byte)) (go : State → MboxStart)
    (h : ∀ u, (go u).state.fuses = u.fuses) :
    (s.signedCmd cmd label input n lenOk permitted limit key go).state.fuses = s.fuses := by
  unfold State.signedCmd
  dsimp only
  (repeat' split) <;> simp [h _]

@[simp] theorem State.startProgram_fuses (s : State) (cmd : Nat) (output : List Byte) (todo : List Nat)
    (env : OtpEnv) : (s.startProgram cmd output todo env).state.fuses = s.fuses := by
  unfold State.startProgram
  split <;> simp

@[simp] theorem State.copyShadow_fuses (s : State) (bits : List Nat) : (s.copyShadow bits).fuses = s.fuses := by
  simp [State.copyShadow, State.shadowSet]

@[simp] theorem State.otpFailed_fuses (s : State) : s.otpFailed.fuses = s.fuses := by simp [State.otpFailed]

@[simp] theorem State.otpResult_fuses (s : State) (cmd result : Nat) (output : List Byte) :
    (s.otpResult cmd result output).fuses = s.fuses := by
  simp [State.otpResult]

@[simp] theorem State.otpLate_fuses (s : State) : s.otpLate.fuses = s.fuses := by
  unfold State.otpLate
  split <;> simp

@[simp] theorem State.lifeChange_fuses (s : State) (cmd : Nat) : (s.lifeChange cmd).fuses = s.fuses := by
  simp [State.lifeChange]

@[simp] theorem State.cmdNonce_fuses (s : State) (input : List Byte) : (s.cmdNonce input).state.fuses = s.fuses := by
  unfold State.cmdNonce
  split <;> simp

@[simp] theorem State.cmdWrapKey_fuses (s : State) (input : List Byte) :
    (s.cmdWrapKey input).state.fuses = s.fuses := by
  unfold State.cmdWrapKey
  dsimp only
  (repeat' split) <;> simp

@[simp] theorem State.cmdLoad_fuses (s : State) (input : List Byte) : (s.cmdLoad input).state.fuses = s.fuses := by
  unfold State.cmdLoad
  dsimp only
  (repeat' split) <;> simp [State.loadKey]

@[simp] theorem State.cmdUnload_fuses (s : State) (input : List Byte) :
    (s.cmdUnload input).state.fuses = s.fuses := by
  unfold State.cmdUnload
  dsimp only
  (repeat' split) <;> simp [State.unloadKey]

@[simp] theorem State.cmdUnknown_fuses (s : State) (cmd : Nat) : (s.cmdUnknown cmd).state.fuses = s.fuses := by
  simp [State.cmdUnknown]

@[simp] theorem State.cmdBist_fuses (s : State) (input : List Byte) : (s.cmdBist input).state.fuses = s.fuses := by
  unfold State.cmdBist
  dsimp only
  (repeat' split) <;> simp [State.bistStart]

@[simp] theorem State.cmdAdvance_fuses (s : State) (input : List Byte) (env : OtpEnv) :
    (s.cmdAdvance input env).state.fuses = s.fuses := by
  simp [State.cmdAdvance]

@[simp] theorem State.cmdOwner_fuses (s : State) (input : List Byte) (env : OtpEnv) :
    (s.cmdOwner input env).state.fuses = s.fuses := by
  simp [State.cmdOwner]

@[simp] theorem State.cmdArb_fuses (s : State) (input : List Byte) (env : OtpEnv) :
    (s.cmdArb input env).state.fuses = s.fuses := by
  simp [State.cmdArb]

@[simp] theorem State.cmdUds_fuses (s : State) (input : List Byte) (env : OtpEnv) :
    (s.cmdUds input env).state.fuses = s.fuses := by
  simp [State.cmdUds]

@[simp] theorem State.cmdProgram_fuses (s : State) (input : List Byte) (env : OtpEnv) :
    (s.cmdProgram input env).state.fuses = s.fuses := by
  simp [State.cmdProgram]

@[simp] theorem State.cmdLock_fuses (s : State) (input : List Byte) (env : OtpEnv) :
    (s.cmdLock input env).state.fuses = s.fuses := by
  refine State.signedCmd_fuses _ _ _ _ _ _ _ _ _ _ fun u => ?_
  split <;> simp

@[simp] theorem State.mboxStart_fuses (s : State) (cmd : Nat) (input : List Byte) (env : OtpEnv) :
    (s.mboxStart cmd input env).state.fuses = s.fuses := by
  unfold State.mboxStart
  split <;> simp

@[simp] theorem State.recordsReset_fuses (s : State) : s.recordsReset.fuses = s.fuses := by simp [State.recordsReset]

@[simp] theorem State.keyRequestsReset_fuses (s : State) : s.keyRequestsReset.fuses = s.fuses := by
  simp [State.keyRequestsReset]

/-! ### The link (Machine/Pcie.lean) -/

@[simp] theorem State.showPrecode_fuses (s : State) (precodeTx : Nat) : (s.showPrecode precodeTx).fuses = s.fuses := by
  simp [State.showPrecode]

@[simp] theorem State.showDegraded_fuses (s : State) : s.showDegraded.fuses = s.fuses := by simp [State.showDegraded]

@[simp] theorem State.rejudge_fuses (s : State) : s.rejudge.fuses = s.fuses := by simp [State.rejudge]

@[simp] theorem State.linkError_fuses (s : State) (e : LinkError) : (s.linkError e).fuses = s.fuses := by
  unfold State.linkError
  split <;> simp

@[simp] theorem State.linkMet_fuses (s : State) (t : TrainResult) : (s.linkMet t).fuses = s.fuses := by
  simp [State.linkMet]

@[simp] theorem State.laneQuads_fuses (s : State) (used : Nat) : (s.laneQuads used).fuses = s.fuses := by
  simp [State.laneQuads]

@[simp] theorem State.train_fuses (s : State) (t : TrainResult) : (s.train t).1.fuses = s.fuses := by
  simp [State.train, State.judgeLink]

@[simp] theorem State.linkGone_fuses (s : State) : s.linkGone.fuses = s.fuses := by simp [State.linkGone]

@[simp] theorem State.emitHeld_fuses (s : State) (o : Out) : (s.emitHeld o).fuses = s.fuses := by
  unfold State.emitHeld
  split <;> simp

@[simp] theorem State.releaseOut_fuses (s : State) : s.releaseOut.fuses = s.fuses := by simp [State.releaseOut]

@[simp] theorem State.recovered_fuses (s : State) (rate precodeTx : Nat) :
    (s.recovered rate precodeTx).fuses = s.fuses := by
  simp [State.recovered]

@[simp] theorem State.linkRecovery_fuses (s : State) (t : TrainResult) : (s.linkRecovery t).fuses = s.fuses := by
  simp [State.linkRecovery, State.rewidth]

@[simp] theorem State.useWidth_fuses (s : State) (w : Nat) : (s.useWidth w).fuses = s.fuses := by
  simp [State.useWidth]

@[simp] theorem State.l0pIdle_fuses (s : State) (accepted : Bool) : (s.l0pIdle accepted).fuses = s.fuses := by
  simp [State.l0pIdle]

@[simp] theorem State.l0pRequest_fuses (s : State) (w : Nat) : (s.l0pRequest w).fuses = s.fuses := by
  simp [State.l0pRequest]

@[simp] theorem State.l0pFull_fuses (s : State) (accepted : Bool) : (s.l0pFull accepted).fuses = s.fuses := by
  simp [State.l0pFull]

@[simp] theorem State.l1Entry_fuses (s : State) : s.l1Entry.fuses = s.fuses := by simp [State.l1Entry]

@[simp] theorem State.l1Exit_fuses (s : State) : s.l1Exit.fuses = s.fuses := by simp [State.l1Exit]

@[simp] theorem State.completeAll_fuses (s : State) : s.completeAll.fuses = s.fuses := by simp [State.completeAll]

@[simp] theorem State.d3hotEntry_fuses (s : State) : s.d3hotEntry.fuses = s.fuses := by simp [State.d3hotEntry]

@[simp] theorem State.d0Return_fuses (s : State) : s.d0Return.fuses = s.fuses := by simp [State.d0Return]

@[simp] theorem State.vfEnable_fuses (s : State) (en : Bool) : (s.vfEnable en).fuses = s.fuses := by
  simp [State.vfEnable]

@[simp] theorem State.busMaster_fuses (s : State) (func : Nat) (en : Bool) : (s.busMaster func en).fuses = s.fuses := by
  simp [State.busMaster]

@[simp] theorem State.serveTags_fuses (s : State) : s.serveTags.fuses = s.fuses := by
  unfold State.serveTags
  split <;> simp

@[simp] theorem State.serveAll_fuses (s : State) : s.serveAll.fuses = s.fuses := by simp [State.serveAll]

@[simp] theorem State.tagEffect_fuses (s : State) : s.tagEffect.fuses = s.fuses := by simp [State.tagEffect]

@[simp] theorem State.quarantineEnd_fuses (s : State) (t : Nat) : (s.quarantineEnd t).fuses = s.fuses := by
  simp [State.quarantineEnd]

@[simp] theorem State.tagAnswered_fuses (s : State) (r : TagUse) (c : Completion) :
    (s.tagAnswered r c).fuses = s.fuses := by
  unfold State.tagAnswered
  (repeat' split) <;> simp

@[simp] theorem State.completionGood_fuses (s : State) (t : Nat) (c : Completion) :
    (s.completionGood t c).fuses = s.fuses := by
  unfold State.completionGood
  split <;> simp

@[simp] theorem State.completion_fuses (s : State) (t : Nat) (c : Completion) (tlp : Tlp) :
    (s.completion t c tlp).fuses = s.fuses := by
  unfold State.completion
  dsimp only
  split <;> simp

@[simp] theorem State.cplTimeout_fuses (s : State) (t : Nat) : (s.cplTimeout t).fuses = s.fuses := by
  unfold State.cplTimeout
  (repeat' split) <;> simp

@[simp] theorem State.msixPending_fuses (s : State) (func vector : Nat) :
    (s.msixPending func vector).fuses = s.fuses := by
  simp [State.msixPending, State.ringsSent]

@[simp] theorem State.msixSetMask_fuses (s : State) (func vector : Nat) (v : Bool) :
    (s.msixSetMask func vector v).fuses = s.fuses := by
  simp [State.msixSetMask]

@[simp] theorem State.doeObject_fuses (s : State) (type : DoeType) (dwords : Nat) (bytes : List Byte) :
    (s.doeObject type dwords bytes).fuses = s.fuses := by
  unfold State.doeObject
  (repeat' split) <;> simp

@[simp] theorem State.doeAbort_fuses (s : State) : s.doeAbort.fuses = s.fuses := by
  simp [State.doeAbort, State.doeDrop]

@[simp] theorem State.doeGo_fuses (s : State) : s.doeGo.fuses = s.fuses := by simp [State.doeGo]

@[simp] theorem State.doeWrite_fuses (s : State) (v : Nat) : (s.doeWrite v).fuses = s.fuses := by
  simp [State.doeWrite]

@[simp] theorem State.doeNext_fuses (s : State) : s.doeNext.fuses = s.fuses := by simp [State.doeNext]

@[simp] theorem State.marginAnswer_fuses (s : State) (lane command : Nat) :
    (s.marginAnswer lane command).fuses = s.fuses := by
  unfold State.marginAnswer
  split <;> simp

/-! ### BAR2 (Machine/Bar2.lean) -/

@[simp] theorem State.bar2Hole_fuses (s : State) (func : Nat) (nonPosted : Bool) :
    (s.bar2Hole func nonPosted).fuses = s.fuses := by
  simp [State.bar2Hole]

@[simp] theorem State.bar2Open_fuses (s : State) (func : Nat) (nonPosted : Bool) (f : State → State)
    (h : Keeps (·.fuses) f) : (s.bar2Open func nonPosted f).fuses = s.fuses := by
  simp [State.bar2Open, h _]

@[simp] theorem State.bar2Serve_fuses (s : State) (func : Nat) (pieces : List (Nat × Nat × Nat)) :
    (s.bar2Serve func pieces).fuses = s.fuses := by
  simp [State.bar2Serve]

@[simp] theorem State.bar2Read_fuses (s : State) (func off len latency : Nat) :
    (s.bar2Read func off len latency).fuses = s.fuses := by
  unfold State.bar2Read
  split
  · simp
  · refine State.bar2Open_fuses _ _ _ _ (fun s => ?_)
    dsimp only
    (repeat' split) <;> simp

@[simp] theorem State.bar2Store_fuses (s : State) (pieces : List (Nat × Nat × Nat)) (func : Nat) (bytes : List Byte)
    (poisoned : Bool) : (s.bar2Store pieces func bytes poisoned).fuses = s.fuses := by
  simp [State.bar2Store]

@[simp] theorem State.bar2Write_fuses (s : State) (func off : Nat) (bytes : List Byte) (poisoned : Bool) :
    (s.bar2Write func off bytes poisoned).fuses = s.fuses := by
  unfold State.bar2Write
  dsimp only
  split
  · simp
  · refine (State.bar2Open_fuses _ _ _ _ (fun s => ?_)).trans (by simp)
    dsimp only
    split <;> simp

/-! ### Ranges of the stack memory (Machine/Ranges.lean) -/

@[simp] theorem State.writeTh_fuses (s : State) (dram image : Bool) (warn throttle shutdown hyst : Nat) :
    (s.writeTh dram image warn throttle shutdown hyst).fuses = s.fuses := by
  unfold State.writeTh
  (repeat' split) <;> simp [State.keepLevels]

end Sys2Proof.Machine
end

section
/-! SUPPORT. Operations that leave the fuse array alone: heat, faults, the image, starts and register accesses.
One lemma for each operation, in the order of the definitions; a helper of one operation unfolds with it. `_fuses`: all of
the fuses stay; `_cells`: the blown bits do (a start decides anew which repairs are in force, R366). -/

namespace Sys2Proof.Machine

/-! ### Heat and power (Machine/Thermal.lean) -/

@[simp] theorem State.showGov_fuses (s : State) (l : Nat) : (s.showGov l).fuses = s.fuses := by simp [State.showGov]

@[simp] theorem State.showAny_fuses (s : State) : s.showAny.fuses = s.fuses := by simp [State.showAny]

@[simp] theorem State.showMeas_fuses (s : State) (l : Nat) : (s.showMeas l).fuses = s.fuses := by
  unfold State.showMeas
  split <;> simp

@[simp] theorem State.calTrigger_fuses (s : State) (kind index : Nat) : (s.calTrigger kind index).fuses = s.fuses := by
  simp [State.calTrigger]

@[simp] theorem State.calCheck_fuses (s : State) (l : Nat) : (s.calCheck l).fuses = s.fuses := by
  simp [State.calCheck]

@[simp] theorem State.becomeSuspect_fuses (s : State) (l : Nat) : (s.becomeSuspect l).fuses = s.fuses := by
  simp [State.becomeSuspect]

@[simp] theorem State.sensorFails_fuses (s : State) (k : Nat) : (s.sensorFails k).fuses = s.fuses := by
  simp [State.sensorFails]

@[simp] theorem State.setTstate_fuses (s : State) (t : Nat) : (s.setTstate t).fuses = s.fuses := by
  simp [State.setTstate]

@[simp] theorem State.raisePeak_fuses (s : State) (f : FN) (v : Int) : (s.raisePeak f v).fuses = s.fuses := by
  simp [State.raisePeak]

@[simp] theorem State.warn_fuses (s : State) (dram : Bool) : (s.warn dram).fuses = s.fuses := by simp [State.warn]

@[simp] theorem State.thermalAborts_fuses (s : State) : s.thermalAborts.fuses = s.fuses := by
  simp [State.thermalAborts]

@[simp] theorem State.thermalShutdown_fuses (s : State) : s.thermalShutdown.fuses = s.fuses := by
  simp [State.thermalShutdown]

@[simp] theorem State.throttleStep_fuses (s : State) : s.throttleStep.fuses = s.fuses := by
  unfold State.throttleStep
  (repeat' split) <;> simp

@[simp] theorem State.stackCheck_fuses (s : State) : s.stackCheck.fuses = s.fuses := by
  unfold State.stackCheck
  (repeat' split) <;> simp

@[simp] theorem State.evalThermal_fuses (s : State) : s.evalThermal.fuses = s.fuses := by simp [State.evalThermal]

@[simp] theorem State.takeReading_fuses (s : State) (l : Nat) (r : Reading) :
    (s.takeReading l r).fuses = s.fuses := by
  unfold State.takeReading
  (repeat' split) <;> simp

@[simp] theorem State.sampleTakes_fuses (s : State) (l : Nat) : (s.sampleTakes l).fuses = s.fuses := by
  simp [State.sampleTakes]

@[simp] theorem State.sensorSample_fuses (s : State) (l : Nat) (readings : List Reading) :
    (s.sensorSample l readings).fuses = s.fuses := by
  simp [State.sensorSample]

@[simp] theorem State.modelUpdate_fuses (s : State) (intervalUs : Nat) (counts : List (List Nat)) :
    (s.modelUpdate intervalUs counts).fuses = s.fuses := by
  simp [State.modelUpdate, State.suspectStep]

@[simp] theorem State.graceExpire_fuses (s : State) : s.graceExpire.fuses = s.fuses := by simp [State.graceExpire]

@[simp] theorem State.suspectZero_fuses (s : State) : s.suspectZero.fuses = s.fuses := by simp [State.suspectZero]

@[simp] theorem State.quadsOn_fuses (s : State) : s.quadsOn.fuses = s.fuses := by
  refine foldl_fuses _ (fun q s => ?_) _ _
  dsimp only
  split <;> simp

@[simp] theorem State.resume_fuses (s : State) : s.resume.fuses = s.fuses := by simp [State.resume]

@[simp] theorem State.powerPeriodEnd_fuses (s : State) (deciWatts : Nat) :
    (s.powerPeriodEnd deciWatts).fuses = s.fuses := by
  simp [State.powerPeriodEnd]

@[simp] theorem State.windowBoundary_fuses (s : State) : s.windowBoundary.fuses = s.fuses := by
  simp [State.windowBoundary, State.weirScale, State.latencySteps, State.weirBoundary]

/-! ### Calibration (Machine/Calib.lean) -/

@[simp] theorem State.showCal_fuses (s : State) : s.showCal.fuses = s.fuses := by simp [State.showCal]

@[simp] theorem State.putTarget_fuses (s : State) (t : CalTarget) : (s.putTarget t).fuses = s.fuses := by
  simp [State.putTarget]

@[simp] theorem State.runHeld_fuses (s : State) (kind index : Nat) : (s.runHeld kind index).fuses = s.fuses := by
  simp [State.runHeld]

@[simp] theorem State.calRunStart_fuses (s : State) (kind index : Nat) :
    (s.calRunStart kind index).fuses = s.fuses := by
  unfold State.calRunStart
  split <;> simp

@[simp] theorem State.calWriteCheck_fuses (s : State) : s.calWriteCheck.fuses = s.fuses := by
  simp [State.calWriteCheck]

@[simp] theorem State.calWriteEnd_fuses (s : State) (ok : Bool) : (s.calWriteEnd ok).fuses = s.fuses := by
  unfold State.calWriteEnd
  split <;> simp

@[simp] theorem State.calRunEnd_fuses (s : State) (kind index trim : Nat) :
    (s.calRunEnd kind index trim).fuses = s.fuses := by
  unfold State.calRunEnd
  split <;> simp

@[simp] theorem State.calForce_fuses (s : State) : s.calForce.fuses = s.fuses := by simp [State.calForce]

/-! ### The Dredge (Machine/Dredge.lean) -/

@[simp] theorem State.setPass_fuses (s : State) (p : Pass) : (s.setPass p).fuses = s.fuses := by simp [State.setPass]

@[simp] theorem State.dredgePiece_fuses (s : State) : s.dredgePiece.fuses = s.fuses := by
  unfold State.dredgePiece
  dsimp only
  (repeat' split) <;> simp

@[simp] theorem State.dredgeRead_fuses (s : State) (p : Pass) (pc a : Nat) (err1 err2 : List Byte) :
    (s.dredgeRead p pc a err1 err2).1.fuses = s.fuses := by
  unfold State.dredgeRead
  dsimp only
  split <;> simp [State.sliceWrite, State.dredgeRequest]

@[simp] theorem State.pieceEnd_fuses (s : State) (p : Pass) : (s.pieceEnd p).fuses = s.fuses := by
  unfold State.pieceEnd
  dsimp only
  (repeat' split) <;> simp

@[simp] theorem State.dredgeLine_fuses (s : State) (err1 err2 : List Byte) :
    (s.dredgeLine err1 err2).fuses = s.fuses := by
  unfold State.dredgeLine
  split <;> simp

@[simp] theorem State.dredgeGo_fuses (s : State) : s.dredgeGo.fuses = s.fuses := by simp [State.dredgeGo]

@[simp] theorem State.dredgeStop_fuses (s : State) : s.dredgeStop.fuses = s.fuses := by simp [State.dredgeStop]

@[simp] theorem State.dredgeDone_fuses (s : State) : s.dredgeDone.fuses = s.fuses := by
  unfold State.dredgeDone
  dsimp only
  (repeat' split) <;> simp [State.dropPass]

@[simp] theorem State.roundEnd_fuses (s : State) (p : Pass) : (s.roundEnd p).fuses = s.fuses := by
  unfold State.roundEnd
  dsimp only
  split <;> simp

@[simp] theorem State.dredgeRoundDone_fuses (s : State) : s.dredgeRoundDone.fuses = s.fuses := by
  unfold State.dredgeRoundDone
  split <;> simp

/-! ### The effects of faults, and rails (Machine/FaultCmds.lean) -/

@[simp] theorem State.clockStop_fuses (s : State) (writeBack : Bool) : (s.clockStop writeBack).fuses = s.fuses := by
  simp [State.clockStop]

@[simp] theorem State.fatalActions_fuses (s : State) : s.fatalActions.fuses = s.fuses := by simp [State.fatalActions]

@[simp] theorem State.withFatal_fuses (s : State) (f : State → State) (h : Keeps (·.fuses) f) :
    (s.withFatal f).fuses = s.fuses := by
  simp [State.withFatal, h _]

@[simp] theorem State.sectorLost_fuses (s : State) (slice a : Nat) : (s.sectorLost slice a).fuses = s.fuses := by
  unfold State.sectorLost
  split <;> simp

@[simp] theorem State.sectorAgain_fuses (s : State) (slice a : Nat) : (s.sectorAgain slice a).fuses = s.fuses := by
  unfold State.sectorAgain
  split <;> simp

@[simp] theorem State.blockSet_fuses (s : State) (slice a : Nat) : (s.blockSet slice a).fuses = s.fuses := by
  simp [State.blockSet]

@[simp] theorem State.sliceEffects_fuses (s : State) (slice arg loc : Nat) :
    (s.sliceEffects slice arg loc).fuses = s.fuses := by
  unfold State.sliceEffects
  dsimp only
  (repeat' split) <;> simp

@[simp] theorem State.tarnLost_fuses (s : State) (func arg : Nat) : (s.tarnLost func arg).fuses = s.fuses := by
  simp [State.tarnLost]

@[simp] theorem State.descriptorLost_fuses (s : State) (q slot : Nat) :
    (s.descriptorLost q slot).fuses = s.fuses := by
  unfold State.descriptorLost
  split
  · rfl
  · next h => simpa using State.takeFetch_fuses h

@[simp] theorem State.pathLost_fuses (s : State) (q slot : Nat) : (s.pathLost q slot).fuses = s.fuses := by
  unfold State.pathLost
  split <;> simp

@[simp] theorem State.containEffects_fuses (s : State) (source arg detail : Nat) :
    (s.containEffects source arg detail).fuses = s.fuses := by
  simp [State.containEffects]

@[simp] theorem State.fActionsEnd_fuses (s : State) : s.fActionsEnd.fuses = s.fuses := by simp [State.fActionsEnd]

@[simp] theorem State.fltRelease_fuses (s : State) (v : Nat) : (s.fltRelease v).fuses = s.fuses := by
  simp [State.fltRelease]

@[simp] theorem State.clockOpened_fuses (s : State) (source : Nat) : (s.clockOpened source).fuses = s.fuses := by
  simp [State.clockOpened]

@[simp] theorem State.crystalFail_fuses (s : State) : s.crystalFail.fuses = s.fuses := by simp [State.crystalFail]

@[simp] theorem State.pllUnlock_fuses (s : State) (p : Pll) : (s.pllUnlock p).fuses = s.fuses := by
  simp [State.pllUnlock]

@[simp] theorem State.stackRailLow_fuses (s : State) : s.stackRailLow.fuses = s.fuses := by simp [State.stackRailLow]

@[simp] theorem State.unpowered_cells (s : State) : s.unpowered.fuses.cells = s.fuses.cells := by
  simp [State.unpowered]

@[simp] theorem State.flashCut_fuses (s : State) : s.flashCut.fuses = s.fuses := by
  unfold State.flashCut
  split <;> simp

@[simp] theorem State.aonOnly_cells (s : State) : s.aonOnly.fuses.cells = s.fuses.cells := by simp [State.aonOnly]

@[simp] theorem State.vddCoreLoss_cells (s : State) : s.vddCoreLoss.fuses.cells = s.fuses.cells := by
  unfold State.vddCoreLoss
  split <;> simp

/-! ### Time (Machine/Idle.lean) -/

@[simp] theorem State.countSome_fuses (s : State) (block kind inst add : Nat) :
    (s.countSome block kind inst add).fuses = s.fuses := by
  simp [State.countSome]

@[simp] theorem State.tick_fuses (s : State) : s.tick.fuses = s.fuses := by
  simp [State.tick, State.countTime, State.countPayload, State.countMicro]

/-! ### The configuration image (Machine/Image.lean) -/

@[simp] theorem State.profileClear_fuses (s : State) (n : Nat) : (s.profileClear n).fuses = s.fuses := by
  simp [State.profileClear]

@[simp] theorem State.profileRecord_fuses (s : State) (taken : List Nat) (r : List Byte) :
    (s.profileRecord taken r).1.fuses = s.fuses := by
  unfold State.profileRecord
  split
  · dsimp only
    rw [State.wrapInc_fuses, State.set_fuses, State.set_fuses, State.set_fuses, State.profileClear_fuses]
  · dsimp only
    split
    · simp
    · rw [State.set_fuses, State.set_fuses, State.profileClear_fuses, State.raise_fuses, State.satInc_fuses]

@[simp] theorem State.loadProfiles_fuses (s : State) (rs : List (List Byte)) : (s.loadProfiles rs).fuses = s.fuses := by
  simp [State.loadProfiles]

@[simp] theorem State.put_fuses (s : State) (f : FN) (v i : Nat) : (s.put f v i).fuses = s.fuses := by
  simp [State.put, State.store]

@[simp] theorem State.imageRing_fuses (s : State) (q : Nat) : (s.imageRing q).fuses = s.fuses := by
  unfold State.imageRing
  split <;> simp

@[simp] theorem State.imageFunc_fuses (s : State) (f : Nat) : (s.imageFunc f).fuses = s.fuses := by
  simp [State.imageFunc]

@[simp] theorem State.imagePort_fuses (s : State) (p : Nat) : (s.imagePort p).fuses = s.fuses := by
  unfold State.imagePort
  split <;> simp

@[simp] theorem State.putBasin_fuses (s : State) (r : List Byte) : (s.putBasin r).fuses = s.fuses := by
  simp [State.putBasin]

@[simp] theorem State.imageBasins_fuses (s : State) : s.imageBasins.fuses = s.fuses := by simp [State.imageBasins]

@[simp] theorem State.imageGroups_fuses (s : State) : s.imageGroups.fuses = s.fuses := by
  simp [State.imageGroups, State.imageGroup]

/-! ### Starts (Machine/Starts.lean) -/

@[simp] theorem State.coldFields_fuses (s : State) (fs : List FN) : (s.coldFields fs).fuses = s.fuses := by
  simp [State.coldFields]

@[simp] theorem State.showLast_fuses (s : State) : s.showLast.fuses = s.fuses := by
  unfold State.showLast
  split <;> simp

@[simp] theorem State.bootLog_fuses (s : State) (env : StartEnv) (n : LogNote) : (s.bootLog env n).fuses = s.fuses := by
  simp [State.bootLog]

@[simp] theorem State.chooseSlot_fuses (s : State) : s.chooseSlot.1.fuses = s.fuses := by
  simp [State.chooseSlot, State.dropMarks]

@[simp] theorem State.trainOnce_fuses (s : State) (env : StartEnv) : (s.trainOnce env).fuses = s.fuses := by
  simp [State.trainOnce]

@[simp] theorem State.recoveryMode_fuses (s : State) (env : StartEnv) (step reason : Nat) :
    (s.recoveryMode env step reason).fuses = s.fuses := by
  simp [State.recoveryMode, State.recoveryImage]

@[simp] theorem State.markSlot_fuses (s : State) (k : Nat) : (s.markSlot k).fuses = s.fuses := by
  simp [State.markSlot]

@[simp] theorem State.countFailure_fuses (s : State) (used : Option Nat) : (s.countFailure used).fuses = s.fuses := by
  unfold State.countFailure
  dsimp only
  (repeat' split) <;> simp

@[simp] theorem State.failStart_fuses (s : State) (env : StartEnv) (used : Option Nat) (step reason detail : Nat) :
    (s.failStart env used step reason detail).fuses = s.fuses := by
  simp [State.failStart]

@[simp] theorem State.endStart_fuses (s : State) (env : StartEnv) (used : Option Nat) (step reason detail : Nat) :
    (s.endStart env used step reason detail).fuses = s.fuses := by
  simp [State.endStart]

@[simp] theorem State.waitStart_fuses (s : State) (step : Nat) (r : StartRun) :
    (s.waitStart step r).fuses = s.fuses := by
  simp [State.waitStart]

@[simp] theorem State.releaseHeldEvents_fuses (s : State) : s.releaseHeldEvents.fuses = s.fuses := by
  simp [State.releaseHeldEvents]

@[simp] theorem State.reachReady_fuses (s : State) (env : StartEnv) (warm reload : Bool) :
    (s.reachReady env warm reload).fuses = s.fuses := by
  unfold State.reachReady
  dsimp only
  (repeat' split) <;> simp

@[simp] theorem State.readyStep_fuses (s : State) (env : StartEnv) (warm reload : Bool) :
    (s.readyStep env warm reload).fuses = s.fuses := by
  simp [State.readyStep]

@[simp] theorem State.admitAll_fuses (s : State) : s.admitAll.fuses = s.fuses := by simp [State.admitAll]

@[simp] theorem State.verifyProfiles_fuses (s : State) (ms : Nat) : (s.verifyProfiles ms).fuses = s.fuses := by
  simp [State.verifyProfiles]

@[simp] theorem State.engineBoot_fuses (s : State) (warm : Bool) : (s.engineBoot warm).fuses = s.fuses := by
  simp [State.engineBoot]

@[simp] theorem State.failedPcs_fuses (s : State) : s.failedPcs.fuses = s.fuses := by simp [State.failedPcs]

@[simp] theorem State.startBasins_fuses (s : State) : s.startBasins.fuses = s.fuses := by
  refine foldl_fuses _ (fun b s => ?_) _ _
  dsimp only
  (repeat' split) <;> simp

@[simp] theorem State.voidJournal_fuses (s : State) : s.voidJournal.fuses = s.fuses := by
  unfold State.voidJournal
  split <;> simp

@[simp] theorem State.startThermal_fuses (s : State) : s.startThermal.fuses = s.fuses := by simp [State.startThermal]

@[simp] theorem State.markInterrupted_fuses (s : State) : s.markInterrupted.fuses = s.fuses := by
  simp [State.markInterrupted]

@[simp] theorem State.lastSteps_fuses (s : State) (env : StartEnv) (warm reload fresh : Bool) :
    (s.lastSteps env warm reload fresh).fuses = s.fuses := by
  simp [State.lastSteps]

@[simp] theorem State.settlePending_fuses (s : State) : s.settlePending.fuses = s.fuses := by
  simp [State.settlePending]

@[simp] theorem State.subsetResult_fuses (s : State) (n : Nat) (all mine : List BistFailure) (tests : List Nat) :
    (s.subsetResult n all mine tests).fuses = s.fuses := by
  simp [State.subsetResult]

@[simp] theorem State.sensorTest_fuses (s : State) (fs : List BistFailure) : (s.sensorTest fs).fuses = s.fuses := by
  simp [State.sensorTest]

@[simp] theorem State.holdBist_fuses (s : State) (step : Nat) (volt temp : Bool) (r : StartRun) :
    (s.holdBist step volt temp r).fuses = s.fuses := by
  simp [State.holdBist]

@[simp] theorem State.releaseBist_fuses (s : State) : s.releaseBist.fuses = s.fuses := by simp [State.releaseBist]

@[simp] theorem State.calRunAll_fuses (s : State) (trims : List Nat) : (s.calRunAll trims).fuses = s.fuses := by
  simp [State.calRunAll]

@[simp] theorem State.calOwed_fuses (s : State) (trims : List Nat) : (s.calOwed trims).fuses = s.fuses := by
  simp [State.calOwed]

@[simp] theorem State.markLane_fuses (s : State) (p lane : Nat) : (s.markLane p lane).fuses = s.fuses := by
  simp [State.markLane]

@[simp] theorem State.applyRepair_fuses (s : State) (e : RepairEntry) : (s.applyRepair e).fuses = s.fuses := by
  simp [State.applyRepair]

@[simp] theorem State.repairRecord_fuses (s : State) : s.repairRecord.fuses = s.fuses := by simp [State.repairRecord]

@[simp] theorem State.tsvFails_fuses (s : State) (p tsv : Nat) : (s.tsvFails p tsv).fuses = s.fuses := by
  simp [State.tsvFails]

@[simp] theorem State.caTsvFails_fuses (s : State) (c tsv : Nat) : (s.caTsvFails c tsv).fuses = s.fuses := by
  simp [State.caTsvFails]

@[simp] theorem State.trainStack_fuses (s : State) (env : StartEnv) (found : List (Nat × Nat)) :
    (s.trainStack env found).fuses = s.fuses := by
  simp [State.trainStack]

@[simp] theorem State.stackTests_fuses (s : State) (env : StartEnv) : (s.stackTests env).fuses = s.fuses := by
  simp [State.stackTests]

@[simp] theorem State.stackStep_fuses (s : State) (env : StartEnv) (warm reload : Bool) :
    (s.stackStep env warm reload).fuses = s.fuses := by
  unfold State.stackStep
  dsimp only
  (repeat' split) <;> simp

@[simp] theorem State.loadImage_fuses (s : State) (env : StartEnv) (k : Nat) :
    (s.loadImage env k).1.fuses = s.fuses := by
  unfold State.loadImage
  split <;> simp [State.imageEvents, State.imageDevice, State.applyImage, State.newChains, State.deriveKeys]

@[simp] theorem State.countBadEntries_fuses (s : State) : s.countBadEntries.fuses = s.fuses := by
  simp [State.countBadEntries]

@[simp] theorem State.afterImage_fuses (s : State) (env : StartEnv) (warm reload keep : Bool) :
    (s.afterImage env warm reload keep).fuses = s.fuses := by
  unfold State.afterImage
  dsimp only
  (repeat' split) <;> simp

@[simp] theorem State.imageLoad_fuses (s : State) (env : StartEnv) (warm reload keep : Bool) :
    (s.imageLoad env warm reload keep).fuses = s.fuses := by
  have hload := s.loadImage_fuses env (s.get .bootStatusSlot)
  unfold State.imageLoad
  split
  · simp
  · split
    · next h => rw [h] at hload; exact hload
    · next h => rw [h] at hload; simpa using hload

@[simp] theorem State.imageStep_fuses (s : State) (env : StartEnv) (warm reload keep : Bool) :
    (s.imageStep env warm reload keep).fuses = s.fuses := by
  simp [State.imageStep]

@[simp] theorem State.logicTests_fuses (s : State) (env : StartEnv) : (s.logicTests env).1.fuses = s.fuses := by
  unfold State.logicTests
  dsimp only
  split <;> simp

@[simp] theorem State.headerStep_fuses (s : State) (env : StartEnv) : (s.headerStep env).1.fuses = s.fuses := by
  unfold State.headerStep
  dsimp only
  split <;> simp

@[simp] theorem State.pllsUp_fuses (s : State) : s.pllsUp.fuses = s.fuses := by simp [State.pllsUp]

@[simp] theorem State.pllsFail_fuses (s : State) : s.pllsFail.fuses = s.fuses := by simp [State.pllsFail]

@[simp] theorem State.calRead_fuses (s : State) : s.calRead.fuses = s.fuses := by
  unfold State.calRead
  split <;> simp

@[simp] theorem State.linkStep_fuses (s : State) (env : StartEnv) (found : Bool) (why : Option (Nat × Nat)) :
    (s.linkStep env found why).fuses = s.fuses := by
  have hslot := (s.set .bootStatusStep 6).calRead.chooseSlot_fuses
  unfold State.linkStep
  dsimp only
  split
  · simp
  · (repeat' split) <;> try simp
    · next h => rw [h] at hslot; simpa using hslot
    · next h => rw [h] at hslot; simpa using hslot

@[simp] theorem State.clockStep_fuses (s : State) (env : StartEnv) (why : Option (Nat × Nat)) :
    (s.clockStep env why).fuses = s.fuses := by
  simp [State.clockStep]

@[simp] theorem State.testStep_fuses (s : State) (env : StartEnv) : (s.testStep env).fuses = s.fuses := by
  simp [State.testStep]

@[simp] theorem State.showMbox_fuses (s : State) : s.showMbox.fuses = s.fuses := by
  unfold State.showMbox
  split <;> simp

@[simp] theorem State.scrap_fuses (s : State) : s.scrap.fuses = s.fuses := by simp [State.scrap]

@[simp] theorem State.firstTemps_fuses (s : State) (govs : List Nat) : (s.firstTemps govs).fuses = s.fuses := by
  simp [State.firstTemps]

@[simp] theorem State.coldBase_cells (s : State) (env : StartEnv) : (s.coldBase env).fuses.cells = s.fuses.cells := by
  unfold State.coldBase
  split <;> simp

@[simp] theorem State.coreLossRecord_fuses (s : State) : s.coreLossRecord.fuses = s.fuses := by
  unfold State.coreLossRecord
  split <;> simp

@[simp] theorem State.otpSteps_cells (s : State) (env : StartEnv) : (s.otpSteps env).fuses.cells = s.fuses.cells := by
  simp [State.otpSteps]

@[simp] theorem State.coldStart_cells (s : State) (env : StartEnv) : (s.coldStart env).fuses.cells = s.fuses.cells := by
  simp [State.coldStart]

@[simp] theorem State.perst_fuses (s : State) : s.perst.fuses = s.fuses := by simp [State.perst]

@[simp] theorem State.warmRings_fuses (s : State) (kept : Bool) : (s.warmRings kept).fuses = s.fuses := by
  simp [State.warmRings, State.interruptRing]

@[simp] theorem State.roundStops_fuses (s : State) : s.roundStops.fuses = s.fuses := by
  unfold State.roundStops
  split <;> simp

@[simp] theorem State.warmRegs_fuses (s : State) : s.warmRegs.fuses = s.fuses := by simp [State.warmRegs]

@[simp] theorem State.warmTarn_fuses (s : State) (kept : Bool) : (s.warmTarn kept).fuses = s.fuses := by
  unfold State.warmTarn
  split
  · rw [foldl_fuses _ fun f s => s.imageFunc_fuses f, State.set_fuses, State.coldFields_fuses, State.clearTarn_fuses]
  · rfl

@[simp] theorem State.warmParts_fuses (s : State) : s.warmParts.fuses = s.fuses := by simp [State.warmParts]

@[simp] theorem State.warmReset_fuses (s : State) (env : StartEnv) (tarn rings : Bool) :
    (s.warmReset env tarn rings).fuses = s.fuses := by
  simp [State.warmReset]

@[simp] theorem State.resumeStart_fuses (s : State) : s.resumeStart.fuses = s.fuses := by
  unfold State.resumeStart
  (repeat' split) <;> simp [State.imageGo]

/-! ### Commands of starts (Machine/StartCmds.lean) -/

@[simp] theorem State.fatalCheck_fuses (s : State) : s.fatalCheck.fuses = s.fuses := by simp [State.fatalCheck]

@[simp] theorem State.nextStart_cells (s : State) (env : StartEnv) :
    (s.nextStart env).fuses.cells = s.fuses.cells := by
  unfold State.nextStart
  split <;> simp [State.settlePerst, State.warmLink, State.warmStart]

@[simp] theorem State.rampEnd_fuses (s : State) (env : StartEnv) : (s.rampEnd env).fuses = s.fuses := by
  simp [State.rampEnd]

@[simp] theorem State.linkLost_fuses (s : State) : s.linkLost.fuses = s.fuses := by simp [State.linkLost]

@[simp] theorem State.linkUp_fuses (s : State) (t : TrainResult) : (s.linkUp t).fuses = s.fuses := by
  have htrain := s.train_fuses t
  unfold State.linkUp
  split
  · rfl
  · split
    · next h => rw [h] at htrain; simpa using htrain
    · next h => rw [h] at htrain; exact htrain

@[simp] theorem State.railUp_fuses (s : State) (stack : Bool) : (s.railUp stack).fuses = s.fuses := by
  simp [State.railUp]

@[simp] theorem State.watchdog_fuses (s : State) : s.watchdog.fuses = s.fuses := by
  unfold State.watchdog
  (repeat' split) <;> simp

@[simp] theorem State.stackRailExpire_fuses (s : State) : s.stackRailExpire.fuses = s.fuses := by
  unfold State.stackRailExpire
  (repeat' split) <;> simp

@[simp] theorem State.resumeLimits_fuses (s : State) : s.resumeLimits.fuses = s.fuses := by
  unfold State.resumeLimits
  (repeat' split) <;> simp

@[simp] theorem State.idle_fuses (s : State) : s.idle.fuses = s.fuses := by
  unfold State.idle
  dsimp only
  (repeat' split) <;> simp [State.calWriteLater]

@[simp] theorem State.flashEnds_fuses (s : State) (result : Nat) : (s.flashEnds result).fuses = s.fuses := by
  simp [State.flashEnds]

@[simp] theorem State.flashGo_fuses (s : State) (op : Nat) : (s.flashGo op).fuses = s.fuses := by simp [State.flashGo]

@[simp] theorem State.flashDone_fuses (s : State) (ok : Bool) : (s.flashDone ok).fuses = s.fuses := by
  unfold State.flashDone
  split <;> simp [State.flashBuffer, State.flashDoes]

@[simp] theorem State.clearBad_fuses (s : State) : s.clearBad.fuses = s.fuses := by simp [State.clearBad]

@[simp] theorem State.sideband_fuses (s : State) (f : State → List Byte) : (s.sideband f).fuses = s.fuses := by
  simp [State.sideband]

/-! ### Register accesses (Machine/Registers.lean) -/

@[simp] theorem State.readEffect_fuses (s : State) (add : Nat) (f : FN) (i j : Nat) :
    (s.readEffect add f i j).fuses = s.fuses := by
  unfold State.readEffect
  split <;> simp

@[simp] theorem State.readReg_fuses (s : State) (func off add : Nat) : (s.readReg func off add).1.fuses = s.fuses := by
  simp [State.readReg]

@[simp] theorem State.staticReport_fuses (s : State) (f : FN) (i : Nat) : (s.staticReport f i).fuses = s.fuses := by
  unfold State.staticReport
  split <;> simp

@[simp] theorem State.pendAdmission_fuses (s : State) (g : Nat) : (s.pendAdmission g).fuses = s.fuses := by
  simp [State.pendAdmission]

@[simp] theorem State.mboxWriteGo_fuses (s : State) : s.mboxWriteGo.fuses = s.fuses := by simp [State.mboxWriteGo]

@[simp] theorem State.vfSelect_fuses (s : State) (v j w : Nat) : (s.vfSelect v j w).fuses = s.fuses := by
  simp [State.vfSelect]

@[simp] theorem State.msixRescan_fuses (s : State) (func : Nat) : (s.msixRescan func).fuses = s.fuses := by
  simp [State.msixRescan]

@[simp] theorem State.powerState_fuses (s : State) (x : Nat) : (s.powerState x).fuses = s.fuses := by
  simp [State.powerState]

@[simp] theorem State.writeNumVfs_fuses (s : State) (x : Nat) : (s.writeNumVfs x).fuses = s.fuses := by
  simp [State.writeNumVfs]

@[simp] theorem State.narrowWrite_fuses (s : State) : s.narrowWrite.fuses = s.fuses := by simp [State.narrowWrite]

@[simp] theorem State.configRequest_fuses (s : State) (func off len : Nat) (f : State → State)
    (h : Keeps (·.fuses) f) : (s.configRequest func off len f).fuses = s.fuses := by
  simp [State.configRequest, h _]

@[simp] theorem State.bar0Read_fuses (s : State) (func off len add add2 : Nat) :
    (s.bar0Read func off len add add2).fuses = s.fuses := by
  simp [State.bar0Read]

@[simp] theorem State.bar4Read_fuses (s : State) (func off len latency : Nat) :
    (s.bar4Read func off len latency).fuses = s.fuses := by
  unfold State.bar4Read
  split <;> simp

@[simp] theorem State.configRead_fuses (s : State) (func off len : Nat) :
    (s.configRead func off len).fuses = s.fuses := by
  simp [State.configRead]

@[simp] theorem State.hostRead_fuses (s : State) (space : Space) (func off len add add2 : Nat) :
    (s.hostRead space func off len add add2).fuses = s.fuses := by
  unfold State.hostRead
  split <;> simp

@[simp] theorem State.bar4Write_fuses (s : State) (func off : Nat) (bytes : List Byte) :
    (s.bar4Write func off bytes).fuses = s.fuses := by
  unfold State.bar4Write
  split <;> simp [State.doorbellWrite]

@[simp] theorem State.boundaryField_fuses (s : State) (f : FN) (i j : Nat) :
    (s.boundaryField f i j).fuses = s.fuses := by
  unfold State.boundaryField
  split <;> simp

/-! ### Eddy windows and packs (Machine/Windows.lean) -/

@[simp] theorem State.windowError_fuses (s : State) (e : Nat) : (s.windowError e).fuses = s.fuses := by
  simp [State.windowError]

@[simp] theorem State.retryStalls_fuses (s : State) (e w : Nat) : (s.retryStalls e w).fuses = s.fuses := by
  refine foldl_fuses _ (fun st s => ?_) _ _
  dsimp only
  (repeat' split) <;> simp

@[simp] theorem State.eddyEnable_fuses (s : State) (e w base len : Nat) (en : Bool) :
    (s.eddyEnable e w base len en).fuses = s.fuses := by
  simp [State.eddyEnable]

@[simp] theorem State.eddyAccess_fuses (s : State) (e w offset len : Nat) (write : Option (List Byte))
    (parityOk : Bool) : (s.eddyAccess e w offset len write parityOk).fuses = s.fuses := by
  unfold State.eddyAccess
  split <;> simp

@[simp] theorem State.eddyConsume_fuses (s : State) (e w n : Nat) : (s.eddyConsume e w n).fuses = s.fuses := by
  simp [State.eddyConsume]

@[simp] theorem State.eddyCommit_fuses (s : State) (e w n : Nat) : (s.eddyCommit e w n).fuses = s.fuses := by
  simp [State.eddyCommit]

@[simp] theorem State.eddyClear_fuses (s : State) (e w : Nat) : (s.eddyClear e w).fuses = s.fuses := by
  simp [State.eddyClear]

@[simp] theorem State.packFlush_fuses (s : State) (q : Nat) : (s.packFlush q).fuses = s.fuses := by
  simp [State.packFlush]

@[simp] theorem State.packFlushDone_fuses (s : State) (q : Nat) : (s.packFlushDone q).fuses = s.fuses := by
  simp [State.packFlushDone]

@[simp] theorem State.lakeArrive_fuses (s : State) (port group p a : Nat) (access : LakeAccess) :
    (s.lakeArrive port group p a access).fuses = s.fuses := by
  unfold State.lakeArrive
  split <;> simp

@[simp] theorem State.wordFailed_fuses (s : State) (port p a : Nat) : (s.wordFailed port p a).fuses = s.fuses := by
  unfold State.wordFailed
  dsimp only
  (repeat' split) <;> simp

@[simp] theorem State.lakeRequest_fuses (s : State) (port group p a : Nat) (access : LakeAccess) :
    (s.lakeRequest port group p a access).fuses = s.fuses := by
  unfold State.lakeRequest
  (repeat' split) <;> simp

end Sys2Proof.Machine
end

section
/-! SUPPORT. What programs fuses, or cuts a programming short, keeps every blown bit (R353), and so does every step. -/

namespace Sys2Proof.Machine

/-! ### Programming, and a programming cut short, keep every blown bit (R353, R362, R365) -/

theorem State.fusesKept_of_fuses {s t : State} (h : t.fuses = s.fuses) : s.fusesKept t :=
  State.fusesKept_of_eq (congrArg Fuses.cells h)

/-- What leaves the fuses alone may stand before and after what keeps their blown bits. -/
theorem State.fusesKept_between {s t u v : State} (ht : t.fuses = s.fuses) (h : t.fusesKept u) (hv : v.fuses = u.fuses) :
    s.fusesKept v :=
  State.fusesKept_trans (State.fusesKept_of_fuses ht) (State.fusesKept_trans h (State.fusesKept_of_fuses hv))

theorem State.fusesKept_foldl {α : Type} (f : State → α → State) (h : ∀ (u : State) (x : α), u.fusesKept (f u x))
    (l : List α) (s : State) : s.fusesKept (l.foldl f s) := by
  induction l generalizing s with
  | nil => exact s.fusesKept_refl
  | cons x xs ih => exact State.fusesKept_trans (h s x) (ih _)

theorem State.fusesKept_blow (s : State) (n : Nat) : s.fusesKept (s.blow n) :=
  State.fusesKept_trans (s.fusesKept_blowCell n) (State.fusesKept_blowCell _ _)

theorem State.fusesKept_blowAll (s : State) (bs : List Nat) : s.fusesKept (s.blowAll bs) :=
  State.fusesKept_foldl _ State.fusesKept_blow bs s

theorem State.fusesKept_blowPart (s : State) (n : Nat) : s.fusesKept (s.blowPart n) := by
  have hcell : ∀ (u : State) (c : Bool) (m : Nat), u.fusesKept (if c then u.blowCell m else u) := by
    intro u c m
    cases c
    · exact u.fusesKept_refl
    · exact u.fusesKept_blowCell m
  exact State.fusesKept_trans (State.fusesKept_of_fuses (s.draw_fuses 1))
    (State.fusesKept_trans (hcell _ _ _) (hcell _ _ _))

theorem State.fusesKept_runProgram (s : State) (x : OtpRun) : s.fusesKept (s.runProgram x).1 := by
  unfold State.runProgram
  split
  · next bits _ => exact State.fusesKept_between rfl (s.fusesKept_blowAll bits) (by simp)
  · next bits b _ => exact State.fusesKept_trans (s.fusesKept_blowAll bits) (State.fusesKept_blowPart _ b)

theorem State.fusesKept_cutProgram (s : State) (x : OtpRun) : s.fusesKept (s.cutProgram x).1 := by
  refine State.fusesKept_trans (State.fusesKept_of_fuses (s.draw_fuses 2)) ?_
  unfold State.cutProgram
  dsimp only
  split
  · next bits _ => exact State.fusesKept_blowAll _ bits
  · next bits b _ => exact State.fusesKept_trans (State.fusesKept_blowAll _ bits) (State.fusesKept_blowPart _ b)

theorem State.fusesKept_tamperOtp (s : State) : s.fusesKept s.tamperOtp := by
  unfold State.tamperOtp
  split
  · split
    · next x _ => exact State.fusesKept_between rfl (s.fusesKept_cutProgram x) (by simp)
    · exact s.fusesKept_refl
  · exact s.fusesKept_refl

theorem State.fusesKept_otpPowerCut (s : State) : s.fusesKept s.otpPowerCut := by
  unfold State.otpPowerCut
  split
  · next x _ => exact s.fusesKept_cutProgram x
  · exact s.fusesKept_refl

/-! ### The commands that reach the fuse array -/

theorem State.fusesKept_mboxDone (s : State) : s.fusesKept s.mboxDone := by
  unfold State.mboxDone
  split
  · exact s.fusesKept_refl
  · split
    · exact State.fusesKept_of_fuses (by simp)
    · next x _ =>
      refine State.fusesKept_between rfl (s.fusesKept_runProgram x) ?_
      dsimp only
      split <;> simp

/-- A loss of VDD_AUX cuts a programming short; the cells outlast it. -/
theorem State.fusesKept_auxLoss (s : State) : s.fusesKept s.auxLoss :=
  State.fusesKept_trans s.fusesKept_otpPowerCut (State.fusesKept_of_eq (by simp [State.auxLoss]))

theorem State.fusesKept_tamper (s : State) (d : Detector) : s.fusesKept (s.tamper d) := by
  unfold State.tamper
  split
  · exact s.fusesKept_refl
  · exact State.fusesKept_between (by simp) (s.set (tamperField d) 1).bistAbort.fusesKept_tamperOtp (by simp)

theorem State.fusesKept_mboxReset (s : State) : s.fusesKept s.mboxReset := by
  unfold State.mboxReset
  dsimp only
  split
  · exact State.fusesKept_of_fuses (by simp)
  · split
    · next x _ => exact State.fusesKept_between rfl (s.fusesKept_cutProgram x) (by simp)
    · exact State.fusesKept_of_fuses (by simp)

theorem State.fusesKept_sourceEffects (s : State) (source func arg loc : Nat) :
    s.fusesKept (s.sourceEffects source func arg loc) := by
  unfold State.sourceEffects
  split
  · exact State.fusesKept_of_fuses (by simp)
  · split
    · exact State.fusesKept_of_fuses (by simp)
    · split
      · exact State.fusesKept_between (by simp) s.bistAbort.fusesKept_tamperOtp (by simp)
      · exact s.fusesKept_refl

theorem State.fusesKept_reportIn (s : State) (r : Report) : s.fusesKept (s.reportIn r) := by
  unfold State.reportIn
  dsimp only
  split
  · split
    · exact State.fusesKept_between rfl (s.fusesKept_sourceEffects r.source r.func r.arg r.loc) (by simp)
    · exact State.fusesKept_of_fuses (by simp)
  · split
    · exact State.fusesKept_of_fuses (by simp)
    · exact State.fusesKept_between rfl (s.fusesKept_sourceEffects r.source r.func r.arg r.loc) (by simp)

theorem State.fusesKept_fltInject (s : State) (v : Nat) : s.fusesKept (s.fltInject v) := by
  unfold State.fltInject
  dsimp only
  split
  · exact s.fusesKept_refl
  · exact s.fusesKept_reportIn _

theorem State.fusesKept_withFatal (s : State) (f : State → State) (h : ∀ u : State, u.fusesKept (f u)) :
    s.fusesKept (s.withFatal f) :=
  State.fusesKept_between rfl (h s) (by simp [State.withFatal])

theorem State.fusesKept_faultReport (s : State) (rs : List Report) : s.fusesKept (s.faultReport rs) :=
  s.fusesKept_withFatal _ fun s => State.fusesKept_foldl _ State.fusesKept_reportIn _ s

/-! ### Register writes: only FLT_INJECT reaches the fuse array -/

theorem State.writeField_fuses (s : State) (func v hwSet : Nat) {f : FN} (i j : Nat) (h : f ≠ .fltInjectGo) :
    (s.writeField func v hwSet f i j).fuses = s.fuses := by
  unfold State.writeField
  dsimp only
  split <;> (try split) <;> simp_all

theorem State.fusesKept_writeField (s : State) (func v hwSet : Nat) (f : FN) (i j : Nat) :
    s.fusesKept (s.writeField func v hwSet f i j) := by
  by_cases h : f = .fltInjectGo
  · subst h
    exact s.fusesKept_withFatal _ fun s => s.fusesKept_fltInject v
  · exact State.fusesKept_of_fuses (s.writeField_fuses func v hwSet i j h)

theorem State.fusesKept_writeReg (s : State) (func off v hwSet : Nat) : s.fusesKept (s.writeReg func off v hwSet) := by
  unfold State.writeReg
  dsimp only
  refine State.fusesKept_trans (State.fusesKept_of_fuses ?_) (State.fusesKept_foldl _ (fun u x => ?_) _ _)
  · (repeat' split) <;> simp
  · exact u.fusesKept_writeField func v hwSet x.1 x.2.1 x.2.2

theorem State.fusesKept_bar0Write (s : State) (func off : Nat) (bytes : List Byte) (hwSet : Nat) :
    s.fusesKept (s.bar0Write func off bytes hwSet) := by
  unfold State.bar0Write
  dsimp only
  split
  · exact State.fusesKept_of_fuses (by simp)
  · exact State.fusesKept_foldl _ (fun s w => s.fusesKept_writeReg _ _ _ _) _ _

theorem State.fusesKept_configWrite (s : State) (func off : Nat) (bytes : List Byte) (hwSet : Nat) :
    s.fusesKept (s.configWrite func off bytes hwSet) := by
  refine State.fusesKept_foldl _ (fun s x => ?_) _ _
  dsimp only
  split
  · exact s.fusesKept_refl
  · exact s.fusesKept_writeField _ _ _ _ _ _

theorem State.fusesKept_unlessPoisoned (s : State) (func : Nat) (poisoned : Bool) (f : State → State)
    (h : ∀ u : State, u.fusesKept (f u)) : s.fusesKept (s.unlessPoisoned func poisoned f) := by
  unfold State.unlessPoisoned
  split
  · exact State.fusesKept_of_fuses (by simp)
  · exact h s

theorem State.fusesKept_barWrite (s : State) (func : Nat) (f : State → State) (n : Nat)
    (h : ∀ u : State, u.fusesKept (f u)) : s.fusesKept (s.barWrite func f n) := by
  obtain ⟨-, hw⟩ | ⟨-, hw⟩ := s.barWrite_cases func f n <;> rw [hw]
  · exact State.fusesKept_trans (State.fusesKept_of_fuses (by simp)) (h _)
  · exact State.fusesKept_of_fuses (by simp)

theorem State.fusesKept_configRequest (s : State) (func off len : Nat) (f : State → State)
    (h : ∀ u : State, u.fusesKept (f u)) : s.fusesKept (s.configRequest func off len f) := by
  unfold State.configRequest
  split
  · exact s.fusesKept_refl
  · split
    · exact State.fusesKept_of_fuses (by simp)
    · split
      · exact State.fusesKept_of_fuses (by simp)
      · exact h s

theorem State.fusesKept_registerWrite (s : State) (space : Space) (func off : Nat) (bytes : List Byte) (poisoned : Bool)
    (hwSet : Nat) : s.fusesKept (s.registerWrite space func off bytes poisoned hwSet) := by
  cases space with
  | bar0 =>
    unfold State.registerWrite
    dsimp only
    split
    · exact State.fusesKept_of_fuses (by simp)
    · exact s.fusesKept_barWrite _ _ _ fun s => s.fusesKept_unlessPoisoned _ _ _ fun s => s.fusesKept_bar0Write _ _ _ _
  | bar4 => exact State.fusesKept_of_fuses (by simp [State.registerWrite])
  | config =>
    refine s.fusesKept_configRequest _ _ _ _ fun s => ?_
    exact State.fusesKept_between (s.received_fuses bytes.length)
      (State.fusesKept_unlessPoisoned _ func poisoned (·.configWrite func off bytes hwSet)
        fun u => u.fusesKept_configWrite func off bytes hwSet) (by simp)

theorem State.fusesKept_blockWrite (s : State) (block func : Nat) (f : State → State)
    (h : ∀ u : State, u.fusesKept (f u)) : s.fusesKept (s.blockWrite block func f) := by
  refine s.fusesKept_barWrite _ _ _ fun u => ?_
  split
  · exact h u
  · exact u.fusesKept_refl

theorem State.fusesKept_tlpGuard (s : State) (func : Nat) (nonPosted : Bool) (tlp : Tlp) (f : State → State)
    (h : ∀ u : State, u.fusesKept (f u)) : s.fusesKept (s.tlpGuard func nonPosted tlp f) := by
  unfold State.tlpGuard
  split
  · exact h s
  · exact h s
  · split
    · exact State.fusesKept_of_fuses (by simp)
    · exact h s
  · exact State.fusesKept_of_fuses (by simp)
  · exact State.fusesKept_of_fuses (by simp)
  · exact State.fusesKept_of_fuses (by simp)
  · split
    · exact State.fusesKept_of_fuses (by simp)
    · exact h s

/-! ### A step -/

/-- Most commands leave the cells; the first cases are those that reach the fuse array, or whose meaning branches. -/
theorem exec_fusesKept {c : Instr} {s t : State} (h : exec c s = .next t) : s.fusesKept t := by
  cases c with
  | registerWrite func space off bytes arrives =>
    obtain ⟨-, rfl⟩ := whenWf_next.mp h
    exact s.fusesKept_tlpGuard _ _ _ _ fun u => u.fusesKept_registerWrite _ _ _ _ _ _
  | faultReport reports =>
    obtain ⟨-, rfl⟩ := whenWf_next.mp h
    split
    · exact s.fusesKept_faultReport reports
    · exact s.fusesKept_refl
  | vddAuxLoss =>
    obtain rfl := Host.Outcome.next.inj h
    exact s.fusesKept_auxLoss
  | mboxDone =>
    obtain rfl := Host.Outcome.next.inj h
    exact s.fusesKept_mboxDone
  | lcsTamper detector =>
    obtain rfl := Host.Outcome.next.inj h
    exact s.fusesKept_tamper detector
  | pairedQueueMismatch queue =>
    obtain rfl := Host.Outcome.next.inj h
    split
    · exact s.fusesKept_refl
    · cases queue with
      | mailbox => exact s.fusesKept_mboxReset
      | faultRecords => exact State.fusesKept_of_fuses s.recordsReset_fuses
      | keyRequests => exact State.fusesKept_of_fuses s.keyRequestsReset_fuses
  | fltInject value =>
    obtain rfl := Host.Outcome.next.inj h
    exact s.fusesKept_blockWrite _ _ _ fun u => u.fusesKept_withFatal _ fun v => v.fusesKept_fltInject _
  | mboxUnknownCmd cmd input =>
    change execMboxUnknownCmd cmd input s = _ at h
    unfold execMboxUnknownCmd at h
    split at h <;> obtain ⟨-, rfl⟩ := whenWf_next.mp h
    · exact State.fusesKept_refl _
    · exact State.fusesKept_of_fuses (by simp)
  | boundaryApply off =>
    change execBoundaryApply off s = _ at h
    obtain ⟨-, rfl⟩ := whenWf_next.mp h
    exact State.fusesKept_of_fuses (by simp)
  | flashOpTimeout =>
    obtain rfl := Host.Outcome.next.inj h
    refine State.fusesKept_of_fuses ?_
    split <;> simp
  | signatureDone what slotWriteOk =>
    obtain ⟨-, rfl⟩ := whenWf_next.mp h
    refine State.fusesKept_of_fuses ?_
    cases what <;> simp
  | stackRailLow | clkXtalFail | clkPllUnlock | pciePhyPllUnlock | stackZeroingDone | keyRequestReissue
  | getVersion | getCapabilities | negotiateAlgorithms | getDigests | getCertificate | challenge
  | getMeasurements | keyExchange | finish | keyUpdate | endSession | chunkSend | chunkGet
  | vendorDefinedRequest | keyProg | kSetGo | kSetStop | ideKmQuery | perstAssert | linkUp | linkRecovery
  | l0pIdleExpire | l0pWidthRequest | l0pFullWidthRequest | l1Entry | l1Exit | d3hotEntry | d0Return | vfEnable
  | tagEnableEffect | doeObject | doeAbort | flush | lakeFlushDone | vlkShiftReq | packFlushRequest
  | packFlushDone | weirTick | weirWindowBoundary | dredgePiece | dredgeGo | stop | integDredgeDone
  | dredgeRoundDone | rowRetire | rowCopy | pcRetire | graceExpire | resume | powerPeriodEnd | force
  | containmentEnd | containmentTimeout | quietTimerExpire | fActionsEnd | fltRelease | railInRange
  | startWatchdog | read | program | erase | flashOpDone | regRead | clearBad | bistDone | abort | freeze
  | bwWindowEnd | devTimerLoRead | vddCoreLoss | crystalReturn | sidebandReset | sidebandFrameError
  | stackRailWaitExpire | calRecordWriteEnd | loopbackEntry =>
    obtain rfl := Host.Outcome.next.inj h
    exact State.fusesKept_of_eq (by simp)
  | _ =>
    obtain ⟨-, rfl⟩ := whenWf_next.mp h
    exact State.fusesKept_of_eq (by simp)

theorem step_fusesKept {s t : State} (h : step s = .next t) : s.fusesKept t := by
  unfold step at h
  split at h
  · next c rest _ => exact State.fusesKept_trans (t := { s with pending := rest }) s.fusesKept_refl (exec_fusesKept h)
  · cases h
    exact State.fusesKept_of_fuses (by simp)

/-- Settles O3: every command but the few that end or cut a programming leaves the fuses' cells, and those only blow bits;
a bit is blown as one bit of each bank. -/
theorem fusesNeverClear : Obligations.FusesNeverClear := by
  unfold Obligations.FusesNeverClear
  refine ⟨fun s t h => step_fusesKept h, fun s n k hn => ?_⟩
  change (s.blow n).fuseBit n = true ∧ (s.blow n).fuseBit (32768 + n) = true ∧
    (k ≠ n → k ≠ 32768 + n → (s.blow n).fuseBit k = s.fuseBit k) ∧ _ ∧
    s.arrayBit n = (s.fuseBit n || s.fuseBit (32768 + n))
  refine ⟨by simp [State.fuseBit_blow], by simp [State.fuseBit_blow], fun h1 h2 => ?_, rfl, s.arrayBit_eq n⟩
  simp [State.fuseBit_blow, h1, h2]

end Sys2Proof.Machine
end
